-- ==== Sys2Proof/Word.lean ====
section
/-! DEFINITION. The word types of the part and the plainest helpers over fixed-length vectors. -/

namespace Sys2Proof

/-- A byte of the store or of a serial link. -/
abbrev Byte := BitVec 8

/-- A store word, 32 bits. -/
abbrev Word := BitVec 32

/-- Change entry `i` of a vector by `f`. -/
def vupd {α : Type} {n : Nat} (v : Vector α n) (i : Fin n) (f : α → α) : Vector α n :=
  v.set i.val (f v[i.val]) i.isLt

/-- Put `x` at entry `i` of a vector. -/
def vput {α : Type} {n : Nat} (v : Vector α n) (i : Fin n) (x : α) : Vector α n :=
  v.set i.val x i.isLt

/-- Apply `f` to every entry of a vector. -/
def vmap {α β : Type} {n : Nat} (f : α → β) (v : Vector α n) : Vector β n :=
  ⟨⟨v.toList.map f⟩, by simp⟩

/-- A vector made from a list, entry by entry, missing entries being `d`. -/
def vofList {α : Type} (n : Nat) (d : α) (l : List α) : Vector α n :=
  ⟨⟨(l ++ List.replicate n d).take n⟩, by simp⟩

/-- The twelve positions, ascending. -/
def positions : List (Fin 12) := [0, 1, 2, 3, 4, 5, 6, 7, 8, 9, 10, 11]

/-- The thirteen drawer indices, ascending; 12 is RESERVE. -/
def drawerIndices : List (Fin 13) := [0, 1, 2, 3, 4, 5, 6, 7, 8, 9, 10, 11, 12]

/-- The four printers. -/
def printers : List (Fin 4) := [0, 1, 2, 3]

/-- The three screen lines. -/
def screenLines : List (Fin 3) := [0, 1, 2]

/-- The four drops of a line. -/
def dropsOfLine : List (Fin 4) := [0, 1, 2, 3]

/-- The ten denominations. -/
def denominations : List (Fin 10) := [0, 1, 2, 3, 4, 5, 6, 7, 8, 9]

/-- The eight request slots of a printer. -/
def printSlots : List (Fin 8) := [0, 1, 2, 3, 4, 5, 6, 7]

end Sys2Proof
end

