-- ==== Sys2Proof/Syntax.lean ====
section
/-! DEFINITION. The commands of the part: one constructor for each row of spec/opcode_table.json, with its operands.
The table gives the rows no operand fields; the operands are those the rules name (a position, a printer, a line,
a value written with its byte enables, the contents of an answer). -/

namespace Sys2Proof

/-- A word of a host write with its four byte enables, bit `i` for byte `i` (00, pins; R10). -/
structure WriteWord where
  value : Word
  enables : BitVec 4
  deriving DecidableEq, Repr

/-- An access on the controller port: a word or a burst of up to eight (R6, R7). The table has no row for a read;
a read travels as the `read` form of HOST_WRITE (log 19). -/
inductive HostAccess where
  | read (addr : Word) (len : Nat)
  | write (addr : Word) (words : List WriteWord)
  deriving DecidableEq, Repr

/-- The settings of R152, R157 and R158 whose accepted change acts on the Feed Drive at once. -/
inductive FeedSetting where
  | pwmPrescale | pwmPeriod | encPrescale | outPolarity
  deriving DecidableEq, Repr

/-- One command, one row of the table. -/
inductive Instr where
  -- start-up and ports
  | deviceReset (sel : Fin 16)
  | loadingEnd
  | hostWrite (access : HostAccess)
  | arbiterGrant
  | storeAnswer (okay : Bool)
  -- host writes with an action of their own
  | settingWrite (offset : Fin 4096) (value : Word) (enables : BitVec 4)
  | placementWrite (window : Fin 6) (limit : Bool) (value : Word) (enables : BitVec 4)
  | jnlCapacityWrite (value : Word) (enables : BitVec 4)
  | ceilingWrite (p : Fin 12) (upper : Bool) (value : Word) (enables : BitVec 4)
  | lineSettingWrite (l : Fin 3) (gap : Bool) (value : Word) (enables : BitVec 4)
  | idleBlankWrite (value : Word) (enables : BitVec 4)
  | capabilitySettingWrite (p : Fin 12) (colour : Bool) (value : Word) (enables : BitVec 4)
  | formatSettingWrite (separators : Bool) (value : Word) (enables : BitVec 4)
  | prnPresentWrite (n : Fin 4) (value : Word) (enables : BitVec 4)
  | autoRestartWrite (n : Fin 4) (value : Word) (enables : BitVec 4)
  | feedSettingWrite (n : Fin 4) (which : FeedSetting) (value : Word) (enables : BitVec 4)
  | reportReadIndexWrite (value : Word) (enables : BitVec 4)
  -- requests: the host's write of the request word; the operands stand in the store (R31)
  | closeDay
  | startSend
  | clearDay
  | linkReset
  | printerClear
  | printerRestart
  | printerHalt
  | eject
  | screenMode
  | screenRefresh
  | lineReset
  | drawerRelease
  -- posting, the day and reports
  | commit (slot : Fin 13)
  | applyRecord
  | markDamaged
  | printStateStamp
  | rebuildWalkStep
  | rebuildEnd
  | reportWrite
  -- screens
  | screenRowWrite (p : Fin 12) (word : Fin 960) (value : Word) (enables : BitVec 4)
  | masterRowWrite (word : Fin 40) (value : Word) (enables : BitVec 4)
  | fanOutStart
  | sweepStart (p : Fin 12)
  | statusRowRender
  | flashToggle (p : Fin 12)
  | idleTimerExpiry (p : Fin 12)
  -- screen lines
  | lineTurn (l : Fin 3)
  | frameSent (l : Fin 3)
  | terminalAck (l : Fin 3) (sensorOpen : Bool) (keys : List (BitVec 16))
  | terminalNak (l : Fin 3)
  | terminalIdent (l : Fin 3) (colour : Bool) (keyboard revision : Byte)
  | damagedAnswer (l : Fin 3) (bytes : List Byte)
  | answerPauseTimeout (l : Fin 3)
  | replyTimeout (l : Fin 3)
  | pollIntervalExpiry (p : Fin 12)
  | attachAttemptDue (p : Fin 12)
  | keyReadIndexWrite (p : Fin 12) (value : Word) (enables : BitVec 4)
  | openLongExpiry (p : Fin 12)
  | releasePulseEnd (p : Fin 12)
  -- printers
  | printSlotIdleWrite (n : Fin 4) (slot : Fin 8)
  | submit (n : Fin 4) (slot : Fin 8)
  | bookInserted (n : Fin 4)
  | bookRemoved (n : Fin 4)
  | tofEdge (n : Fin 4)
  | requestTake (n : Fin 4)
  | encoderEdge (n : Fin 4)
  | targetMatch (n : Fin 4)
  | strikeCompose (n : Fin 4)
  | headAnswer (n : Fin 4) (char : Byte)
  | headTimeout (n : Fin 4)
  | travelLimit (n : Fin 4)
  | stallTimeout (n : Fin 4)
  | coverActive (n : Fin 4)
  | ovcActive (n : Fin 4)
  | causeInputInactive (n : Fin 4) (ovc : Bool)
  | periodBoundary (n : Fin 4)
  | deadBandExpiry (n : Fin 4) (output : Fin 4)
  -- head-office link
  | carrierChange (present : Bool)
  | receiveClockLoss
  | helloTimerExpiry
  | hello
  | helloAck
  | keepalive
  | invalidFrame (bytes : List Byte)
  | transmitterFree
  | keepaliveTimerExpiry
  | silenceTimerExpiry
  | ack (n : Fin 256)
  | nak (n : Fin 256)
  | ackTimerExpiry
  | hold
  | holdTimerExpiry
  | resumeTimerExpiry
  | abort (reason : Byte)
  | accepted (batch : Word)
  | rejected (reason : Byte)
  | verdictTimerExpiry
  -- the last rows of the table
  | receiveClockReturn
  | lineGapExpiry (l : Fin 3)
  | strikeMessageSent (n : Fin 4)
  | highSideTurnOff (n : Fin 4)
  | badRequest (code : Word)
  deriving DecidableEq, Repr

end Sys2Proof
end

