-- ==== Sys2Proof/Config.lean ====
section
/-! DEFINITION. What the part's manual fixes as numbers, and the free values: values the manual leaves open, which
nothing in Lean can evaluate. -/

namespace Sys2Proof.Config

/-- The `k`-th free value (log 10): what the manual leaves open, drawn by the counter `free` of the state. -/
opaque freeValue : Nat → BitVec 32

/-- What a byte of the store reads as when nothing has written it (DESIGN CHOICE, log 4, unsafe). -/
def unwrittenByte : Byte := 0

/-- The amount cap, 999,999,999,999 (R37). -/
def amountCap : Nat := 999999999999

/-- 10^12, the modulus of the hash total (R46). -/
def hashModulus : Nat := 1000000000000

/-- CLK periods in a millisecond (R30). -/
def clkPerMs : Nat := 24000

/-- 2^32, the number of values of a word. -/
def wordModulus : Nat := 4294967296

/-- The last sequence number, after which comes 1 (R69). -/
def lastSeq : Nat := 4294967295

/-- Reports the pending list holds (R33). -/
def reportPendingMax : Nat := 16

/-- Numbers the unstamped VOID list holds (R73). -/
def unstampedMax : Nat := 8

/-- The identity code of the part (R20). -/
def identityCode : Word := 0x06124854

/-- The revision number (R20). -/
def revision : Word := 1

end Sys2Proof.Config
end

