-- ==== Sys2Proof/Machine/Bits.lean ====
section
/-! DEFINITION. Bit fields, bytes and words: the byte order of the store (00, words and byte order) and the packing of
fields that 12_memory_formats.md uses. -/

namespace Sys2Proof.Machine

/-- Byte `i` of a word, byte 0 the least significant (00, words and byte order). -/
def byteOf (w : Word) (i : Nat) : Byte := BitVec.ofNat 8 (w.toNat / 256 ^ i)

/-- The word of four bytes, least significant first. -/
def wordOf (b0 b1 b2 b3 : Byte) : Word :=
  BitVec.ofNat 32 (b0.toNat + 256 * b1.toNat + 65536 * b2.toNat + 16777216 * b3.toNat)

/-- A word from a number, modulo 2^32. -/
def wd (n : Nat) : Word := BitVec.ofNat 32 n

/-- The four bytes of a word in address order. -/
def wordBytes (w : Word) : List Byte := [byteOf w 0, byteOf w 1, byteOf w 2, byteOf w 3]

/-- The bytes of a list of words in address order (R53). -/
def wordsBytes (ws : List Word) : List Byte := ws.flatMap wordBytes

/-- Bits `lo` to `lo + width - 1` of a word, as a number (R195). -/
def field (w : Word) (lo width : Nat) : Nat := w.toNat / 2 ^ lo % 2 ^ width

/-- One bit of a word, as a flag (R195). -/
def flagAt (w : Word) (i : Nat) : Bool := field w i 1 == 1

/-- A flag as a number. -/
def flagBit (b : Bool) : Nat := if b then 1 else 0

/-- The two words of a 64-bit field, less significant first (R195). -/
def words64 (n : Nat) : List Word := [wd n, wd (n / Config.wordModulus)]

/-- The two words of a signed 64-bit field, in two's complement (R195). -/
def wordsSigned64 (i : Int) : List Word := words64 (i % 18446744073709551616).toNat

/-- The number in a 64-bit field. -/
def nat64 (lo hi : Word) : Nat := lo.toNat + Config.wordModulus * hi.toNat

/-- Sixteen-bit members packed two to a word, the lower-numbered in bits 0 to 15 (R195). -/
def packHalves : List Nat → List Word
  | a :: b :: rest => wd (a % 65536 + 65536 * (b % 65536)) :: packHalves rest
  | [a] => [wd (a % 65536)]
  | [] => []

/-- The sixteen-bit members of packed words. -/
def unpackHalves (ws : List Word) : List Nat := ws.flatMap (fun w => [field w 0 16, field w 16 16])

/-- The bytes of a multi-byte field on a link, least significant first (R197). -/
def linkBytes (width n : Nat) : List Byte := (List.range width).map (fun i => BitVec.ofNat 8 (n / 256 ^ i))

/-- The ten bits of a byte on a screen line or a head link: a start bit, eight data bits least significant first, a stop bit
(R119, R197). A start bit is low, and a data bit 1, a stop bit and an idle line are high (PRESUMED, log 84). -/
def serialBits (b : Byte) : List Bool := false :: (List.range 8).map (fun i => b.getLsbD i) ++ [true]

/-- The level of a line that sends bytes at `bit` CLK periods a bit, with `left` CLK periods of them left (R119, R197). -/
def serialLevel (bytes : List Byte) (bit left : Nat) : Bool :=
  (bytes.flatMap serialBits).getD ((10 * bit * bytes.length - left) / bit) true

/-- The byte in progress of bytes sent at `bit` CLK periods a bit, with `left` CLK periods of them left. -/
def byteInProgress (bytes : List Byte) (bit left : Nat) : Byte :=
  bytes.getD ((10 * bit * bytes.length - left) / (10 * bit)) 0

/-- The bytes of the enabled positions taken from `v`, the others from `old` (R10). -/
def mergeWord (old v : Word) (enables : BitVec 4) : Word :=
  let pick (i : Nat) : Byte := if enables.getLsbD i then byteOf v i else byteOf old i
  wordOf (pick 0) (pick 1) (pick 2) (pick 3)

/-- Word `i` of a list, 0 when there is none. -/
def wordAt (ws : List Word) (i : Nat) : Word := ws.getD i 0

/-- ceil(x / y), for y above 0 (00, numbers). -/
def ceilDiv (x y : Nat) : Nat := (x + y - 1) / y

/-! ### The CRC-16 -/

/-- One shift of the CRC register: when the bit shifted out is 1, the register takes 0x1021 by exclusive or (R52). -/
def crcShift (c : Nat) : Nat := Nat.xor (2 * c) (0x11021 * (c / 32768))

/-- `k` shifts. The match hands on the value itself, so that the kernel evaluates one shift at a time. -/
def crcShifts : Nat → Nat → Nat
  | 0, c => c
  | k + 1, c =>
    match crcShift c with
    | 0 => 0
    | m + 1 => crcShifts k (m + 1)

/-- The bytes taken into the register: each is exclusive-ored into its high half, then eight shifts (R52). -/
def crcFrom : Nat → List Byte → Nat
  | c, [] => c
  | c, b :: rest =>
    match crcShifts 8 (Nat.xor c (256 * b.toNat)) with
    | 0 => crcFrom 0 rest
    | m + 1 => crcFrom (m + 1) rest

/-- The part's CRC-16: polynomial 0x1021, register from 0xFFFF, most significant bit first, neither reflected nor
inverted (R52). -/
def crc16 (bytes : List Byte) : Nat := crcFrom 0xFFFF bytes

end Sys2Proof.Machine
end

