-- ==== Sys2Proof/Machine/State.lean ====
section
/-! DEFINITION. The state of the part, as plain data: one structure for each unit of the manual, the store and its
arbiter beside them, and the state after device reset. -/

namespace Sys2Proof.Machine

/-! ### Names the manual gives -/

/-- The seven windows, in decode order (R4). -/
inductive Window where
  | setup | journal | totals | screens | broadcast | print | report
  deriving DecidableEq, Repr

/-- The unit state (R20). -/
inductive UnitState where
  | loading | rebuilding | ready
  deriving DecidableEq, Repr

/-- The start-up outcome (R20, R27). -/
inductive StartOutcome where
  | loaded | defaultedSettings | defaultedDay | defaultedRead
  deriving DecidableEq, Repr

/-- The day state (R167). -/
inductive DayState where
  | noDay | dayOpen | closed | sending | sent
  deriving DecidableEq, Repr

/-- The state of a drawer record (R76). -/
inductive DrawerState where
  | unused | drawerOpen | difference | balanced
  deriving DecidableEq, Repr

/-- The twelve record kinds (R58). -/
inductive RecordKind where
  | dayOpen | openDrawer | cashIn | cashOut | noncashIn | noncashOut | transfer | void | declare
  | acceptDifference | reopen | note
  deriving DecidableEq, Repr

/-- The print state of a stamp (R70). -/
inductive PrintState where
  | notBook | notPrinted | printed | doubtful
  deriving DecidableEq, Repr

/-- The status of a stamp (R70). -/
inductive StampStatus where
  | free | posted | voided
  deriving DecidableEq, Repr

/-- Send failure reasons (Table 10-4, Table 12-13). -/
inductive FailReason where
  | none | retries | held | link | aborted | rejected | noVerdict | store | reset
  deriving DecidableEq, Repr

/-- The reasons of Table 12-11. -/
inductive Reason where
  | notReady | dayState | badKind | wrongSlot | journalFull | amountRange | unusedDenom | countsNotAllowed
  | denomMismatch | badTarget | drawerState | badDate | dateNotAfter | voidRef | printPending | shortDenom
  | countLimit | storeError | badRequest | badOperand | noPrinter | lineRange | notInDay | notBook | voided
  | alreadyPrinted | duplicate | drawerNotBalanced | reserveNotBalanced | printerState | causeActive | noTerminal
  | blanked | cleared | reset
  deriving DecidableEq, Repr

/-- The report kinds of Table 2-6 and Table 12-16. -/
inductive ReportKind where
  | reset | setupDefaulted | rebuildDone | dayDamaged | journalNearFull | excessSet | excessCleared | difference
  | openingDiff | terminalAttached | terminalLost | keysDropped | drawerOpenLong | drawerUnattended | bookInserted
  | bookRemoved | turnPage | printDone | printAborted | printDoubtful | printerHalted | printerRestarted | linkUp
  | linkDown | sendDone | sendFailed | storeError
  deriving DecidableEq, Repr

/-- A report on its way to the ring (R33). -/
structure Report where
  kind : ReportKind
  index : Nat
  detail : Nat
  count : Nat
  deriving DecidableEq, Repr

/-! ### Accesses to the store -/

/-- What an access does at the store port. A read takes `len` words `stride` bytes apart (4 but for R150, log 14). -/
inductive StoreOp where
  | read (addr stride len : Nat)
  | write (addr : Nat) (words : List WriteWord)
  deriving DecidableEq, Repr

/-- What an own access asks for. The two CRC forms, a settings write-back, the key write index word and a mirror's
place take their value when they are granted (R24, R25, R77, R128, log 51); `staleRunning` is a half of the running part
that is made only while its stale mark is set (R79). -/
inductive OwnOp where
  | read (addr stride len : Nat)
  | write (addr : Nat) (words : List Word)
  | settingsCrc
  | dayCrc
  | settingWords (first len : Nat)
  | totals (offset : Nat) (words : List Word)
  | staleRunning (half : Nat)
  | keyWord (p : Fin 12) (addr : Nat)
  deriving DecidableEq, Repr

/-- What follows when the last of CU's writes of a change has been answered (R79, R169, R175, R97). `defaults` is the anchor
part of a DEFAULTED start-up: nothing follows, but its CRC is written in any case (R28). -/
inductive After where
  | nothing | posting | request | clearStore | clearSlots | rebuild | defaults
  deriving DecidableEq, Repr

/-- The own accesses of a posting (Table 4-6, R59, R63, R67, R71). -/
inductive PostStep where
  | readA | readB | origA | origB | clear (k : Nat) | inPosting | free | recA | recB | stamp | voided
  | word0 | outcome | refused
  deriving DecidableEq, Repr

/-- Who asked JU for a record read (R74). -/
inductive ReadFor where
  | submission
  | strike (n : Fin 4) (epoch : Nat)
  deriving DecidableEq, Repr

/-- Which access of which operation an own access is: what the unit does with its answer. -/
inductive Tag where
  /-- A store ERROR is reported with the page number; nothing else follows. -/
  | plain
  /-- A store ERROR is not reported (R34). -/
  | silent
  /-- A control word of a screen, but for the key write index: `plain`, and not made when the screen becomes absent (R5). -/
  | screenWord (p : Fin 12)
  /-- A word of the SETUP page whose ERROR is reported with its offset (R20). -/
  | statusWord (offset : Nat)
  /-- The unit state word that ends LOADING: the host access held is released when it has been answered (R29). -/
  | loadingState
  | loadIdent | loadSettings | loadDay | loadIndex
  | operands (code : Nat)
  | result (okay : Bool)
  | repEntry (epoch : Nat) | repIndex (epoch : Nat)
  | dayCrc (k : After)
  | post (st : PostStep)
  | slotRead (k : Nat) (base : Nat) | slotLost (k : Nat) (base : Nat)
  | recordA (who : ReadFor) (seq : Nat) | recordB (who : ReadFor) (seq : Nat) (w : List Word)
  | originalA (who : ReadFor) (rec : List Word) (ref : Nat) | originalB (who : ReadFor) (rec : List Word) (ref : Nat) (w : List Word)
  | stampWord0 | stampRead (held : Bool) | stampWrite
  | slotEmpty (last : Bool)
  | mirror (i : Fin 13) (burst : Nat) (k : After)
  | running (burst : Nat) (k : After)
  | anchor (burst : Nat) (k : After)
  | walkA | walkB (w : List Word) | walkOrigA (w : List Word) | walkOrigB (w o : List Word) | walkRepair (ref : Nat)
  | rebSlot (k : Nat) | rebFind (k : Nat) (s : Nat) | rebWord0 (k : Nat) (s : Nat) | rebOutcome (k : Nat)
  | scuStatus (p : Fin 12) (burst : Nat) | scuCount | scuMode
  | fanRead (burst : Nat) | fanWrite (p : Fin 12) (burst : Nat)
  | rowRead (p : Fin 12) (burst : Nat) (epoch : Nat) (w : List Word)
  | keyEntry (p : Fin 12) (epoch : Nat) | keyIndex (p : Fin 12) (epoch : Nat)
  | keyInit (p : Fin 12) (epoch : Nat)
  | subRead | subQueued | subRefused
  | textRead (n : Fin 4) (burst : Nat) (epoch : Nat) (w : List Word)
  | slotScan (n : Fin 4)
  | batchRead (burst : Nat) (epoch : Nat) (w : List Word)
  deriving DecidableEq, Repr

/-- One own access; `fin` marks the access whose answer ends the request in service (R31). -/
structure OwnReq where
  op : OwnOp
  tag : Tag
  fin : Bool
  deriving DecidableEq, Repr

/-- Who uses the store port (R15). -/
inductive PortUse where
  | idle
  | host (op : StoreOp)
  | own (u : Fin 9) (op : StoreOp) (tag : Tag) (fin : Bool)
  deriving DecidableEq, Repr

/-- The store-port arbiter (R15, R16, R18). -/
structure Arbiter where
  rotation : Fin 9
  streak : Nat
  port : PortUse
  deriving DecidableEq, Repr

/-! ### Access Path -/

/-- Base and limit page of a placeable window (R2). -/
structure Placement where
  base : Nat
  limit : Nat
  deriving DecidableEq, Repr

/-- The operation a hold runs (R12). -/
inductive HoldOp where
  | commit (slot : Fin 13)
  | submit (n : Fin 4) (slot : Fin 8)
  | request (code : Word)
  deriving DecidableEq, Repr

/-- The next store access of the host access in progress; `subst` says that the owner substituted the word (R9). -/
inductive HostNext where
  | readStore (len : Nat)
  | burst
  | merge
  | word (v : Word) (enables : BitVec 4) (subst : Bool)
  deriving DecidableEq, Repr

/-- Where the host access in progress stands. -/
inductive HostPhase where
  | heldLoading
  | waiting (n : HostNext)
  | heldOwner (h : HoldOp)
  deriving DecidableEq, Repr

/-- The host access in progress (section 1 of 01, R4, R15): `rest` are the words from the current one on, `base` the
first byte of the window decoded at arrival, `granted` says that the host's grant is running. -/
structure HostProg where
  access : HostAccess
  addr : Nat
  rest : List WriteWord
  window : Option Window
  base : Nat
  granted : Bool
  phase : HostPhase
  deriving DecidableEq, Repr

/-- The answer on the controller port (R6, R11). -/
structure HostAnswer where
  okay : Bool
  data : List Word
  deriving DecidableEq, Repr

/-- The Access Path (R1, R2, R3, R18). Windows JOURNAL to REPORT are `placed` 0 to 5; `held` says that host accesses are
held, until SU's last word of LOADING has been answered (R13, R29). -/
structure ApState where
  setupPage : Nat
  placed : Vector Placement 6
  journalUsable : Bool
  held : Bool
  host : Option HostProg
  answer : Option HostAnswer
  deriving DecidableEq, Repr

/-! ### Setup Unit -/

/-- What the loading reads have returned (R26, R27). -/
structure LoadProg where
  settings : List Word
  day : List Word
  readIndex : Option Word
  failed : Bool
  left : Nat
  deriving DecidableEq, Repr

/-- The Setup Unit (02, introduction and Table 2-3). -/
structure SuState where
  image : Vector Word 255
  unitState : UnitState
  outcome : Option StartOutcome
  load : LoadProg
  request : Option Nat
  reports : List Report
  writing : Option Report
  epoch : Nat
  writeIndex : Nat
  readIndex : Nat
  overflow : Bool
  ms : Nat
  clk : Nat
  deriving DecidableEq, Repr

/-! ### Journal Unit -/

/-- A journal record: the fields of words 0 to 10 (Table 12-6) and, for a VOID, the kind of its original (R72). -/
structure JRecord where
  seq : Nat
  code : Nat
  position : Nat
  target : Nat
  book : Bool
  amount : Nat
  reference : Nat
  account : Nat
  counts : Vector Nat 10
  original : Option RecordKind
  deriving DecidableEq, Repr

/-- Where a posting stands: waiting for a slot resolution (R57), making its accesses, handed to CU and waiting for
APPLY_RECORD, or waiting for CU's writes (R64, R79). -/
inductive PostPhase where
  | waiting | running | handed | applying
  deriving DecidableEq, Repr

/-- The posting in progress (04). -/
structure Posting where
  slot : Fin 13
  phase : PostPhase
  words : List Word
  orig : List Word
  record : JRecord
  deriving DecidableEq, Repr

/-- A print-state stamp asked for by PRU (R74). -/
structure StampReq where
  printer : Fin 4
  seq : Nat
  state : PrintState
  deriving DecidableEq, Repr

/-- The Journal Unit (04, R57). -/
structure JuState where
  nextSeq : Nat
  posting : Option Posting
  nearFull : Bool
  unstamped : List Nat
  overflowMark : Bool
  stamps : List StampReq
  stamping : Bool
  resolving : Nat
  deriving DecidableEq, Repr

/-! ### Cash Unit -/

/-- The declared part of a drawer record (R76). -/
structure Declared where
  counts : Vector Nat 10
  difference : Int
  deriving DecidableEq, Repr

/-- A sum with its SATURATED flag (R44). -/
structure Sum where
  value : Nat
  saturated : Bool
  deriving DecidableEq, Repr

/-- A drawer record (Table 5-1). -/
structure Drawer where
  state : DrawerState
  counts : Vector Nat 10
  declared : Option Declared
  cashIn : Sum
  cashOut : Sum
  noncashIn : Sum
  noncashOut : Sum
  transferIn : Sum
  transferOut : Sum
  recordCount : Nat
  excess : Bool
  lastSeq : Nat
  deriving DecidableEq, Repr

/-- The day record (Table 5-4). -/
structure DayRecord where
  state : DayState
  date : Nat
  previousDate : Nat
  first : Nat
  openCounts : Vector Nat 10
  closingCounts : Vector Nat 10
  damaged : Bool
  openingDiff : Bool
  batch : Nat
  failure : FailReason
  next : Nat
  recordCount : Nat
  hash : Nat
  cashIn : Sum
  cashOut : Sum
  noncashIn : Sum
  noncashOut : Sum
  sumsSaturated : Bool
  differenceTotal : Int
  deriving DecidableEq, Repr

/-- Where the rebuild walk stands (R92, R96). -/
inductive WalkPhase where
  | ready | reading | ended | finishing
  deriving DecidableEq, Repr

/-- The walk position (R91): the sequence number expected next, the count walked, and whether the walk stopped
DAMAGED or the anchor part has changed. -/
structure Walk where
  expected : Nat
  count : Nat
  phase : WalkPhase
  stopped : Bool
  anchorChanged : Bool
  deriving DecidableEq, Repr

/-- The Cash Unit (05). `bad`, `runningBad` and `anchorBad` say that a burst of the mirror, running or anchor
part being written failed. -/
structure CuState where
  drawers : Vector Drawer 13
  day : DayRecord
  stale : Vector Bool 13
  bad : Vector Bool 13
  runningStale : Bool
  runningBad : Bool
  anchorBad : Bool
  walk : Option Walk
  damage : List Nat
  deriving DecidableEq, Repr

/-! ### Screen Unit -/

/-- The modes (R104). -/
inductive ModeKind where
  | normal | partialRows | blanked
  deriving DecidableEq, Repr

/-- A mode with first and last (R104). -/
structure Mode where
  kind : ModeKind
  first : Nat
  last : Nat
  deriving DecidableEq, Repr

/-- The row in flight (R101). -/
structure InFlight where
  row : Fin 25
  begun : Bool
  deriving DecidableEq, Repr

/-- SCU's record of one screen (06). -/
structure Screen where
  dirty : Vector Bool 25
  sweep : Vector Bool 25
  sweeping : Bool
  flight : Option InFlight
  sweepCount : Nat
  mode : Mode
  askedPlain : Bool
  plain : Bool
  autoBlanked : Bool
  remembered : Option Mode
  modePending : Bool
  idleMs : Nat
  idleExpired : Bool
  rendering : Option (List Word)
  flash : Bool
  attention : Bool
  flashMs : Nat
  bell : Bool
  deriving DecidableEq, Repr

/-- An entry of SCU's work list (R113); `fin` marks the entry whose write ends the request in service. -/
inductive ScuWork where
  | status (p : Fin 12)
  | count (p : Fin 12)
  | mode (p : Fin 12) (fin : Bool)
  | fanRead
  | fanWrite (p : Fin 12)
  deriving DecidableEq, Repr

/-- The phase of the fan-out (06, introduction). -/
inductive FanPhase where
  | idle | reading | writing
  deriving DecidableEq, Repr

/-- The fan-out (R115). -/
structure FanOut where
  phase : FanPhase
  start : Bool
  copy : List Word
  row : Nat
  screens : List (Fin 12)
  failed : Bool
  deriving DecidableEq, Repr

/-- The Screen Unit (06). -/
structure ScuState where
  screens : Vector Screen 12
  work : List ScuWork
  serving : Option ScuWork
  fan : FanOut
  ackedFrames : Nat
  totalFrames : Nat
  deriving DecidableEq, Repr

/-! ### Screen line controllers -/

/-- Terminal states (Table 7-4). -/
inductive TerminalState where
  | detached | attaching | attached | lost
  deriving DecidableEq, Repr

/-- The drawer sensor (R130). -/
inductive Sensor where
  | shut | sensorOpen | unknown
  deriving DecidableEq, Repr

/-- The frames the part sends on a screen line (Table 7-1). -/
inductive LineFrameKind where
  | row (r : Fin 25) | mode | poll | identReq | bell
  deriving DecidableEq, Repr

/-- A frame as built, with the times it has been sent (R121). -/
structure LineFrame where
  kind : LineFrameKind
  bytes : List Byte
  sends : Nat
  deriving DecidableEq, Repr

/-- The use of a line (R119, R120, R123): `left` is the CLK periods the frame has left, `reply` the reply time fixed
when the exchange begins, then the milliseconds left of it. -/
inductive LineUse where
  | free
  | reading (d : Fin 4) (row : Fin 25)
  | gap (d : Fin 4) (frame : LineFrame)
  | sending (d : Fin 4) (frame : LineFrame) (left reply : Nat)
  | awaiting (d : Fin 4) (frame : LineFrame) (reply : Nat)
  /-- A restart has stopped the frame: the byte in progress, its bit time and the CLK periods it has left (R133). -/
  | stopping (byte : Byte) (bit left : Nat)
  deriving DecidableEq, Repr

/-- A key waiting to be placed, with its stamp (R127, R128). -/
structure KeyJob where
  drop : Fin 4
  key : BitVec 16
  stamp : Nat
  deriving DecidableEq, Repr

/-- A line of a screen line controller (07). `quiet` counts CLK periods since the last byte seen on the line. -/
structure Line where
  pointer : Fin 4
  use : LineUse
  rate : Nat
  gap : Nat
  quiet : Nat
  keys : List KeyJob
  placing : Bool
  initLeft : Nat
  epoch : Nat
  deriving DecidableEq, Repr

/-- A drop of a screen line controller (07). Times are in milliseconds. -/
structure Drop where
  terminal : TerminalState
  colour : Bool
  keyboard : Byte
  revision : Byte
  misses : Nat
  resend : Option LineFrame
  sinceExchange : Nat
  attachIn : Nat
  writeIndex : Nat
  readIndex : Nat
  overflow : Bool
  keyEpoch : Nat
  sensor : Sensor
  openTimer : Option Nat
  attention : Bool
  pulse : Option Nat
  deriving DecidableEq, Repr

/-- The three screen line controllers and the twelve drops, drop d of line l being position 4l + d (R118). -/
structure SlcState where
  lines : Vector Line 3
  drops : Vector Drop 12
  deriving DecidableEq, Repr

/-! ### Print Unit and Feed Drives -/

/-- Printer states (Table 8-4). -/
inductive PrinterState where
  | empty | aligning | ready | feeding | striking | ejecting | halted
  deriving DecidableEq, Repr

/-- Request statuses that PRU holds (Table 8-2). -/
inductive SlotStatus where
  | idle | queued | printing | done | refused (r : Nat) | cancelled (r : Nat) | aborted (r : Nat) | doubtful
  deriving DecidableEq, Repr

/-- A queue entry: the slot and what was read at submission (R138). -/
structure PrintEntry where
  slot : Fin 8
  seq : Nat
  line : Nat
  page : Nat
  ejectAfter : Bool
  reprint : Bool
  deriving DecidableEq, Repr

/-- The request in service (08). `stamp` is the print state asked of JU and not yet answered. -/
structure Service where
  entry : PrintEntry
  target : Nat
  begun : Bool
  doneTaken : Bool
  stamp : Option PrintState
  deriving DecidableEq, Repr

/-- The head exchange (R144): the message with the CLK periods it has left, or the milliseconds left to answer. -/
inductive HeadUse where
  | idle
  | sending (message : List Byte) (left : Nat)
  | awaiting (left : Nat)
  /-- A message was given up: the character in progress and the CLK periods it has left (R147). -/
  | stopping (char : Byte) (left : Nat)
  deriving DecidableEq, Repr

/-- One printer (08). -/
structure Printer where
  state : PrinterState
  queue : List PrintEntry
  service : Option Service
  bookPage : Option Nat
  pageTurn : Option Nat
  head : HeadUse
  composing : Bool
  text : List Word
  epoch : Nat
  slots : Vector SlotStatus 8
  clearing : Bool
  deriving DecidableEq, Repr

/-- A submission in progress (R137). -/
structure Submission where
  printer : Fin 4
  slot : Fin 8
  waiting : Bool
  entry : PrintEntry
  deriving DecidableEq, Repr

/-- The Print Unit (08): `scanning` slot-reading bursts are out (R150), `startUp` says that the alignments of the end
of LOADING follow them. -/
structure PruState where
  printers : Vector Printer 4
  submission : Option Submission
  scanning : Nat
  startUp : Bool
  deriving DecidableEq, Repr

/-- Bridge modes (Table 9-3). -/
inductive BridgeMode where
  | forward | reverse | brake | off | safe
  deriving DecidableEq, Repr

/-- A bridge output: active, the steps left before it turns active, the steps since it turned inactive (R155). -/
structure Output where
  active : Bool
  wait : Option Nat
  since : Nat
  deriving DecidableEq, Repr

/-- The shutdown latch (R161). -/
structure Latch where
  cover : Bool
  ovc : Bool
  jam : Bool
  head : Bool
  bookPulled : Bool
  forced : Bool
  deriving DecidableEq, Repr

/-- A Feed Drive (09). -/
structure Feed where
  mode : BridgeMode
  aHi : Output
  aLo : Output
  bHi : Output
  bLo : Output
  duty : Nat
  step : Nat
  stepClk : Nat
  turnedOff : Bool
  prescale : Nat
  position : Int
  forwardCount : Bool
  travel : Nat
  stallMs : Nat
  latch : Latch
  deriving DecidableEq, Repr

/-! ### Head-Office Link Controller -/

/-- Link states (Table 11-1). -/
inductive LinkState where
  | down | calling | up
  deriving DecidableEq, Repr

/-- Causes of a link loss (Table 12-17). -/
inductive LinkCause where
  | carrier | clock | errors | silence | reset
  deriving DecidableEq, Repr

/-- Send states (11). -/
inductive SendState where
  | active | held | suspended | awaitVerdict
  deriving DecidableEq, Repr

/-- An entry of the outstanding list (11). -/
structure Outstanding where
  index : Nat
  link : Nat
  sends : Nat
  copy : List Byte
  deriving DecidableEq, Repr

/-- The send state of the batch (11). Timers are milliseconds left. -/
structure Send where
  state : SendState
  total : Nat
  next : Nat
  out : List Outstanding
  resend : Option Nat
  recent : List Nat
  acked : Nat
  ackTimer : Option Nat
  holdTimer : Option Nat
  resumeTimer : Option Nat
  verdictTimer : Option Nat
  deriving DecidableEq, Repr

/-- The frame on the head-office transmitter (R182). For a data frame: its index, whether the ack timer starts at its
last byte (R186), and the number of the send it belongs to. -/
inductive HoTx where
  | helloAck | hello | keepalive
  | data (index : Nat) (startAck : Bool) (epoch : Nat)
  deriving DecidableEq, Repr

/-- A RECORDS frame being built (R184): the frame index, the sequence numbers still to read, the words read. -/
structure Build where
  index : Nat
  seqs : List Nat
  words : List Word
  deriving DecidableEq, Repr

/-- The Head-Office Link Controller (11). -/
structure HlcState where
  link : LinkState
  errors : Nat
  helloTimer : Option Nat
  keepaliveTimer : Option Nat
  silenceTimer : Option Nat
  helloDue : Bool
  keepaliveDue : Bool
  helloAckOwed : Bool
  tx : Option HoTx
  txBytes : List Byte
  send : Option Send
  build : Option Build
  epoch : Nat
  deriving DecidableEq, Repr

/-! ### The whole -/

/-- Input pins held as levels (Table 0-1). -/
structure Pins where
  setupSel : Fin 16
  book : Vector Bool 4
  cover : Vector Bool 4
  ovc : Vector Bool 4
  carrier : Bool
  receiveClock : Bool
  deriving DecidableEq, Repr

/-- Everything inside the part but the arbiter. The units act on this alone: only the arbiter and the store answer
touch the store. `free` is the model's own counter of free values (log 10). -/
structure Chip where
  ap : ApState
  own : Vector (List OwnReq) 9
  su : SuState
  ju : JuState
  cu : CuState
  scu : ScuState
  slc : SlcState
  pru : PruState
  fd : Vector Feed 4
  hlc : HlcState
  pins : Pins
  free : Nat
  deriving DecidableEq, Repr

/-- The state of the machine: the part, its store-port arbiter, the store, whether the store answers at once
(log 5), and the commands that wait. -/
structure State where
  chip : Chip
  arb : Arbiter
  mem : List Host.Cell
  prompt : Bool
  pending : List Instr
  deriving DecidableEq, Repr

/-- The part raises no fault: every command has an effect the manual gives (INVENTORY.md, Faults). -/
inductive Fault where
  deriving DecidableEq, Repr

/-- Why a step has no meaning. -/
inductive Refusal where
  /-- Raised by `exec` for a command that has no meaning yet; safe: nothing happens. No arm raises it. -/
  | notModelled (mnemonic : String)
  deriving DecidableEq, Repr

/-! ### Reset values -/

/-- A sum of 0 (Table 5-10). -/
def Sum.zero : Sum := ⟨0, false⟩

/-- Ten zero counts. -/
def zeroCounts : Vector Nat 10 := Vector.replicate 10 0

/-- A drawer record after device reset (Table 5-10). -/
def Drawer.reset : Drawer :=
  { state := .unused, counts := zeroCounts, declared := none, cashIn := .zero, cashOut := .zero, noncashIn := .zero,
    noncashOut := .zero, transferIn := .zero, transferOut := .zero, recordCount := 0, excess := false, lastSeq := 0 }

/-- The day record while none is held (log 6). -/
def DayRecord.reset : DayRecord :=
  { state := .noDay, date := 0, previousDate := 0, first := 0, openCounts := zeroCounts, closingCounts := zeroCounts,
    damaged := false, openingDiff := false, batch := 0, failure := .none, next := 0, recordCount := 0, hash := 0,
    cashIn := .zero, cashOut := .zero, noncashIn := .zero, noncashOut := .zero, sumsSaturated := false,
    differenceTotal := 0 }

/-- The Cash Unit after device reset (Table 5-10). -/
def CuState.reset : CuState :=
  { drawers := Vector.replicate 13 .reset, day := .reset, stale := Vector.replicate 13 false,
    bad := Vector.replicate 13 false, runningStale := false, runningBad := false, anchorBad := false, walk := none, damage := [] }

/-- The Journal Unit after device reset (R57). -/
def JuState.reset : JuState :=
  { nextSeq := 0, posting := none, nearFull := false, unstamped := [], overflowMark := false, stamps := [],
    stamping := false, resolving := 0 }

/-- Mode NORMAL, rows 0 to 23 (Table 6-7). -/
def Mode.normal : Mode := ⟨.normal, 0, 23⟩

/-- All 25 rows. -/
def allRows : Vector Bool 25 := Vector.replicate 25 true

/-- No row. -/
def noRows : Vector Bool 25 := Vector.replicate 25 false

/-- A screen after device reset (Table 6-7). -/
def Screen.reset : Screen :=
  { dirty := allRows, sweep := noRows, sweeping := false, flight := none, sweepCount := 0, mode := .normal,
    askedPlain := false, plain := false, autoBlanked := false, remembered := none, modePending := false, idleMs := 0,
    idleExpired := false, rendering := none, flash := false, attention := false, flashMs := 0, bell := false }

/-- The Screen Unit after device reset (Table 6-7); the frame counts last told and the fan-out's copy, set and row are the
model's choice (log 6). -/
def ScuState.reset : ScuState :=
  { screens := Vector.replicate 12 .reset, work := [], serving := none,
    fan := { phase := .idle, start := false, copy := [], row := 0, screens := [], failed := false },
    ackedFrames := 0, totalFrames := 0 }

/-- A screen line after device reset (Table 7-5); rate and gap are the defaults until LOADING ends, and the time since the
last byte counts from 0 (log 6). -/
def Line.reset : Line :=
  { pointer := 3, use := .free, rate := 38400, gap := 4, quiet := 0, keys := [], placing := false, initLeft := 0,
    epoch := 0 }

/-- A drop after device reset (Table 7-5); the time since the last exchange is the model's choice (log 6). -/
def Drop.reset : Drop :=
  { terminal := .detached, colour := false, keyboard := 0, revision := 0, misses := 0, resend := none,
    sinceExchange := 0, attachIn := 0, writeIndex := 0, readIndex := 0, overflow := false, keyEpoch := 0,
    sensor := .unknown, openTimer := none, attention := false, pulse := none }

/-- The line controllers after device reset (R134). -/
def SlcState.reset : SlcState := { lines := Vector.replicate 3 .reset, drops := Vector.replicate 12 .reset }

/-- A printer after device reset (Table 8-7). -/
def Printer.reset : Printer :=
  { state := .empty, queue := [], service := none, bookPage := none, pageTurn := none, head := .idle,
    composing := false, text := [], epoch := 0, slots := Vector.replicate 8 .idle, clearing := false }

/-- The Print Unit after device reset (R150). -/
def PruState.reset : PruState := { printers := Vector.replicate 4 .reset, submission := none, scanning := 0, startUp := false }

/-- An inactive output. -/
def Output.reset : Output := ⟨false, none, 0⟩

/-- The empty latch. -/
def Latch.empty : Latch := ⟨false, false, false, false, false, false⟩

/-- A Feed Drive after device reset (Table 9-8, R158). -/
def Feed.reset : Feed :=
  { mode := .off, aHi := .reset, aLo := .reset, bHi := .reset, bLo := .reset, duty := 0, step := 0, stepClk := 0,
    turnedOff := false, prescale := 0, position := 0, forwardCount := true, travel := 0, stallMs := 0, latch := .empty }

/-- The Head-Office Link Controller after device reset (R194). -/
def HlcState.reset : HlcState :=
  { link := .down, errors := 0, helloTimer := none, keepaliveTimer := none, silenceTimer := none, helloDue := false,
    keepaliveDue := false, helloAckOwed := false, tx := none, txBytes := [], send := none, build := none, epoch := 0 }

/-- The default of each settings word, from 0x200 on (Table 2-2, Table 12-4, R28). -/
def defaultSettings : List Word :=
  -- window placements, base then limit
  [0xFFFFF, 0, 0xFFFFF, 0, 0xFFFFF, 0, 0xFFFFF, 0, 0xFFFFF, 0, 0xFFFFF, 0]
  -- JNL_CAPACITY, DECIMALS, SEPARATORS, BRANCH_NO
  ++ [16384, 2, 0, 0]
  -- FACE_0 to FACE_9, 0x268-0x27F
  ++ List.replicate 16 0
  -- CEILING_0 to CEILING_11
  ++ List.replicate 24 0
  -- IDLE_BLANK, RELEASE_TIME, OPEN_LONG, BCST_SET, BCST_ROW, POLL_INTERVAL, 0x2F8, 0x2FC
  ++ [300, 250, 60, 0xFFF, 0, 100, 0, 0]
  -- SCAN_DIR, CAP_OVERRIDE, COLOUR, REMOTE_RELEASE
  ++ List.replicate 24 0 ++ List.replicate 12 1 ++ List.replicate 12 0
  -- LINE_RATE, LINE_GAP, REPLY_TIME of three lines, 0x3F0-0x3FF
  ++ [38400, 4, 30, 0, 38400, 4, 30, 0, 38400, 4, 30, 0, 0, 0, 0, 0]
  -- four printer blocks of 24 words
  ++ printerDefaults ++ printerDefaults ++ printerDefaults ++ printerDefaults
  -- LINK_WINDOW to VERDICT_TIME, 0x5A0-0x5FB
  ++ [4, 5, 5, 3, 2, 30, 10, 120] ++ List.replicate 23 0
where
  /-- The defaults of a printer block (Table 2-2, section 12.1). -/
  printerDefaults : List Word :=
    [0, 24, 40, 120, 44, 4, 1, 239, 720, 300, 8, 12, 20, 200, 2000, 1500, 2000, 0, 0, 0, 0, 0, 0, 0]

/-- The settings image while no settings are loaded: the defaults (log 6). -/
def defaultImage : Vector Word 255 := vofList 255 0 defaultSettings

/-- The Setup Unit after device reset (R26, Table 2-3): 40 loading accesses are to be made. The image, the outcome and the
indices have no value in the table: the model's choice (log 6). -/
def SuState.reset : SuState :=
  { image := defaultImage, unitState := .loading, outcome := none,
    load := { settings := [], day := [], readIndex := none, failed := false, left := 40 },
    request := none, reports := [], writing := none, epoch := 0, writeIndex := 0, readIndex := 0, overflow := false,
    ms := 0, clk := 0 }

/-- The window table after device reset (R2, R18). -/
def disabledPlacement : Placement := ⟨0xFFFFF, 0⟩

/-- The Access Path after device reset with the straps at `sel` (R1, R18). -/
def ApState.reset (sel : Fin 16) : ApState :=
  { setupPage := sel.val * 4096, placed := Vector.replicate 6 disabledPlacement, journalUsable := false, held := true,
    host := none, answer := none }

/-- SU's own accesses of the loading (R26): the identity words, 32 bursts of the settings area, 6 of the day record,
and the report read index, for the SETUP page that starts at byte `base`. -/
def loadingAccesses (base : Nat) : List OwnReq :=
  [⟨.write base [Config.identityCode, Config.revision, 0], .loadIdent, false⟩]
  ++ (List.range 32).map (fun k => ⟨.read (base + 0x200 + 32 * k) 4 8, .loadSettings, false⟩)
  ++ (List.range 6).map (fun k => ⟨.read (base + 0x040 + 32 * k) 4 8, .loadDay, false⟩)
  ++ [⟨.read (base + 0x148) 4 1, .loadIndex, false⟩]

/-- The input pins at State.reset: everything absent or inactive (DESIGN CHOICE, log 2). -/
def Pins.reset : Pins :=
  { setupSel := 0, book := Vector.replicate 4 false, cover := Vector.replicate 4 false, ovc := Vector.replicate 4 false,
    carrier := false, receiveClock := false }

/-- The part when device reset ends, the pins standing as `pins` (R26). -/
def Chip.afterReset (pins : Pins) (free : Nat) : Chip :=
  { ap := .reset pins.setupSel
    own := vput (Vector.replicate 9 []) 8 (loadingAccesses (pins.setupSel.val * 4096 * 4096))
    su := .reset, ju := .reset, cu := .reset, scu := .reset, slc := .reset, pru := .reset
    fd := Vector.replicate 4 .reset, hlc := .reset, pins := pins, free := free }

/-- The arbiter after device reset (R18): rotation at SU, streak 0, port free. -/
def Arbiter.reset : Arbiter := { rotation := 8, streak := 0, port := .idle }

/-- The machine right after device reset. -/
def State.reset : State :=
  { chip := .afterReset .reset 0, arb := .reset, mem := [], prompt := true, pending := [] }

end Sys2Proof.Machine
end

