-- ==== Sys2Proof/Machine/Amounts.lean ====
section
/-! DEFINITION. The money arithmetic, the Amount Formatter and the arithmetic of sequence numbers (03, R69). -/

namespace Sys2Proof.Machine

/-! ### Counts and positions -/

/-- Count of denomination `d`. -/
def countAt (cs : Vector Nat 10) (d : Fin 10) : Nat := cs[d.val]

/-- Ten counts, denomination by denomination. -/
def countsBy (f : Fin 10 → Nat) : Vector Nat 10 := vofList 10 0 (denominations.map f)

/-- The cash position of counts: the sum of count times face (R38). -/
def cashPosition (faces cs : Vector Nat 10) : Nat :=
  denominations.foldl (fun acc d => acc + countAt cs d * countAt faces d) 0

/-- Counts with the record's counts added (R41). -/
def addCounts (a b : Vector Nat 10) : Vector Nat 10 := countsBy (fun d => countAt a d + countAt b d)

/-- Counts with the record's counts removed (R41). -/
def subCounts (a b : Vector Nat 10) : Vector Nat 10 := countsBy (fun d => countAt a d - countAt b d)

/-- The lowest denomination at which a test holds. -/
def lowestDenom (test : Fin 10 → Bool) : Option Nat := (denominations.find? test).map (·.val)

/-- Stage 2: the lowest denomination that has a count and face 0 (R39). -/
def unusedDenom (faces cs : Vector Nat 10) : Option Nat :=
  lowestDenom (fun d => countAt cs d != 0 && countAt faces d == 0)

/-- Stage 5: the lowest denomination that would fall below 0 (R41). -/
def shortDenom (have_ remove : Vector Nat 10) : Option Nat :=
  lowestDenom (fun d => countAt have_ d < countAt remove d)

/-- Stage 6: the lowest denomination that would rise above 65,535 (R41). -/
def countLimit (have_ add : Vector Nat 10) : Option Nat :=
  lowestDenom (fun d => 65535 < countAt have_ d + countAt add d)

/-- Whether any count is above 0. -/
def anyCount (cs : Vector Nat 10) : Bool := (lowestDenom (fun d => countAt cs d != 0)).isSome

/-- Whether two sets of counts are equal denomination by denomination. -/
def sameCounts (a b : Vector Nat 10) : Bool := denominations.all (fun d => countAt a d == countAt b d)

/-! ### Sums -/

/-- A sum added to by saturation (R44). -/
def Sum.add (s : Sum) (amount : Nat) : Sum :=
  if Config.amountCap ≤ s.value + amount then ⟨Config.amountCap, true⟩ else ⟨s.value + amount, s.saturated⟩

/-- A sum lowered by a VOID: a saturated sum stays (R45). -/
def Sum.lower (s : Sum) (amount : Nat) : Sum := if s.saturated then s else ⟨s.value - amount, false⟩

/-- The hash total with an amount added, modulo 10^12 (R46). -/
def hashAdd (h amount : Nat) : Nat := (h + amount) % Config.hashModulus

/-- The branch difference total with an accepted difference added; at a bound it stays (R47). -/
def diffTotalAdd (total d : Int) : Int :=
  let cap : Int := Config.amountCap
  if cap ≤ total then cap
  else if total ≤ -cap then -cap
  else if cap ≤ total + d then cap
  else if total + d ≤ -cap then -cap
  else total + d

/-- Whether the branch difference total stands at its bound (R47). -/
def diffTotalBound (total : Int) : Bool := (Config.amountCap : Int) ≤ total || total ≤ -(Config.amountCap : Int)

/-! ### Sequence numbers -/

/-- The number after `n`: 1 after 4,294,967,295 (R69). -/
def seqAfter (n : Nat) : Nat := if n == Config.lastSeq then 1 else n + 1

/-- The number `k` steps after `n`, for `n` at least 1. -/
def seqPlus (n k : Nat) : Nat := (n - 1 + k) % Config.lastSeq + 1

/-- The distance from `a` to `b` by the number after (R69). -/
def seqDistance (a b : Nat) : Nat := if a ≤ b then b - a else b + Config.wordModulus - a - 1

/-- Whether `s` is one of the numbers from `first` to the one before `next`; 0 is never given (R69, log 16). -/
def seqInDay (first next s : Nat) : Bool := s != 0 && seqDistance first s < seqDistance first next

/-- The ring slot of a sequence number (R64). -/
def ringSlot (seq capacity : Nat) : Nat := (seq - 1) % capacity

/-- Whether some record of the day stands in the ring slot `next` would take (R69). -/
def slotTaken (first next capacity : Nat) : Bool :=
  (List.range (seqDistance first next)).any (fun k => ringSlot (seqPlus first k) capacity == ringSlot next capacity)

/-! ### The Amount Formatter -/

/-- A character as a byte. -/
def ch (c : Char) : Byte := BitVec.ofNat 8 c.toNat

/-- The characters of a string as bytes. -/
def text (s : String) : List Byte := s.toList.map ch

/-- Characters left-aligned in a field, padded with spaces. -/
def padRight (n : Nat) (t : List Byte) : List Byte := (t ++ List.replicate n (ch ' ')).take n

/-- The decimal digits of a number, least significant first, at most `fuel` of them. -/
def digitsLow : Nat → Nat → List Byte
  | 0, _ => []
  | fuel + 1, n => BitVec.ofNat 8 (48 + n % 10) :: (if n < 10 then [] else digitsLow fuel (n / 10))

/-- A number in decimal without leading zeros; 0 is the single digit (R48). -/
def decimal (n : Nat) : List Byte := (digitsLow 20 n).reverse

/-- The fraction as exactly `k` digits (R48). -/
def fractionDigits : Nat → Nat → List Byte
  | 0, _ => []
  | k + 1, n => fractionDigits k (n / 10) ++ [BitVec.ofNat 8 (48 + n % 10)]

/-- Digits, least significant first, with the group character after every third (R49). -/
def groupLow (g : Byte) : List Byte → List Byte
  | a :: b :: c :: d :: rest => a :: b :: c :: g :: groupLow g (d :: rest)
  | short => short

/-- The group character of SEPARATORS, if any (Table 3-4). -/
def groupChar : Nat → Option Byte
  | 0 => some (ch ',') | 1 => some (ch '.') | 2 => some (ch ' ') | _ => none

/-- The decimal mark of SEPARATORS (Table 3-4). -/
def decimalMark : Nat → Byte
  | 1 => ch ',' | 2 => ch ',' | _ => ch '.'

/-- The text of a magnitude (R48, R49): `k` is DECIMALS, `sep` SEPARATORS. -/
def amountText (k sep magnitude : Nat) : List Byte :=
  let low := digitsLow 20 (magnitude / 10 ^ k)
  let whole_ := (match groupChar sep with | some g => groupLow g low | none => low).reverse
  if k == 0 then whole_ else whole_ ++ [decimalMark sep] ++ fractionDigits k (magnitude % 10 ^ k)

/-- The 17 characters of the Amount Formatter: the text at the right of 16, then the sign column (R50). -/
def amountField (k sep magnitude : Nat) (minus : Bool) : List Byte :=
  let t := amountText k sep magnitude
  List.replicate (16 - t.length) (ch ' ') ++ t ++ [if minus then ch '-' else ch ' ']

/-- The sign a passbook line gives an amount, `true` for minus (R51); a VOID takes its original's kind. -/
def passbookMinus (kind : RecordKind) (original : Option RecordKind) : Bool :=
  match kind with
  | .cashOut => true
  | .noncashOut => true
  | .void => match original with
    | some .cashOut => false
    | some .noncashOut => false
    | _ => true
  | _ => false

/-! ### Records -/

/-- A record as the eleven words of Table 12-6 give it. -/
def recordOfWords (ws : List Word) : JRecord :=
  { seq := (wordAt ws 0).toNat
    code := field (wordAt ws 1) 0 8
    position := field (wordAt ws 1) 8 4
    target := field (wordAt ws 1) 16 16
    book := flagAt (wordAt ws 1) 12
    amount := nat64 (wordAt ws 2) (wordAt ws 3)
    reference := (wordAt ws 4).toNat
    account := (wordAt ws 5).toNat
    counts := vofList 10 0 (unpackHalves ((ws.drop 6).take 5))
    original := none }

/-- The eleven words of a record (Table 12-6). -/
def JRecord.words (r : JRecord) : List Word :=
  [wd r.seq, wd (r.code % 256 + 256 * (r.position % 16) + 4096 * flagBit r.book + 65536 * (r.target % 65536))]
    ++ words64 r.amount ++ [wd r.reference, wd r.account] ++ packHalves r.counts.toList

/-- The record CRC: the CRC-16 of the 44 bytes of words 0 to 10 (R53, R64). -/
def recordCrc (ws : List Word) : Nat := crc16 (wordsBytes (ws.take 11))

/-- A record before anything is read into it. -/
def JRecord.blank : JRecord :=
  { seq := 0, code := 0, position := 0, target := 0, book := false, amount := 0, reference := 0, account := 0,
    counts := zeroCounts, original := none }

end Sys2Proof.Machine
end

