-- ==== Sys2Proof/Machine/Codes.lean ====
section
/-! DEFINITION. The code tables of 12_memory_formats.md. -/

namespace Sys2Proof.Machine

/-- Table 12-1, 0x008. -/
def UnitState.code : UnitState → Nat
  | .loading => 0 | .rebuilding => 1 | .ready => 2

/-- Table 12-1, 0x00C. -/
def StartOutcome.code : StartOutcome → Nat
  | .loaded => 0 | .defaultedSettings => 1 | .defaultedDay => 2 | .defaultedRead => 3

/-- Table 12-2, 0x040. -/
def DayState.code : DayState → Nat
  | .noDay => 0 | .dayOpen => 1 | .closed => 2 | .sending => 3 | .sent => 4

/-- The day state a code names (Table 12-2, R196). -/
def dayStateOfCode : Nat → Option DayState
  | 0 => some .noDay | 1 => some .dayOpen | 2 => some .closed | 3 => some .sending | 4 => some .sent | _ => none

/-- Table 12-10, word 0. -/
def DrawerState.code : DrawerState → Nat
  | .unused => 0 | .drawerOpen => 1 | .difference => 2 | .balanced => 3

/-- Table 12-7. -/
def RecordKind.code : RecordKind → Nat
  | .dayOpen => 1 | .openDrawer => 2 | .cashIn => 3 | .cashOut => 4 | .noncashIn => 5 | .noncashOut => 6
  | .transfer => 7 | .void => 8 | .declare => 9 | .acceptDifference => 10 | .reopen => 11 | .note => 12

/-- The kind a code names (Table 12-7). -/
def recordKindOfCode : Nat → Option RecordKind
  | 1 => some .dayOpen | 2 => some .openDrawer | 3 => some .cashIn | 4 => some .cashOut | 5 => some .noncashIn
  | 6 => some .noncashOut | 7 => some .transfer | 8 => some .void | 9 => some .declare
  | 10 => some .acceptDifference | 11 => some .reopen | 12 => some .note | _ => none

/-- Table 12-8, bits 16 to 19. -/
def PrintState.code : PrintState → Nat
  | .notBook => 0 | .notPrinted => 1 | .printed => 2 | .doubtful => 3

/-- The print state a code reads as; a code above 3 reads as NOT_BOOK (R196). -/
def printStateOfCode : Nat → PrintState
  | 1 => .notPrinted | 2 => .printed | 3 => .doubtful | _ => .notBook

/-- Table 12-8, bits 24 to 27. -/
def StampStatus.code : StampStatus → Nat
  | .free => 0 | .posted => 1 | .voided => 2

/-- The status a code reads as; a code above 2 reads as FREE (R196). -/
def stampStatusOfCode : Nat → StampStatus
  | 1 => .posted | 2 => .voided | _ => .free

/-- Table 12-13. -/
def FailReason.code : FailReason → Nat
  | .none => 0 | .retries => 1 | .held => 2 | .link => 3 | .aborted => 4 | .rejected => 5 | .noVerdict => 6
  | .store => 7 | .reset => 8

/-- The send failure reason a code of the anchor part names; a code that names none is taken as NONE (log 20). -/
def failReasonOfCode : Nat → FailReason
  | 1 => .retries | 2 => .held | 3 => .link | 4 => .aborted | 5 => .rejected | 6 => .noVerdict | 7 => .store
  | 8 => .reset | _ => .none

/-- Table 12-11. -/
def Reason.code : Reason → Nat
  | .notReady => 1 | .dayState => 2 | .badKind => 3 | .wrongSlot => 4 | .journalFull => 5 | .amountRange => 6
  | .unusedDenom => 7 | .countsNotAllowed => 8 | .denomMismatch => 9 | .badTarget => 10 | .drawerState => 11
  | .badDate => 12 | .dateNotAfter => 13 | .voidRef => 14 | .printPending => 15 | .shortDenom => 16
  | .countLimit => 17 | .storeError => 18 | .badRequest => 19 | .badOperand => 20 | .noPrinter => 21
  | .lineRange => 22 | .notInDay => 23 | .notBook => 25 | .voided => 26 | .alreadyPrinted => 27 | .duplicate => 28
  | .drawerNotBalanced => 29 | .reserveNotBalanced => 30 | .printerState => 31 | .causeActive => 32
  | .noTerminal => 33 | .blanked => 34 | .cleared => 40 | .reset => 41

/-- Table 12-16. -/
def ReportKind.code : ReportKind → Nat
  | .reset => 1 | .setupDefaulted => 2 | .rebuildDone => 3 | .dayDamaged => 4 | .journalNearFull => 5
  | .excessSet => 6 | .excessCleared => 7 | .difference => 8 | .openingDiff => 9 | .terminalAttached => 10
  | .terminalLost => 11 | .keysDropped => 12 | .drawerOpenLong => 13 | .drawerUnattended => 14
  | .bookInserted => 15 | .bookRemoved => 16 | .turnPage => 17 | .printDone => 18 | .printAborted => 19
  | .printDoubtful => 20 | .printerHalted => 21 | .printerRestarted => 22 | .linkUp => 23 | .linkDown => 24
  | .sendDone => 25 | .sendFailed => 26 | .storeError => 27

/-- Table 12-17, LINK_DOWN. -/
def LinkCause.code : LinkCause → Nat
  | .carrier => 1 | .clock => 2 | .errors => 3 | .silence => 4 | .reset => 5

/-- Table 12-17, PRINTER_HALTED: the latched set as bits. -/
def Latch.code (l : Latch) : Nat :=
  flagBit l.cover + 2 * flagBit l.ovc + 4 * flagBit l.jam + 8 * flagBit l.head + 16 * flagBit l.bookPulled
    + 32 * flagBit l.forced

/-- Mode codes (Table 12-3, Table 12-14). -/
def ModeKind.code : ModeKind → Nat
  | .normal => 0 | .partialRows => 1 | .blanked => 2

/-- The mode a code names (Table 12-3). -/
def modeKindOfCode : Nat → Option ModeKind
  | 0 => some .normal | 1 => some .partialRows | 2 => some .blanked | _ => none

/-- Table 12-14, byte 4,008. -/
def TerminalState.code : TerminalState → Nat
  | .detached => 0 | .attaching => 1 | .attached => 2 | .lost => 3

/-- Table 12-14, byte 4,012. -/
def Sensor.code : Sensor → Nat
  | .shut => 0 | .sensorOpen => 1 | .unknown => 2

/-- Word 0 of a print request slot (Table 12-15). -/
def SlotStatus.word : SlotStatus → Word
  | .idle => 0 | .queued => 2 | .printing => 3 | .done => 4 | .refused r => wd (5 + 256 * (r % 256))
  | .cancelled r => wd (6 + 256 * (r % 256)) | .aborted r => wd (7 + 256 * (r % 256)) | .doubtful => 8

/-- The status word 0 of a slot reads as at start-up; a code that names no status is taken as IDLE (R150), and so is
SUBMIT, which is never stored. -/
def slotStatusOfWord (w : Word) : SlotStatus :=
  let r := field w 8 8
  match field w 0 8 with
  | 2 => .queued | 3 => .printing | 4 => .done | 5 => .refused r | 6 => .cancelled r | 7 => .aborted r
  | 8 => .doubtful | _ => .idle

/-- A ring stamp (Table 12-8). -/
def stampWord (crc : Nat) (ps : PrintState) (st : StampStatus) : Word :=
  wd (crc % 65536 + 65536 * ps.code + 16777216 * st.code)

/-- The record CRC, print state and status a stamp holds (Table 12-8, R196). -/
def stampCrc (w : Word) : Nat := field w 0 16
/-- The print state of a stamp. -/
def stampPrint (w : Word) : PrintState := printStateOfCode (field w 16 4)
/-- The status of a stamp. -/
def stampStatus (w : Word) : StampStatus := stampStatusOfCode (field w 24 4)

/-- Outcomes of a posting slot (Table 12-9). -/
def outcomeEmpty : Word := 0
/-- IN_POSTING(seq). -/
def outcomeInPosting (seq : Nat) : Word := wd (0x01000000 + seq % 0x1000000)
/-- POSTED(seq). -/
def outcomePosted (seq : Nat) : Word := wd (0x02000000 + seq % 0x1000000)
/-- REFUSED(reason, detail). -/
def outcomeRefused (r : Reason) (detail : Nat) : Word := wd (0x03000000 + 0x10000 * r.code + detail % 65536)
/-- LOST(seq), of the 24 bits of an outcome. -/
def outcomeLost (seq : Nat) : Word := wd (0x04000000 + seq % 0x1000000)
/-- COMMIT, written by the host. -/
def outcomeCommit : Word := 0x0F000000

end Sys2Proof.Machine
end

