-- ==== Sys2Proof/Machine/Settings.lean ====
section
/-! DEFINITION. The settings: their words (Table 12-4), ranges, defaults and clamping (Table 2-2, R21, R23) and
freeze groups (R22). -/

namespace Sys2Proof.Machine

/-- The settings of a printer block, in the order of their words (section 12.1). -/
inductive PrnSetting where
  | present | linesPerPage | pitch | topMargin | amountCol | encPrescale | pwmPrescale | pwmPeriod | runDuty
  | approachDuty | rampStep | deadBand | approachDist | stallTime | alignTravel | ejectTravel | headTimeout
  | safeA | safeB | autoRestart | outPolarity
  deriving DecidableEq, Repr

/-- The settings of the head-office link, in the order of their words. -/
inductive LinkSetting where
  | window | ackTime | frameRetries | errThreshold | helloTime | keepalive | resumeTime | verdictTime
  deriving DecidableEq, Repr

/-- A setting word (Table 2-2, Table 12-4). -/
inductive Setting where
  | placement (w : Fin 6) (limit : Bool)
  | jnlCapacity | decimals | separators | branchNo
  | face (d : Fin 10)
  | ceiling (p : Fin 12) (upper : Bool)
  | idleBlank | releaseTime | openLong | bcstSet | bcstRow | pollInterval
  | scanDir (p : Fin 12) | capOverride (p : Fin 12) | colour (p : Fin 12) | remoteRelease (p : Fin 12)
  | lineRate (l : Fin 3) | lineGap (l : Fin 3) | replyTime (l : Fin 3)
  | printer (n : Fin 4) (k : PrnSetting)
  | link (k : LinkSetting)
  deriving DecidableEq, Repr

/-- The place of a printer setting within its block. -/
def PrnSetting.index : PrnSetting → Nat
  | .present => 0 | .linesPerPage => 1 | .pitch => 2 | .topMargin => 3 | .amountCol => 4 | .encPrescale => 5
  | .pwmPrescale => 6 | .pwmPeriod => 7 | .runDuty => 8 | .approachDuty => 9 | .rampStep => 10 | .deadBand => 11
  | .approachDist => 12 | .stallTime => 13 | .alignTravel => 14 | .ejectTravel => 15 | .headTimeout => 16
  | .safeA => 17 | .safeB => 18 | .autoRestart => 19 | .outPolarity => 20

/-- The printer setting at a place of its block; words +0x54 to +0x5C are unassigned. -/
def prnSettingAt : Nat → Option PrnSetting
  | 0 => some .present | 1 => some .linesPerPage | 2 => some .pitch | 3 => some .topMargin | 4 => some .amountCol
  | 5 => some .encPrescale | 6 => some .pwmPrescale | 7 => some .pwmPeriod | 8 => some .runDuty
  | 9 => some .approachDuty | 10 => some .rampStep | 11 => some .deadBand | 12 => some .approachDist
  | 13 => some .stallTime | 14 => some .alignTravel | 15 => some .ejectTravel | 16 => some .headTimeout
  | 17 => some .safeA | 18 => some .safeB | 19 => some .autoRestart | 20 => some .outPolarity | _ => none

/-- The place of a link setting. -/
def LinkSetting.index : LinkSetting → Nat
  | .window => 0 | .ackTime => 1 | .frameRetries => 2 | .errThreshold => 3 | .helloTime => 4 | .keepalive => 5
  | .resumeTime => 6 | .verdictTime => 7

/-- The link setting at a place. -/
def linkSettingAt : Nat → Option LinkSetting
  | 0 => some .window | 1 => some .ackTime | 2 => some .frameRetries | 3 => some .errThreshold
  | 4 => some .helloTime | 5 => some .keepalive | 6 => some .resumeTime | 7 => some .verdictTime | _ => none

/-- The index of a setting's word in the settings image: its offset less 0x200, over 4 (Table 12-4). -/
def Setting.index : Setting → Nat
  | .placement w limit => 2 * w.val + flagBit limit
  | .jnlCapacity => 12 | .decimals => 13 | .separators => 14 | .branchNo => 15
  | .face d => 16 + d.val
  | .ceiling p upper => 32 + 2 * p.val + flagBit upper
  | .idleBlank => 56 | .releaseTime => 57 | .openLong => 58 | .bcstSet => 59 | .bcstRow => 60 | .pollInterval => 61
  | .scanDir p => 64 + p.val | .capOverride p => 76 + p.val | .colour p => 88 + p.val
  | .remoteRelease p => 100 + p.val
  | .lineRate l => 112 + 4 * l.val | .lineGap l => 113 + 4 * l.val | .replyTime l => 114 + 4 * l.val
  | .printer n k => 128 + 24 * n.val + k.index
  | .link k => 224 + k.index

/-- A member of a family numbered from 0, when it is one. -/
def finOf (n i : Nat) : Option (Fin n) := if h : i < n then some ⟨i, h⟩ else none

/-- The setting whose word stands at an index of the image, if any; the other words are unassigned (Table 12-4). -/
def settingAt (i : Nat) : Option Setting :=
  if i < 12 then (finOf 6 (i / 2)).map (fun w => .placement w (i % 2 == 1))
  else if i == 12 then some .jnlCapacity
  else if i == 13 then some .decimals
  else if i == 14 then some .separators
  else if i == 15 then some .branchNo
  else if i < 26 then (finOf 10 (i - 16)).map .face
  else if i < 32 then none
  else if i < 56 then (finOf 12 ((i - 32) / 2)).map (fun p => .ceiling p (i % 2 == 1))
  else if i == 56 then some .idleBlank
  else if i == 57 then some .releaseTime
  else if i == 58 then some .openLong
  else if i == 59 then some .bcstSet
  else if i == 60 then some .bcstRow
  else if i == 61 then some .pollInterval
  else if i < 64 then none
  else if i < 76 then (finOf 12 (i - 64)).map .scanDir
  else if i < 88 then (finOf 12 (i - 76)).map .capOverride
  else if i < 100 then (finOf 12 (i - 88)).map .colour
  else if i < 112 then (finOf 12 (i - 100)).map .remoteRelease
  else if i < 124 then
    (finOf 3 ((i - 112) / 4)).bind fun l =>
      match (i - 112) % 4 with
      | 0 => some (.lineRate l) | 1 => some (.lineGap l) | 2 => some (.replyTime l) | _ => none
  else if i < 128 then none
  else if i < 224 then
    (finOf 4 ((i - 128) / 24)).bind fun n => (prnSettingAt ((i - 128) % 24)).map (.printer n)
  else (linkSettingAt (i - 224)).map .link

/-- Freeze groups (R22). LINE is never frozen, and the settings outside every group are not either. -/
inductive FreezeGroup where
  | never | day | printer (n : Fin 4) | link
  deriving DecidableEq, Repr

/-- The freeze group of a setting (Table 2-2). -/
def Setting.group : Setting → FreezeGroup
  | .placement _ _ | .jnlCapacity | .decimals | .separators | .branchNo | .face _ => .day
  | .printer _ .present | .printer _ .headTimeout | .printer _ .autoRestart => .never
  | .printer n _ => .printer n
  | .link _ => .link
  | _ => .never

/-- A range with clamping at both ends. -/
def clampTo (lo hi v : Nat) : Nat := if v < lo then lo else if hi < v then hi else v

/-- An off/on setting: a code that names no value is out of range and takes the default (R21). -/
def clampFlag (dflt v : Nat) : Nat := if v ≤ 1 then v else dflt

/-- A prescale of 1, 4 or 16; anything else takes 16 (Table 2-2). -/
def clampPrescale (v : Nat) : Nat := if v == 1 || v == 4 then v else 16

/-- A timer of seconds with 0 for none: 1 to 9 become 10 (Table 2-2). -/
def clampSeconds (hi v : Nat) : Nat := if v == 0 then 0 else clampTo 10 hi v

/-- The value in force of a printer setting written as `v` (Table 2-2). -/
def PrnSetting.clamp (k : PrnSetting) (v : Nat) : Nat :=
  match k with
  | .present => clampFlag 0 v
  | .linesPerPage => clampTo 12 30 v
  | .pitch => clampTo 2 255 v
  | .topMargin => clampTo 0 4095 v
  | .amountCol => clampTo 0 47 v
  | .encPrescale => clampPrescale v
  | .pwmPrescale => clampPrescale v
  | .pwmPeriod => clampTo 1 255 v
  | .runDuty => clampTo 0 1023 v
  | .approachDuty => clampTo 0 1023 v
  | .rampStep => clampTo 1 64 v
  | .deadBand => clampTo 0 127 v
  | .approachDist => clampTo 1 255 v
  | .stallTime => clampTo 10 1000 v
  | .alignTravel => clampTo 100 4095 v
  | .ejectTravel => clampTo 100 4095 v
  | .headTimeout => clampTo 100 5000 v
  | .safeA => clampFlag 0 v
  | .safeB => clampFlag 0 v
  | .autoRestart => clampFlag 0 v
  | .outPolarity => if v ≤ 15 then v else 0

/-- The value in force of a link setting written as `v` (Table 2-2). -/
def LinkSetting.clamp (k : LinkSetting) (v : Nat) : Nat :=
  match k with
  | .window => clampTo 1 4 v
  | .ackTime => clampTo 1 60 v
  | .frameRetries => clampTo 1 15 v
  | .errThreshold => clampTo 1 15 v
  | .helloTime => clampTo 1 10 v
  | .keepalive => clampTo 5 120 v
  | .resumeTime => clampTo 1 30 v
  | .verdictTime => clampTo 10 600 v

/-- The value in force of a setting judged word by word, written as `v` (Table 2-2). JNL_CAPACITY and CEILING_p are
judged by R23: see `clampCapacity` and `clampCeiling`. -/
def Setting.clamp (k : Setting) (v : Nat) : Nat :=
  match k with
  | .placement _ _ => clampTo 0 0xFFFFF v
  | .decimals => if v == 1 then 2 else if 3 < v then 3 else v
  | .separators => if 3 < v then 0 else v
  | .branchNo => clampTo 0 999999 v
  | .face _ => clampTo 0 1000000 v
  | .idleBlank => clampSeconds 3600 v
  | .releaseTime => clampTo 50 2000 v
  | .openLong => clampSeconds 600 v
  | .bcstSet => v % 4096
  | .bcstRow => clampTo 0 23 v
  | .pollInterval => clampTo 20 1000 v
  | .scanDir _ => clampFlag 0 v
  | .capOverride _ => clampFlag 0 v
  | .colour _ => clampFlag 1 v
  | .remoteRelease _ => clampFlag 0 v
  | .lineRate _ => if v == 19200 || v == 76800 || v == 153600 then v else 38400
  | .lineGap _ => clampTo 2 32 v
  | .replyTime _ => clampTo 5 255 v
  | .printer _ k => k.clamp v
  | .link k => k.clamp v
  | .jnlCapacity => v
  | .ceiling _ _ => v

/-- The largest multiple of 64 journal records that fits in a JOURNAL window of these pages (R3, R23). -/
def journalFit (base limit : Nat) : Nat := (((limit - base + 1) * 4096 - 1024) / 48) / 64 * 64

/-- JNL_CAPACITY brought into range: rounded down to a multiple of 64, clamped, and lowered to the window's fit when
the window is enabled (R23). -/
def clampCapacity (base limit v : Nat) : Nat :=
  let c := clampTo 1024 65536 (v / 64 * 64)
  if base ≤ limit then Nat.min c (journalFit base limit) else c

/-- CEILING_p brought into range as a 64-bit value (R23). -/
def clampCeiling (v : Nat) : Nat := if v ≤ Config.amountCap then v else Config.amountCap

/-! ### Values in force -/

/-- The value in force at an index of the image. -/
def SuState.valueAt (su : SuState) (i : Nat) : Nat := (su.image.toList.getD i 0).toNat

/-- The value in force of a setting word (02, introduction: the values in force that the image encodes). -/
def Chip.setting (c : Chip) (k : Setting) : Nat := c.su.valueAt k.index

/-- A printer setting in force. -/
def Chip.prn (c : Chip) (n : Fin 4) (k : PrnSetting) : Nat := c.setting (.printer n k)

/-- A printer setting that is off or on. -/
def Chip.prnOn (c : Chip) (n : Fin 4) (k : PrnSetting) : Bool := c.prn n k == 1

/-- A link setting in force. -/
def Chip.linkSet (c : Chip) (k : LinkSetting) : Nat := c.setting (.link k)

/-- FACE_0 to FACE_9 in force (R38). -/
def Chip.faces (c : Chip) : Vector Nat 10 := vofList 10 0 (denominations.map (fun d => c.setting (.face d)))

/-- CEILING_p in force, a 64-bit value (R23). -/
def Chip.ceilingOf (c : Chip) (p : Fin 12) : Nat :=
  c.setting (.ceiling p false) + Config.wordModulus * c.setting (.ceiling p true)

/-- JNL_CAPACITY in force (R23). -/
def Chip.capacity (c : Chip) : Nat := c.setting .jnlCapacity

/-- Put a word of the settings image. -/
def Chip.putImage (c : Chip) (i : Nat) (w : Word) : Chip :=
  match finOf 255 i with
  | some j => { c with su := { c.su with image := vput c.su.image j w } }
  | none => c

end Sys2Proof.Machine
end

