-- ==== Sys2Proof/Machine/Ops.lean ====
section
/-! DEFINITION. The named operations the units share: the store, own accesses, reports, the request result, and the
windows. -/

namespace Sys2Proof.Machine

/-! ### The store -/

/-- An address of the 32-bit space; addresses wrap past 0xFFFFFFFF to 0 (R4). -/
def wrapAddr (a : Nat) : Nat := a % Config.wordModulus

/-- The byte at an address. -/
def readByte : List Host.Cell → Nat → Byte
  | [], _ => Config.unwrittenByte
  | (a, b) :: rest, k => if a == k then b else readByte rest k

/-- Write a byte, keeping the cells' addresses rising and listing no byte equal to the unwritten one. -/
def writeByte : List Host.Cell → Nat → Byte → List Host.Cell
  | [], k, v => if v == Config.unwrittenByte then [] else [(k, v)]
  | (a, b) :: rest, k, v =>
    if k < a then (if v == Config.unwrittenByte then (a, b) :: rest else (k, v) :: (a, b) :: rest)
    else if k == a then (if v == Config.unwrittenByte then rest else (k, v) :: rest)
    else (a, b) :: writeByte rest k v

/-- The canonical form of the store: addresses strictly rising, below 2^32, and no byte listed that equals the
unwritten one. -/
def memWf : List Host.Cell → Bool
  | [] => true
  | [(a, b)] => b != Config.unwrittenByte && a < Config.wordModulus
  | (a, b) :: (a', b') :: rest => b != Config.unwrittenByte && a < a' && memWf ((a', b') :: rest)

/-- The word at an address, least significant byte first (00). -/
def readWord (m : List Host.Cell) (a : Nat) : Word :=
  wordOf (readByte m (wrapAddr a)) (readByte m (wrapAddr (a + 1))) (readByte m (wrapAddr (a + 2)))
    (readByte m (wrapAddr (a + 3)))

/-- `len` words, `stride` bytes apart. -/
def readWords (m : List Host.Cell) (a stride len : Nat) : List Word :=
  (List.range len).map (fun i => readWord m (a + stride * i))

/-- Write byte `i` of a word if its byte enable is set. -/
def writeEnabled (m : List Host.Cell) (a : Nat) (w : WriteWord) (i : Nat) : List Host.Cell :=
  if w.enables.getLsbD i then writeByte m (wrapAddr (a + i)) (byteOf w.value i) else m

/-- Write the enabled bytes of a word. -/
def writeWord (m : List Host.Cell) (a : Nat) (w : WriteWord) : List Host.Cell :=
  writeEnabled (writeEnabled (writeEnabled (writeEnabled m a w 0) a w 1) a w 2) a w 3

/-- Write the words of a burst, four bytes apart (R4). -/
def writeWords : List Host.Cell → Nat → List WriteWord → List Host.Cell
  | m, _, [] => m
  | m, a, w :: rest => writeWords (writeWord m a w) (a + 4) rest

/-- All four byte enables (R9). -/
def allBytes : BitVec 4 := 0xF

/-- A whole word. -/
def whole (v : Word) : WriteWord := ⟨v, allBytes⟩

/-- The page of an address (00, pages and windows). -/
def pageOf (a : Nat) : Nat := wrapAddr a / 4096

/-! ### Windows -/

/-- The place of a placeable window in the window table. -/
def Window.slot : Window → Option (Fin 6)
  | .setup => none | .journal => some 0 | .totals => some 1 | .screens => some 2 | .broadcast => some 3
  | .print => some 4 | .report => some 5

/-- The placement of a window of the table. -/
def Chip.placement (c : Chip) (i : Fin 6) : Placement := c.ap.placed[i.val]

/-- Whether a placement covers a page: base greater than limit covers none (R2). -/
def Placement.covers (p : Placement) (page : Nat) : Bool := p.base ≤ page && page ≤ p.limit

/-- Whether a placement is enabled (R2). -/
def Placement.enabled (p : Placement) : Bool := p.base ≤ p.limit

/-- The window of the table at place `i`. -/
def windowAt : Fin 6 → Window
  | 0 => .journal | 1 => .totals | 2 => .screens | 3 => .broadcast | 4 => .print | _ => .report

/-- Whether the host's accesses can reach a window of the table: a JOURNAL that is not usable is treated as
disabled (R3). -/
def Chip.decodes (c : Chip) (i : Fin 6) : Bool := i.val != 0 || c.ap.journalUsable

/-- The first window of the table, from place `i` on, that holds a page. -/
def Chip.windowFrom (c : Chip) (page : Nat) : List (Fin 6) → Option Window
  | [] => none
  | i :: rest =>
    if c.decodes i && (c.placement i).covers page then some (windowAt i) else c.windowFrom page rest

/-- The window a word belongs to: the first in the order SETUP, JOURNAL, TOTALS, SCREENS, BROADCAST, PRINT, REPORT
that holds its page; none is outside every window (R4). -/
def Chip.windowOf (c : Chip) (addr : Nat) : Option Window :=
  if pageOf addr == c.ap.setupPage then some .setup else c.windowFrom (pageOf addr) [0, 1, 2, 3, 4, 5]

/-- The first byte of a window, as the table stands. -/
def Chip.windowBase (c : Chip) : Window → Nat
  | .setup => c.ap.setupPage * 4096
  | w => match w.slot with
    | some i => (c.placement i).base * 4096
    | none => 0

/-- Whether a window is enabled. -/
def Chip.windowEnabled (c : Chip) (w : Window) : Bool :=
  match w.slot with
  | some i => (c.placement i).enabled
  | none => true

/-- Address of an offset in the SETUP page. -/
def Chip.setupAddr (c : Chip) (off : Nat) : Nat := c.ap.setupPage * 4096 + off

/-- Address of an offset in the JOURNAL window. -/
def Chip.journalAddr (c : Chip) (off : Nat) : Nat := c.windowBase .journal + off

/-- Address of an offset of screen `p`'s page (R98). -/
def Chip.screenAddr (c : Chip) (p : Fin 12) (off : Nat) : Nat := c.windowBase .screens + 4096 * p.val + off

/-- Whether screen `p`'s page lies within the SCREENS window; if not the screen is absent (R98). -/
def Chip.screenPresent (c : Chip) (p : Fin 12) : Bool :=
  c.windowEnabled .screens && (c.placement 2).base + p.val ≤ (c.placement 2).limit

/-- Address of word `w` of slot `s` of printer `n` (R135). -/
def Chip.printAddr (c : Chip) (n : Fin 4) (s : Fin 8) (w : Nat) : Nat :=
  c.windowBase .print + (n.val * 8 + s.val) * 128 + 4 * w

/-! ### Requesters and own accesses -/

/-- The rotation indices of the own requesters (R16). -/
def rJU : Fin 9 := 0
/-- CU. -/
def rCU : Fin 9 := 1
/-- SCU. -/
def rSCU : Fin 9 := 2
/-- SLC0 to SLC2. -/
def rSLC (l : Fin 3) : Fin 9 := ⟨3 + l.val, by omega⟩
/-- PRU. -/
def rPRU : Fin 9 := 6
/-- HLC. -/
def rHLC : Fin 9 := 7
/-- SU. -/
def rSU : Fin 9 := 8

/-- A unit asks for an own access, after those it still has to make (R16). -/
def Chip.push (c : Chip) (u : Fin 9) (op : OwnOp) (tag : Tag) (fin : Bool := false) : Chip :=
  { c with own := vupd c.own u (· ++ [⟨op, tag, fin⟩]) }

/-- A unit asks for several own accesses in order. -/
def Chip.pushAll (c : Chip) (u : Fin 9) (rs : List OwnReq) : Chip :=
  { c with own := vupd c.own u (· ++ rs) }

/-- The next free value, and the part with its counter advanced (log 10). -/
def Chip.draw (c : Chip) : Word × Chip := (Config.freeValue c.free, { c with free := c.free + 1 })

/-! ### Reports -/

/-- SU sets the overflow flag and writes its word, if REPORT is enabled and the flag is clear (R33, R34). -/
def Chip.setOverflow (c : Chip) : Chip :=
  if c.windowEnabled .report && !c.su.overflow then
    ({ c with su := { c.su with overflow := true } }).push rSU (.write (c.setupAddr 0x144) [1]) .silent
  else c

/-- A unit makes a report: it enters the pending list with the millisecond count, or is dropped when the list holds
16 (R33). -/
def Chip.report (c : Chip) (k : ReportKind) (index detail : Nat) : Chip :=
  if c.su.reports.length < Config.reportPendingMax then
    { c with su := { c.su with reports := c.su.reports ++ [⟨k, index, detail, c.su.ms⟩] } }
  else c.setOverflow

/-- A STORE_ERROR report: unit index the rotation index, detail the page of the failing access (Table 2-6). -/
def Chip.reportStore (c : Chip) (u : Fin 9) (addr : Nat) : Chip := c.report .storeError u.val (pageOf addr)

/-! ### The request in service -/

/-- SU writes the result area as one burst and then ends the hold (R32). -/
def Chip.finishRequest (c : Chip) (reason : Option Reason) (detail : Nat) : Chip :=
  match c.su.request with
  | none => c
  | some code =>
    let words := match reason with
      | none => [1, 0, wd detail, wd code]
      | some r => [2, wd r.code, wd detail, wd code]
    c.push rSU (.write (c.setupAddr 0x120) words) (.result reason.isNone)

/-- The request in service is DONE (R31). -/
def Chip.requestDone (c : Chip) : Chip := c.finishRequest none 0

/-- The request in service is refused (R31). -/
def Chip.requestRefused (c : Chip) (r : Reason) (detail : Nat) : Chip := c.finishRequest (some r) detail

/-- Own accesses whose last answer ends the request in service; with none to make it ends at once (R31). -/
def Chip.pushThenDone (c : Chip) (u : Fin 9) (rs : List OwnReq) : Chip :=
  match rs.reverse with
  | [] => c.requestDone
  | r :: front => c.pushAll u (front.reverse ++ [{ r with fin := true }])

/-- AP returns an answer to the host and the access ends (R11, R12). -/
def Chip.answerHost (c : Chip) (okay : Bool) (data : List Word) : Chip :=
  { c with ap := { c.ap with host := none, answer := some ⟨okay, data⟩ } }

/-! ### SU's own words -/

/-- SU writes a word of the identity and status area; its ERROR is reported with the offset (R20). -/
def Chip.writeStatus (c : Chip) (off : Nat) (w : Word) : Chip :=
  c.push rSU (.write (c.setupAddr off) [w]) (.statusWord off)

/-- One settings CRC rewrite is asked of SU (R24). -/
def Chip.askSettingsCrc (c : Chip) : Chip := c.push rSU .settingsCrc .plain

/-- SU is told that CU has written anchor fields: it rewrites the day-record CRC (R25), and then `k` follows. -/
def Chip.askDayCrc (c : Chip) (k : After) : Chip := c.push rSU .dayCrc (.dayCrc k)

/-- The settings CRC of SU's image, over 0x200 to 0x5FB (R24). -/
def Chip.settingsCrcValue (c : Chip) : Nat := crc16 (wordsBytes c.su.image.toList)

/-- ATTN is active while the ring holds unread entries or has overflowed (R36). -/
def Chip.attn (c : Chip) : Bool := c.su.writeIndex != c.su.readIndex || c.su.overflow

end Sys2Proof.Machine
end

