-- ==== Sys2Proof/Machine/Screens.lean ====
section
/-! DEFINITION. The Screen Unit (06): dirty rows, sweeps, modes, idle blanking, the status row and the fan-out. -/

namespace Sys2Proof.Machine

/-- SCU's record of screen `p`. -/
def Chip.screen (c : Chip) (p : Fin 12) : Screen := c.scu.screens[p.val]

/-- Change SCU's record of screen `p`. -/
def Chip.onScreen (c : Chip) (p : Fin 12) (f : Screen → Screen) : Chip :=
  { c with scu := { c.scu with screens := vupd c.scu.screens p f } }

/-- The drop of position `p` (R118). -/
def Chip.drop (c : Chip) (p : Fin 12) : Drop := c.slc.drops[p.val]

/-- Change the drop of position `p`. -/
def Chip.onDrop (c : Chip) (p : Fin 12) (f : Drop → Drop) : Chip :=
  { c with slc := { c.slc with drops := vupd c.slc.drops p f } }

/-- The drawer record of a position. -/
def Chip.drawerOf (c : Chip) (p : Fin 12) : Drawer := c.cu.drawers[p.val]

/-- A release pulse is withdrawn: DRWREL_p becomes inactive at once (R132). -/
def Chip.withdraw (c : Chip) (p : Fin 12) : Chip := c.onDrop p (fun d => { d with pulse := none })

/-! ### Rows -/

/-- The 25 rows, ascending. -/
def rows : List (Fin 25) :=
  [0, 1, 2, 3, 4, 5, 6, 7, 8, 9, 10, 11, 12, 13, 14, 15, 16, 17, 18, 19, 20, 21, 22, 23, 24]

/-- A set of rows given by a test. -/
def rowSet (f : Fin 25 → Bool) : Vector Bool 25 := vofList 25 false (rows.map f)

/-- Whether a row is in a set. -/
def hasRow (v : Vector Bool 25) (r : Fin 25) : Bool := v[r.val]

/-- Whether a set of rows is empty. -/
def rowsEmpty (v : Vector Bool 25) : Bool := rows.all (fun r => !hasRow v r)

/-- Whether a mode shows a row (R104). -/
def Mode.shows (m : Mode) (r : Fin 25) : Bool :=
  r.val == 24 ||
    match m.kind with
    | .normal => true
    | .partialRows => m.first ≤ r.val && r.val ≤ m.last
    | .blanked => false

/-- Whether a write of row `r` marks it dirty: not when the row waits in the sweep set, nor in flight before its read
has begun (R99, R101). -/
def Screen.marks (s : Screen) (r : Fin 25) : Bool :=
  !hasRow s.sweep r &&
    match s.flight with
    | some f => f.row != r || f.begun
    | none => true

/-- The rows of a test become dirty (R99, R101, R108). -/
def Screen.dirtyRows (s : Screen) (f : Fin 25 → Bool) : Screen :=
  { s with dirty := rowSet (fun r => hasRow s.dirty r || (f r && s.marks r)) }

/-- A row becomes dirty when a write of it takes effect (R99). -/
def Chip.markDirty (c : Chip) (p : Fin 12) (r : Fin 25) : Chip := c.onScreen p (·.dirtyRows (· == r))

/-- All 25 rows become dirty (R103, R108). -/
def Chip.markAll (c : Chip) (p : Fin 12) : Chip := c.onScreen p (·.dirtyRows (fun _ => true))

/-! ### The work list -/

/-- The mode word of the control area (Table 12-14). -/
def Screen.modeWord (s : Screen) : Word :=
  let rem := match s.remembered with
    | some m => if s.autoBlanked then 32 * m.kind.code + 262144 * m.first + 8388608 * m.last else 0
    | none => 0
  wd (s.mode.kind.code + 4 * flagBit s.askedPlain + 8 * flagBit s.plain + 16 * flagBit s.autoBlanked
    + 256 * s.mode.first + 8192 * s.mode.last + rem)

/-- The five bursts of a 40-word row at an address (R101, R113, R115). -/
def rowBursts (addr : Nat) (ws : List Word) (tag : Nat → Tag) : List OwnReq :=
  (List.range 5).map (fun j => ⟨.write (addr + 32 * j) ((ws.drop (8 * j)).take 8), tag j, false⟩)

/-- The first present screen of a list. -/
def Chip.firstPresent (c : Chip) : List (Fin 12) → Option (Fin 12 × List (Fin 12))
  | [] => none
  | q :: rest => if c.screenPresent q then some (q, rest) else c.firstPresent rest

/-- SCU begins an entry of its work list. -/
def Chip.scuBegin (c : Chip) (e : ScuWork) (rest : List ScuWork) : Chip :=
  { c with scu := { c.scu with serving := some e, work := rest } }

/-- The fan-out's state changed. -/
def Chip.onFan (c : Chip) (f : FanOut → FanOut) : Chip := { c with scu := { c.scu with fan := f c.scu.fan } }

/-- SCU writes the copy into row B of screen `q` (R115). A screen that SCREENS moves before the grants, and that is still
present, gets the bursts at its old place (DESIGN CHOICE, log 53). -/
def Chip.fanWriteTo (c : Chip) (q : Fin 12) : Chip :=
  c.pushAll rSCU (rowBursts (c.screenAddr q (160 * c.scu.fan.row)) c.scu.fan.copy (fun j => .fanWrite q j))

/-- SCU takes the entries of its work list in order (R113): a count word, a mode word or a fan-out access is begun at
once, a status-row entry waits for STATUS_ROW_RENDER, entries of absent screens are passed over. A count or mode word is
written as it stands when its entry is taken (DESIGN CHOICE, log 54). The five reads of a master row are made at the place
BROADCAST has when their entry is taken, also if it moves or is disabled before the grants (DESIGN CHOICE, log 60). -/
def Chip.scuTake (c : Chip) : List ScuWork → Chip
  | [] => { c with scu := { c.scu with work := [] } }
  | .status p :: rest => { c with scu := { c.scu with work := .status p :: rest } }
  | .count p :: rest =>
    if c.screenPresent p then
      (c.scuBegin (.count p) rest).push rSCU (.write (c.screenAddr p 4000) [wd (c.screen p).sweepCount]) .scuCount
    else c.scuTake rest
  | .mode p fin :: rest =>
    if c.screenPresent p then
      (c.scuBegin (.mode p fin) rest).push rSCU (.write (c.screenAddr p 4004) [(c.screen p).modeWord]) .scuMode fin
    else if fin then c.requestDone.scuTake rest else c.scuTake rest
  | .fanRead :: rest =>
    (c.scuBegin .fanRead rest).pushAll rSCU
      ((List.range 5).map (fun j => ⟨.read (c.windowBase .broadcast + 32 * j) 4 8, .fanRead j, false⟩))
  | .fanWrite p :: rest =>
    match c.firstPresent (p :: c.scu.fan.screens) with
    | some (q, left) => ((c.scuBegin (.fanWrite q) rest).onFan (fun f => { f with screens := left })).fanWriteTo q
    | none => (c.onFan (fun f => { f with phase := .idle })).scuTake rest

/-- SCU goes on with its work list unless an entry is being served. -/
def Chip.scuPump (c : Chip) : Chip := if c.scu.serving.isSome then c else c.scuTake c.scu.work

/-- An entry is put on the work list (R113). -/
def Chip.addWork (c : Chip) (e : ScuWork) : Chip :=
  ({ c with scu := { c.scu with work := c.scu.work ++ [e] } }).scuPump

/-- The entry being served has had its last answer. -/
def Chip.scuServed (c : Chip) : Chip := ({ c with scu := { c.scu with serving := none } }).scuPump

/-! ### The status row -/

/-- The drawer state word (Table 6-4). -/
def DrawerState.word : DrawerState → List Byte
  | .unused => text "UNUSED" | .drawerOpen => text "OPEN" | .difference => text "DIFFERENCE" | .balanced => text "BALANCED"

/-- The Amount Formatter under the settings in force (R48). -/
def Chip.amount (c : Chip) (magnitude : Nat) (minus : Bool) : List Byte :=
  amountField (c.setting .decimals) (c.setting .separators) magnitude minus

/-- The attention text of position `p`; blank while REBUILDING (R112). -/
def Chip.attentionText (c : Chip) (p : Fin 12) : List Byte :=
  if c.su.unitState == .rebuilding then []
  else if (c.drop p).attention then text "DRAWER OPEN LONG"
  else match (c.drawerOf p).state, (c.drawerOf p).declared with
    | .difference, some d => text "DIFF " ++ c.amount d.difference.natAbs (d.difference < 0)
    | _, _ => if (c.drawerOf p).excess then text "EXCESS" else []

/-- The day field (R111). -/
def Chip.dayField (c : Chip) : List Byte :=
  if c.su.unitState == .rebuilding then text "REBUILDING"
  else match c.cu.day.state with
    | .noDay => text "NO DAY" | .dayOpen => text "OPEN" | .closed => text "CLOSED" | .sent => text "SENT"
    | .sending => text "SENDING " ++ decimal (c.scu.ackedFrames * 100 / c.scu.totalFrames) ++ text "%"

/-- Columns 4 to 61 of the status row (Table 6-4, R111). -/
def Chip.statusMiddle (c : Chip) (p : Fin 12) : List Byte :=
  if c.su.unitState == .rebuilding then List.replicate 58 (ch ' ')
  else padRight 10 (c.drawerOf p).state.word ++ c.amount (cashPosition c.faces (c.drawerOf p).counts) false
    ++ [ch ' '] ++ padRight 30 (c.attentionText p)

/-- The 80 characters of the status row (Table 6-4). -/
def Chip.statusChars (c : Chip) (p : Fin 12) : List Byte :=
  [ch 'P', BitVec.ofNat 8 (48 + p.val / 10), BitVec.ofNat 8 (48 + p.val % 10), ch ' '] ++ c.statusMiddle p ++ [ch ' ']
    ++ padRight 17 c.dayField

/-- Cells of a row: characters with their attribute bytes, from column `col` on. -/
def cells (flash : Bool) : Nat → List Byte → List Byte
  | _, [] => []
  | col, b :: rest => b :: (if flash && 32 ≤ col && col ≤ 61 then 1 else 0) :: cells flash (col + 1) rest

/-- Words of bytes in address order. -/
def bytesWords : List Byte → List Word
  | a :: b :: c :: d :: rest => wordOf a b c d :: bytesWords rest
  | _ => []

/-- The rendering of row 24 of screen `p`: 40 words (R111, R112). -/
def Chip.renderStatus (c : Chip) (p : Fin 12) : List Word :=
  bytesWords (cells (c.screen p).flash 0 (c.statusChars p))

/-- The flash phase follows the attention text: it turns on when the text becomes non-blank, off when it becomes
blank (R112). -/
def Chip.judgeFlash (c : Chip) (p : Fin 12) : Chip :=
  let on := !(c.attentionText p).isEmpty
  if on == (c.screen p).attention then c
  else c.onScreen p (fun s => { s with attention := on, flash := on, flashMs := 0 })

/-- An event of R113 for screen `p`: an entry on the work list unless one is already waiting. -/
def Chip.statusEvent (c : Chip) (p : Fin 12) : Chip :=
  let c := c.judgeFlash p
  if c.scu.work.contains (.status p) then c else c.addWork (.status p)

/-- An event of R113 for all twelve screens, screen 0 first (DESIGN CHOICE, log 85). -/
def Chip.statusEventAll (c : Chip) : Chip := positions.foldl (fun c p => c.statusEvent p) c

/-- SCU takes the status-row entry at the head of its work list and renders row 24 (R113). -/
def Chip.statusRowRender (c : Chip) : Chip :=
  match c.scu.serving, c.scu.work with
  | none, .status p :: rest =>
    if c.screenPresent p then
      let row := c.renderStatus p
      if (c.screen p).rendering == some row then ({ c with scu := { c.scu with work := rest } }).scuPump
      else
        ((c.scuBegin (.status p) rest).onScreen p (fun s => { s with rendering := some row })).pushAll rSCU
          (rowBursts (c.screenAddr p 3840) row (fun j => .scuStatus p j))
    else (({ c with scu := { c.scu with work := rest } }).onScreen p (fun s => { s with rendering := none })).scuPump
  | _, _ => c

/-- A burst of a status-row write has been answered (R99, R113). -/
def Chip.statusAnswered (c : Chip) (p : Fin 12) (burst addr : Nat) (okay : Bool) : Chip :=
  let c := if okay then c.markDirty p 24
    else (c.onScreen p (fun s => { s with rendering := none })).reportStore rSCU addr
  if burst == 4 then c.scuServed else c

/-- A count or mode word write has been answered (R102, R104). -/
def Chip.scuWordAnswered (c : Chip) (addr : Nat) (okay : Bool) : Chip :=
  (if okay then c else c.reportStore rSCU addr).scuServed

/-- The flash phase toggles once every 1,000 ms while the attention text is not blank (R112). -/
def Chip.flashToggle (c : Chip) (p : Fin 12) : Chip :=
  if (c.screen p).attention && 1000 ≤ (c.screen p).flashMs then
    (c.onScreen p (fun s => { s with flash := !s.flash, flashMs := 0 })).statusEvent p
  else c

/-! ### Sweeps -/

/-- Whether a sweep of screen `p` may start (R100). -/
def Chip.sweepMayStart (c : Chip) (p : Fin 12) : Bool :=
  let s := c.screen p
  !s.sweeping && (c.drop p).terminal == .attached && c.screenPresent p
    && !rowsEmpty (rowSet (fun r => hasRow s.dirty r && s.mode.shows r))

/-- A sweep starts: every dirty row the mode allows moves into the sweep set (R100). -/
def Chip.sweepStart (c : Chip) (p : Fin 12) : Chip :=
  if c.sweepMayStart p then
    c.onScreen p (fun s =>
      { s with
        sweep := rowSet (fun r => hasRow s.dirty r && s.mode.shows r)
        dirty := rowSet (fun r => hasRow s.dirty r && !s.mode.shows r)
        sweeping := true })
  else c

/-- When the sweep set is empty and no row is in flight, the sweep is complete: the count advances and its word is
written (R102). -/
def Chip.sweepCheck (c : Chip) (p : Fin 12) : Chip :=
  let s := c.screen p
  if s.sweeping && rowsEmpty s.sweep && s.flight.isNone then
    (c.onScreen p (fun s => { s with sweeping := false, sweepCount := (s.sweepCount + 1) % Config.wordModulus })).addWork
      (.count p)
  else c

/-- The next row of screen `p`'s sweep: row 24, then by SCAN_DIR_p the lowest or the highest (R101). -/
def Chip.nextRow (c : Chip) (p : Fin 12) : Option (Fin 25) :=
  let s := c.screen p
  if s.modePending || s.flight.isSome then none
  else if hasRow s.sweep 24 then some 24
  else if c.setting (.scanDir p) == 1 then rows.reverse.find? (hasRow s.sweep)
  else rows.find? (hasRow s.sweep)

/-- The row named leaves the sweep set and is in flight, its read not begun (R101). -/
def Chip.takeRow (c : Chip) (p : Fin 12) (r : Fin 25) : Chip :=
  c.onScreen p (fun s => { s with sweep := vput s.sweep r false, flight := some ⟨r, false⟩ })

/-- The first burst of the row's read has been granted: the read has begun (R101). -/
def Chip.readBegun (c : Chip) (p : Fin 12) : Chip :=
  c.onScreen p (fun s => { s with flight := s.flight.map (fun f => { f with begun := true }) })

/-- The row in flight ends; abandoned or unread, it goes back into the dirty set (R102). -/
def Chip.rowEnds (c : Chip) (p : Fin 12) (delivered : Bool) : Chip :=
  (c.onScreen p (fun s =>
    match s.flight with
    | some f => { s with flight := none, dirty := if delivered then s.dirty else vput s.dirty f.row true }
    | none => s)).sweepCheck p

/-- A sweep is abandoned: its rows and the row in flight go back into the dirty set; the count stays (R103). -/
def Chip.abandonSweep (c : Chip) (p : Fin 12) : Chip :=
  c.onScreen p (fun s =>
    { s with
      dirty := rowSet (fun r => hasRow s.dirty r || hasRow s.sweep r || (s.flight.map (·.row)) == some r)
      sweep := noRows
      flight := none
      sweeping := false })

/-! ### Modes -/

/-- SCU writes the mode word; `fin` when that write ends the request in service (R104). -/
def Chip.writeMode (c : Chip) (p : Fin 12) (fin : Bool) : Chip := c.addWork (.mode p fin)

/-- A mode change in the order of R106, `old` being the mode before: the pending mark, the sweep set, the rows newly
shown, the mode word. A screen entering BLANKED has its release withdrawn (R104, R132). -/
def Chip.modeChanged (c : Chip) (p : Fin 12) (old : Mode) (fin : Bool) : Chip :=
  let c := c.onScreen p (fun s => { s with modePending := true })
  let c := c.onScreen p (fun s =>
    { s with
      dirty := rowSet (fun r => hasRow s.dirty r || (hasRow s.sweep r && !s.mode.shows r))
      sweep := rowSet (fun r => hasRow s.sweep r && s.mode.shows r) })
  let c := c.onScreen p (fun s => s.dirtyRows (fun r => s.mode.shows r && !old.shows r))
  let c := if (c.screen p).mode.kind == .blanked then c.withdraw p else c
  (c.sweepCheck p).writeMode p fin

/-- Whether screen `p` counts as colour-capable (R105). -/
def Chip.colourCapable (c : Chip) (p : Fin 12) : Bool :=
  if c.setting (.capOverride p) == 1 then c.setting (.colour p) == 1 else (c.drop p).colour

/-- The PLAIN flag in force as R105 decides it. -/
def Chip.plainOf (c : Chip) (p : Fin 12) : Bool := (c.screen p).askedPlain || !c.colourCapable p

/-- SCU decides PLAIN in force; a change sets MODE-pending, dirties the rows shown and is a mode change (R105, R106). -/
def Chip.decidePlain (c : Chip) (p : Fin 12) : Chip :=
  let new := c.plainOf p
  if new == (c.screen p).plain then c
  else
    let c := c.onScreen p (fun s => ({ s with plain := new }).dirtyRows s.mode.shows)
    c.modeChanged p (c.screen p).mode false

/-- SCREEN_MODE is served (R107); for NORMAL and BLANKED first is 0 and last 23. -/
def Chip.serveScreenMode (c : Chip) (p : Fin 12) (m : Mode) (plain : Bool) : Chip :=
  let s := c.screen p
  if s.autoBlanked then
    let c := c.onScreen p (fun s => { s with remembered := some m, askedPlain := plain })
    let new := if s.askedPlain == plain then s.plain else c.plainOf p
    if new == s.plain then c.writeMode p true
    else
      let c := c.onScreen p (fun s => ({ s with plain := new }).dirtyRows s.mode.shows)
      c.modeChanged p s.mode true
  else if s.mode == m && s.askedPlain == plain then c.requestDone
  else
    let c := c.onScreen p (fun s => { s with mode := m, askedPlain := plain })
    let new := if s.askedPlain == plain then s.plain else c.plainOf p
    let c := if new == s.plain then c
      else c.onScreen p (fun s => ({ s with plain := new }).dirtyRows s.mode.shows)
    c.modeChanged p s.mode true

/-- SCREEN_REFRESH is served: all rows dirty, MODE-pending set, DONE (R108). -/
def Chip.serveScreenRefresh (c : Chip) (p : Fin 12) : Chip :=
  ((c.onScreen p (fun s => { s with modePending := true })).markAll p).requestDone

/-- The idle timer of screen `p` restarts (R109). -/
def Chip.restartIdle (c : Chip) (p : Fin 12) : Chip :=
  c.onScreen p (fun s => { s with idleMs := 0, idleExpired := false })

/-- Whether the idle timer of screen `p` has run out and its expiry has not been taken (R109). -/
def Chip.idleDue (c : Chip) (p : Fin 12) : Bool :=
  let t := c.setting .idleBlank
  t != 0 && !(c.screen p).idleExpired && t * 1000 ≤ (c.screen p).idleMs

/-- The idle timer expires: a screen not blanked is auto-blanked (R109). -/
def Chip.idleTimerExpiry (c : Chip) (p : Fin 12) : Chip :=
  if c.idleDue p then
    let s := c.screen p
    let c := c.onScreen p (fun s => { s with idleExpired := true })
    if s.autoBlanked || s.mode.kind == .blanked then c
    else
      let c := c.onScreen p (fun s =>
        { s with remembered := some s.mode, autoBlanked := true, mode := ⟨.blanked, 0, 23⟩ })
      let c := c.modeChanged p s.mode false
      if (c.drop p).sensor == .sensorOpen then c.report .drawerUnattended p.val 0 else c
  else c

/-- A key code is handed to SCU: it restarts the idle timer; on an auto-blanked screen it is the waking key, consumed,
and the remembered mode returns (R110). The answer is whether the key is to be placed. -/
def Chip.scuKey (c : Chip) (p : Fin 12) : Bool × Chip :=
  let c := c.restartIdle p
  let s := c.screen p
  if s.autoBlanked then
    let c := c.onScreen p (fun s =>
      { s with autoBlanked := false, mode := s.remembered.getD .normal, remembered := none })
    (false, c.modeChanged p s.mode false)
  else (true, c)

/-- SCU is told of an attachment: all rows dirty, PLAIN decided, MODE-pending set (R103). -/
def Chip.scuAttached (c : Chip) (p : Fin 12) : Chip :=
  (((c.markAll p).decidePlain p)).onScreen p (fun s => { s with modePending := true })

/-- SCU is told of a line reset, for one of the line's screens (R103). -/
def Chip.scuLineReset (c : Chip) (p : Fin 12) : Chip := (c.abandonSweep p).markAll p

/-! ### The fan-out -/

/-- The positions of BCST_SET in force, ascending (R115). -/
def Chip.broadcastSet (c : Chip) : List (Fin 12) :=
  positions.filter (fun p => c.setting .bcstSet / 2 ^ p.val % 2 == 1)

/-- The fan-out goes to its next screen, or is idle after the last (R115). -/
def Chip.fanNext (c : Chip) : Chip :=
  match c.firstPresent c.scu.fan.screens with
  | some (q, left) => (c.onFan (fun f => { f with screens := left })).addWork (.fanWrite q)
  | none => c.onFan (fun f => { f with phase := .idle, screens := [] })

/-- The fan-out starts when it is idle and the start mark is set (R115); a restart leaves it idle with the mark set
(R116). -/
def Chip.fanOutStart (c : Chip) : Chip :=
  if c.scu.fan.phase == .idle && c.scu.fan.start then
    (c.onFan (fun _ =>
      { phase := .reading, start := false, copy := [], row := c.setting .bcstRow, screens := c.broadcastSet,
        failed := false })).addWork .fanRead
  else c

/-- A burst of the master row read has been answered (R115, R116). -/
def Chip.fanReadAnswered (c : Chip) (burst addr : Nat) (okay : Bool) (data : List Word) : Chip :=
  let c := if okay then c.onFan (fun f => { f with copy := f.copy ++ data })
    else (c.onFan (fun f => { f with failed := true })).reportStore rSCU addr
  if burst == 4 then
    let c := c.scuServed
    if c.scu.fan.start || c.scu.fan.failed then c.onFan (fun f => { f with phase := .idle, screens := [] })
    else (c.onFan (fun f => { f with phase := .writing })).fanNext
  else c

/-- The fan-out is done with a screen: it restarts when the start mark is set, and goes to its next screen otherwise (R115,
R116). -/
def Chip.fanWritten (c : Chip) : Chip :=
  let c := c.scuServed
  if c.scu.fan.start then c.onFan (fun f => { f with phase := .idle, screens := [] }) else c.fanNext

/-- A burst of a fan-out's screen write has been answered (R115, R116). -/
def Chip.fanWriteAnswered (c : Chip) (p : Fin 12) (burst addr : Nat) (okay : Bool) : Chip :=
  let c := if okay then (match finOf 25 c.scu.fan.row with | some r => c.markDirty p r | none => c)
    else c.reportStore rSCU addr
  if burst == 4 then c.fanWritten else c

/-- Whether an own access is a burst of the fan-out's write of an absent screen. -/
def Chip.fanWriteAbsent (c : Chip) (r : OwnReq) : Bool :=
  match r.tag with
  | .fanWrite p _ => !c.screenPresent p
  | _ => false

/-- SCREENS has moved: the bursts still to be granted of a fan-out's write of a screen that is now absent are not made, and
the fan-out passes the screen over (R5, R115). -/
def Chip.dropFanWrites (c : Chip) : Chip :=
  let q : List OwnReq := c.own[rSCU.val]
  if q.any c.fanWriteAbsent then
    ({ c with own := vput c.own rSCU (q.filter (fun r => !c.fanWriteAbsent r)) }).fanWritten
  else c

/-! ### Start-up and placement -/

/-- SCU's writes at the end of LOADING: count and mode words of each present screen, then a status-row entry for every
screen (R117), screen 0 first (DESIGN CHOICE, log 85). -/
def Chip.scuLoaded (c : Chip) : Chip :=
  (positions.foldl (fun c p =>
    if c.screenPresent p then (c.addWork (.count p)).addWork (.mode p false) else c) c).statusEventAll

/-- An accepted SCREENS placement change (R117): a copy into an absent screen stops (R5), sweeps abandoned, rows dirty,
words and status row at the new place. -/
def Chip.scuMoved (c : Chip) : Chip :=
  let c := c.dropFanWrites
  let c := positions.foldl (fun c p =>
    let c := (c.abandonSweep p).markAll p
    let c := c.onScreen p (fun s => { s with rendering := none })
    (c.addWork (.mode p false)).addWork (.count p)) c
  c.statusEventAll

end Sys2Proof.Machine
end

