-- ==== Sys2Proof/Machine/Cash.lean ====
section
/-! DEFINITION. The Cash Unit (05, 10): drawer records, the day record, applying a record, closing and clearing the
day, and rebuild. -/

namespace Sys2Proof.Machine

/-! ### Records in the store -/

/-- A sum's SATURATED flag as a bit. -/
def Sum.bit (s : Sum) : Nat := flagBit s.saturated

/-- The SATURATED flags of a drawer record, in the mirror's order (Table 12-10, Table 12-20). -/
def Drawer.saturatedBits (d : Drawer) : Nat :=
  d.cashIn.bit + 2 * d.cashOut.bit + 4 * d.noncashIn.bit + 8 * d.noncashOut.bit + 16 * d.transferIn.bit
    + 32 * d.transferOut.bit

/-- The six day sums of a drawer record, in the mirror's order. -/
def Drawer.sums (d : Drawer) : List Nat :=
  [d.cashIn.value, d.cashOut.value, d.noncashIn.value, d.noncashOut.value, d.transferIn.value, d.transferOut.value]

/-- The 32 words of a drawer mirror (Table 12-10). -/
def Drawer.mirrorWords (faces : Vector Nat 10) (d : Drawer) : List Word :=
  let present := flagBit d.declared.isSome
  [wd (d.state.code + 256 * flagBit d.excess + 512 * present + 65536 * d.saturatedBits), wd d.recordCount, wd d.lastSeq, 0]
    ++ packHalves d.counts.toList ++ words64 (cashPosition faces d.counts) ++ d.sums.flatMap words64
    ++ (match d.declared with
        | some p => packHalves p.counts.toList ++ wordsSigned64 p.difference
        | none => List.replicate 7 0)
    ++ [0, 0]

/-- The 31 words of the anchor part, 0x040 to 0x0BB (Table 12-2). -/
def DayRecord.anchorWords (d : DayRecord) : List Word :=
  [wd d.state.code, wd d.date, wd d.previousDate, wd d.first] ++ packHalves d.openCounts.toList
    ++ d.closingCounts.toList.map wd
    ++ [wd (flagBit d.damaged + 2 * flagBit d.openingDiff), wd d.batch, wd d.failure.code] ++ List.replicate 9 0

/-- The 16 words of the running part, 0x0C0 to 0x0FF (Table 12-2). -/
def DayRecord.runningWords (d : DayRecord) : List Word :=
  [wd d.next, wd d.recordCount] ++ words64 d.hash ++ words64 d.cashIn.value ++ words64 d.cashOut.value
    ++ words64 d.noncashIn.value ++ words64 d.noncashOut.value ++ wordsSigned64 d.differenceTotal
    ++ [wd (d.cashIn.bit + 2 * d.cashOut.bit + 4 * d.noncashIn.bit + 8 * d.noncashOut.bit
          + 16 * flagBit d.sumsSaturated), 0]

/-- The day-record CRC: over the 124 bytes of the anchor part (R25). -/
def DayRecord.crc (d : DayRecord) : Nat := crc16 (wordsBytes d.anchorWords)

/-- The day record's anchor part as the loading read it, words from 0x040 on, in the day state named (R27). The
running part is zero, its next sequence number the first (R25, R91). -/
def dayOfWords (ws : List Word) (state : DayState) : DayRecord :=
  { DayRecord.reset with
    state := state
    date := (wordAt ws 1).toNat
    previousDate := (wordAt ws 2).toNat
    first := (wordAt ws 3).toNat
    openCounts := vofList 10 0 (unpackHalves ((ws.drop 4).take 5))
    closingCounts := vofList 10 0 (((ws.drop 9).take 10).map (·.toNat))
    damaged := flagAt (wordAt ws 19) 0
    openingDiff := flagAt (wordAt ws 19) 1
    batch := (wordAt ws 20).toNat
    failure := failReasonOfCode (wordAt ws 21).toNat
    next := (wordAt ws 3).toNat }

/-- The day record of a DEFAULTED start-up (R28). -/
def defaultDay : DayRecord := { DayRecord.reset with first := 1, next := 1 }

/-! ### Access to CU's records -/

/-- Drawer record `i`. -/
def Chip.drawer (c : Chip) (i : Fin 13) : Drawer := c.cu.drawers[i.val]

/-- The state of drawer record `i`, if there is one. -/
def CuState.stateOf (cu : CuState) (i : Nat) : Option DrawerState := (cu.drawers.toList[i]?).map (·.state)

/-- Change drawer record `i`; nothing for an index above 12. -/
def CuState.onDrawer (cu : CuState) (i : Nat) (f : Drawer → Drawer) : CuState :=
  match finOf 13 i with
  | some j => { cu with drawers := vupd cu.drawers j f }
  | none => cu

/-- Change the day record. -/
def CuState.onDay (cu : CuState) (f : DayRecord → DayRecord) : CuState := { cu with day := f cu.day }

/-- Change CU's records. -/
def Chip.onCu (c : Chip) (f : CuState → CuState) : Chip := { c with cu := f c.cu }

/-- Whether the day state is CLOSED, SENDING or SENT (R170). -/
def DayState.frozen : DayState → Bool
  | .closed => true | .sending => true | .sent => true | _ => false

/-- The drawer index of a position. -/
def drawerIndex (p : Fin 12) : Fin 13 := ⟨p.val, by omega⟩

/-- The position of a drawer index, none for RESERVE. -/
def positionOf (i : Nat) : Option (Fin 12) := finOf 12 i

/-! ### CU's writes -/

/-- The four bursts of mirror `i`, `k` following the last, at the place TOTALS has when each is granted (R77, log 51). -/
def Chip.mirrorReqs (c : Chip) (i : Fin 13) (k : After) : List OwnReq :=
  let ws := (c.drawer i).mirrorWords c.faces
  (List.range 4).map (fun j =>
    ⟨.totals (128 * i.val + 32 * j) ((ws.drop (8 * j)).take 8), .mirror i j (if j == 3 then k else .nothing), false⟩)

/-- CU writes mirrors whole, in the order given; none with TOTALS disabled (R77). -/
def Chip.writeMirrors (c : Chip) (is : List (Fin 13)) (k : After) : Chip :=
  if c.windowEnabled .totals then
    match is.reverse with
    | [] => c
    | last :: front =>
      (c.pushAll rCU (front.reverse.flatMap (fun i => c.mirrorReqs i .nothing))).pushAll rCU (c.mirrorReqs last k)
  else c

/-- CU writes the running part as two bursts (R79). -/
def Chip.writeRunning (c : Chip) (k : After) : Chip :=
  let ws := c.cu.day.runningWords
  c.pushAll rCU
    [⟨.write (c.setupAddr 0x0C0) (ws.take 8), .running 0 .nothing, false⟩,
     ⟨.write (c.setupAddr 0x0E0) (ws.drop 8), .running 1 k, false⟩]

/-- CU writes the anchor part as bursts of 8, 8, 8 and 7 words; the CRC write, unless a burst failed, and then `k` follow
(R79, R25, R169). The bursts after one answered ERROR are written too (DESIGN CHOICE, log 71). -/
def Chip.writeAnchor (c : Chip) (k : After) : Chip :=
  let ws := c.cu.day.anchorWords
  c.pushAll rCU ((List.range 4).map (fun j =>
    ⟨.write (c.setupAddr (0x040 + 32 * j)) ((ws.drop (8 * j)).take 8), .anchor j (if j == 3 then k else .nothing), false⟩))

/-- An anchor write outside a posting: the running part is written before it if its stale mark is set when that write's
turn comes (R79). -/
def Chip.writeAnchorOutside (c : Chip) (k : After) : Chip :=
  (c.pushAll rCU [⟨.staleRunning 0, .running 0 .nothing, false⟩, ⟨.staleRunning 1, .running 1 .nothing, false⟩]).writeAnchor k

/-- A burst of a mirror has been answered: an ERROR is reported and marks the mirror stale; four OKAYs clear the mark
(R77). -/
def Chip.mirrorAnswered (c : Chip) (i : Fin 13) (burst addr : Nat) (okay : Bool) : Chip :=
  let failed := !okay || (burst != 0 && c.cu.bad[i.val])
  let c := c.onCu (fun cu =>
    { cu with
      bad := vput cu.bad i failed
      stale := vput cu.stale i (if burst == 3 then failed else (cu.stale[i.val] || !okay)) })
  if okay then c else c.reportStore rCU addr

/-- A burst of the running part has been answered (R79). -/
def Chip.runningAnswered (c : Chip) (burst addr : Nat) (okay : Bool) : Chip :=
  let failed := !okay || (burst != 0 && c.cu.runningBad)
  let c := c.onCu (fun cu =>
    { cu with
      runningBad := failed
      runningStale := if burst == 1 then failed else (cu.runningStale || !okay) })
  if okay then c else c.reportStore rCU addr

/-- A burst of the anchor part has been answered: an ERROR is reported, and the part is known to have failed until it is
next written (R169, log 52). -/
def Chip.anchorBurst (c : Chip) (burst addr : Nat) (okay : Bool) : Chip :=
  let failed := !okay || (burst != 0 && c.cu.anchorBad)
  let c := c.onCu (fun cu => { cu with anchorBad := failed })
  if okay then c else c.reportStore rCU addr

/-! ### Notices and EXCESS -/

/-- CU tells the readers of a change of drawer record `i`: the status row is rendered, and a release of a drawer that
is not OPEN is withdrawn (R90, R113, R132). -/
def Chip.drawerNotice (c : Chip) (i : Nat) : Chip :=
  match positionOf i with
  | none => c
  | some p =>
    let c := if (c.drawerOf p).state == .drawerOpen then c else c.withdraw p
    c.statusEvent p

/-- CU tells the readers of the drawer records that have changed since they were as in `before` (R90). -/
def Chip.tellChanged (c : Chip) (before : Vector Drawer 13) : Chip :=
  drawerIndices.foldl (fun c i => if c.drawer i == before[i.val] then c else c.drawerNotice i.val) c

/-- CU tells the readers of a change of the day state: every status row is rendered, and every pulse is withdrawn when
the state is not OPEN (R90, R113, R132). -/
def Chip.dayNotice (c : Chip) : Chip :=
  let c := if c.cu.day.state == .dayOpen then c else positions.foldl (fun c p => c.withdraw p) c
  c.statusEventAll

/-- The EXCESS flag R42 gives drawer `p`: CEILING_p is not 0 and the position is above it. -/
def Chip.excessOf (c : Chip) (p : Fin 12) : Bool :=
  c.ceilingOf p != 0 && c.ceilingOf p < cashPosition c.faces (c.drawerOf p).counts

/-- SCU's bell-pending mark of screen `p` (R114). -/
def Chip.ring (c : Chip) (p : Fin 12) : Chip := c.onScreen p (fun s => { s with bell := true })

/-- CU judges drawer `p`'s EXCESS flag and reports a change with `detail` (R42). -/
def Chip.judgeExcess (c : Chip) (p : Fin 12) (detail : Nat) : Chip :=
  let new := c.excessOf p
  if new == (c.drawerOf p).excess then c
  else
    let c := c.onCu (·.onDrawer p.val (fun d => { d with excess := new }))
    if new then (c.report .excessSet p.val detail).ring p else c.report .excessCleared p.val detail

/-- Drawer `p`'s flag judged without a report (R42, R86). -/
def Chip.judgeQuietly (c : Chip) (p : Fin 12) : Chip :=
  c.onCu (·.onDrawer p.val (fun d => { d with excess := c.excessOf p }))

/-- The flags judged without reports, at the end of rebuild (R86, R97). -/
def Chip.judgeAllQuietly (c : Chip) : Chip := positions.foldl (fun c p => c.judgeQuietly p) c

/-- An accepted write has changed CEILING_p: judged unless the unit is rebuilding or the day is frozen (R42, R86); a
change rewrites the mirror and re-renders the row. -/
def Chip.ceilingChanged (c : Chip) (p : Fin 12) : Chip :=
  if c.su.unitState != .ready || c.cu.day.state.frozen then c
  else
    let before := (c.drawerOf p).excess
    let c := c.judgeExcess p 0
    if (c.drawerOf p).excess == before then c
    else (c.drawerNotice p.val).writeMirrors [drawerIndex p] .nothing

/-! ### The checks on drawer records -/

/-- Whether a drawer state is one a record needs. -/
def stateIn (s : Option DrawerState) (ok : List DrawerState) : Bool :=
  match s with
  | some t => ok.contains t
  | none => false

/-- The first drawer record of a list whose state is not among those needed. -/
def firstWrong (cu : CuState) (ok : List DrawerState) : List Nat → Option Nat
  | [] => none
  | i :: rest => if stateIn (cu.stateOf i) ok then firstWrong cu ok rest else some i

/-- Checks 11 and 16: the index of the first drawer record whose state is wrong (Table 4-5, R72). -/
def wrongState (cu : CuState) (k : RecordKind) (original : Option RecordKind) (slot target : Nat) : Option Nat :=
  match k with
  | .openDrawer => firstWrong cu [.unused] [slot]
  | .cashIn | .cashOut | .noncashIn | .noncashOut => firstWrong cu [.drawerOpen] [slot]
  | .transfer => firstWrong cu [.drawerOpen] [slot, target]
  | .declare => firstWrong cu [.drawerOpen, .difference] [slot]
  | .acceptDifference => firstWrong cu [.difference] [target]
  | .reopen => firstWrong cu [.balanced] [target]
  | .void => firstWrong cu [.drawerOpen] (if original == some .transfer then [slot, target] else [slot])
  | .dayOpen | .note => none

/-- The drawer record counts are removed from (Table 3-2). -/
def removedFrom (k : RecordKind) (original : Option RecordKind) (slot target : Nat) : Option Nat :=
  match k, original with
  | .cashOut, _ => some slot
  | .transfer, _ => some slot
  | .void, some .cashIn => some slot
  | .void, some .transfer => some target
  | _, _ => none

/-- The drawer record counts are added to (Table 3-2). -/
def addedTo (k : RecordKind) (original : Option RecordKind) (slot target : Nat) : Option Nat :=
  match k, original with
  | .cashIn, _ => some slot
  | .transfer, _ => some target
  | .void, some .cashOut => some slot
  | .void, some .transfer => some slot
  | _, _ => none

/-- The counts of drawer record `i`. -/
def CuState.countsOf (cu : CuState) (i : Nat) : Vector Nat 10 :=
  match cu.drawers.toList[i]? with
  | some d => d.counts
  | none => zeroCounts

/-- Check 17 (R41): the lowest denomination that would fall below 0. -/
def shortCheck (cu : CuState) (k : RecordKind) (r : JRecord) : Option Nat :=
  (removedFrom k r.original r.position r.target).bind (fun i => shortDenom (cu.countsOf i) r.counts)

/-- Check 18 (R41): the lowest denomination that would rise above 65,535. -/
def limitCheck (cu : CuState) (k : RecordKind) (r : JRecord) : Option Nat :=
  (addedTo k r.original r.position r.target).bind (fun i => countLimit (cu.countsOf i) r.counts)

/-! ### Applying a record -/

/-- Counts added to a drawer record. -/
def Drawer.gain (d : Drawer) (cs : Vector Nat 10) : Drawer := { d with counts := addCounts d.counts cs }

/-- Counts removed from a drawer record. -/
def Drawer.lose (d : Drawer) (cs : Vector Nat 10) : Drawer := { d with counts := subCounts d.counts cs }

/-- The last sequence number of a drawer record (R43). -/
def Drawer.touched (d : Drawer) (seq : Nat) : Drawer := { d with lastSeq := seq }

/-- A DECLARE of these counts (R83, R47). -/
def Drawer.declareCounts (faces : Vector Nat 10) (d : Drawer) (cs : Vector Nat 10) : Drawer :=
  if sameCounts cs d.counts then { d with state := .balanced, declared := none }
  else
    { d with
      state := .difference
      declared := some ⟨cs, (cashPosition faces cs : Int) - (cashPosition faces d.counts : Int)⟩ }

/-- An ACCEPT_DIFFERENCE of a drawer record (R84). -/
def Drawer.accept (d : Drawer) : Drawer :=
  { d with counts := (d.declared.map (·.counts)).getD d.counts, declared := none, state := .balanced }

/-- The difference a drawer record holds, 0 without a declared part. -/
def CuState.differenceOf (cu : CuState) (i : Nat) : Int :=
  match (cu.drawers.toList[i]?).bind (·.declared) with
  | some p => p.difference
  | none => 0

/-- The effect of a VOID, by the kind of its original (Table 5-3). -/
def CuState.applyVoid (cu : CuState) (r : JRecord) : CuState :=
  match r.original with
  | some .cashIn =>
    (cu.onDrawer r.position (fun d => { d.lose r.counts with cashIn := d.cashIn.lower r.amount })).onDay
      (fun d => { d with cashIn := d.cashIn.lower r.amount })
  | some .cashOut =>
    (cu.onDrawer r.position (fun d => { d.gain r.counts with cashOut := d.cashOut.lower r.amount })).onDay
      (fun d => { d with cashOut := d.cashOut.lower r.amount })
  | some .noncashIn =>
    (cu.onDrawer r.position (fun d => { d with noncashIn := d.noncashIn.lower r.amount })).onDay
      (fun d => { d with noncashIn := d.noncashIn.lower r.amount })
  | some .noncashOut =>
    (cu.onDrawer r.position (fun d => { d with noncashOut := d.noncashOut.lower r.amount })).onDay
      (fun d => { d with noncashOut := d.noncashOut.lower r.amount })
  | some .transfer =>
    (cu.onDrawer r.target (fun d =>
      ({ d.lose r.counts with transferIn := d.transferIn.lower r.amount }).touched r.seq)).onDrawer r.position
      (fun d => { d.gain r.counts with transferOut := d.transferOut.lower r.amount })
  | _ => cu

/-- The kind's own effect on the drawer records and the branch sums (R43, R80 to R85, R88). -/
def CuState.applyKind (cu : CuState) (faces : Vector Nat 10) (k : RecordKind) (r : JRecord) : CuState :=
  match k with
  | .dayOpen => cu.onDrawer 12 (fun d => { d with state := .drawerOpen, counts := r.counts })
  | .openDrawer => cu.onDrawer r.position (fun d => { d with state := .drawerOpen })
  | .cashIn =>
    (cu.onDrawer r.position (fun d => { d.gain r.counts with cashIn := d.cashIn.add r.amount })).onDay
      (fun d => { d with cashIn := d.cashIn.add r.amount })
  | .cashOut =>
    (cu.onDrawer r.position (fun d => { d.lose r.counts with cashOut := d.cashOut.add r.amount })).onDay
      (fun d => { d with cashOut := d.cashOut.add r.amount })
  | .noncashIn =>
    (cu.onDrawer r.position (fun d => { d with noncashIn := d.noncashIn.add r.amount })).onDay
      (fun d => { d with noncashIn := d.noncashIn.add r.amount })
  | .noncashOut =>
    (cu.onDrawer r.position (fun d => { d with noncashOut := d.noncashOut.add r.amount })).onDay
      (fun d => { d with noncashOut := d.noncashOut.add r.amount })
  | .transfer =>
    (cu.onDrawer r.position (fun d => { d.lose r.counts with transferOut := d.transferOut.add r.amount })).onDrawer
      r.target (fun d => ({ d.gain r.counts with transferIn := d.transferIn.add r.amount }).touched r.seq)
  | .void => cu.applyVoid r
  | .declare => cu.onDrawer r.position (fun d => d.declareCounts faces r.counts)
  | .acceptDifference =>
    (cu.onDay (fun d => { d with differenceTotal := diffTotalAdd d.differenceTotal (cu.differenceOf r.target) })).onDrawer
      r.target (fun d => d.accept.touched r.seq)
  | .reopen => cu.onDrawer r.target (fun d => ({ d with state := .drawerOpen }).touched r.seq)
  | .note => cu

/-- Whether a drawer record holds a saturated sum. -/
def Drawer.anySaturated (d : Drawer) : Bool := d.saturatedBits != 0

/-- Whether any sum of Table 3-3 is saturated or the difference total stands at its bound (R44, R47). -/
def CuState.anySaturated (cu : CuState) : Bool :=
  cu.drawers.toList.any (·.anySaturated) || cu.day.cashIn.saturated || cu.day.cashOut.saturated
    || cu.day.noncashIn.saturated || cu.day.noncashOut.saturated || diffTotalBound cu.day.differenceTotal

/-- The change of a record (R79, stage 1): the kind's effect, the slot's drawer's record count and last sequence
number, the day's record count, hash total and next sequence number, SUMS_SATURATED (R43, R44, R46). -/
def CuState.applyRecord (cu : CuState) (faces : Vector Nat 10) (k : RecordKind) (r : JRecord) : CuState :=
  let cu := cu.applyKind faces k r
  let cu := cu.onDrawer r.position (fun d => { d with recordCount := d.recordCount + 1, lastSeq := r.seq })
  let cu := cu.onDay (fun d =>
    { d with recordCount := d.recordCount + 1, hash := hashAdd d.hash r.amount, next := seqAfter r.seq })
  cu.onDay (fun d => { d with sumsSaturated := d.sumsSaturated || cu.anySaturated })

/-- The day record's anchor fields a posted DAY_OPEN sets (R88), with OPENING_DIFF judged (R89). -/
def DayRecord.opened (d : DayRecord) (r : JRecord) : DayRecord :=
  { d with
    state := .dayOpen
    date := r.reference
    first := r.seq
    openCounts := r.counts
    batch := 0
    failure := .none
    openingDiff := d.previousDate != 0 && !sameCounts r.counts d.closingCounts }

/-- The drawer records a record touches besides the slot's drawer (R79). -/
def touchedTarget (k : RecordKind) (r : JRecord) : List Nat :=
  match k with
  | .transfer => [r.target]
  | .acceptDifference => [r.target]
  | .reopen => [r.target]
  | .void => if r.original == some .transfer then [r.target] else []
  | _ => []

/-- The drawer records whose counts a record changes, slot's drawer first (R42, R79). -/
def countsChanged (k : RecordKind) (r : JRecord) : List Nat :=
  match k with
  | .cashIn => [r.position]
  | .cashOut => [r.position]
  | .transfer => [r.position, r.target]
  | .acceptDifference => [r.target]
  | .void => match r.original with
    | some .cashIn => [r.position]
    | some .cashOut => [r.position]
    | some .transfer => [r.position, r.target]
    | _ => []
  | _ => []

/-- The reports of the kind itself: DIFFERENCE of a DECLARE, OPENING_DIFF of a DAY_OPEN (R83, R89). -/
def Chip.kindReports (c : Chip) (k : RecordKind) (r : JRecord) : Chip :=
  match k with
  | .declare =>
    if c.cu.stateOf r.position == some .difference then
      let c := c.report .difference r.position r.seq
      match positionOf r.position with | some p => c.ring p | none => c
    else c
  | .dayOpen => if c.cu.day.openingDiff then c.report .openingDiff 12 r.seq else c
  | _ => c

/-- Stage 1 of step 7: CU puts the record's change in place, reports and tells the readers (R79, R90). -/
def Chip.applyChange (c : Chip) (k : RecordKind) (r : JRecord) : Chip :=
  let c := c.onCu (·.applyRecord c.faces k r)
  let c := if k == .dayOpen then c.onCu (·.onDay (·.opened r)) else c
  let c := c.kindReports k r
  let c := (countsChanged k r).foldl (fun c i =>
    match positionOf i with | some p => c.judgeExcess p r.seq | none => c) c
  let c := ((r.position :: touchedTarget k r).eraseDups).foldl (fun c i => c.drawerNotice i) c
  if k == .dayOpen then c.dayNotice else c

/-- The mirrors stage 2 writes: those of the records touched and any stale one, in index order (R77, R79). -/
def Chip.mirrorsToWrite (c : Chip) (touched : List Nat) : List (Fin 13) :=
  drawerIndices.filter (fun i => touched.contains i.val || c.cu.stale[i.val])

/-- Stage 2 of step 7: mirrors, running part, and the anchor part for a DAY_OPEN (R79). -/
def Chip.applyWrites (c : Chip) (k : RecordKind) (r : JRecord) : Chip :=
  let c := c.writeMirrors (c.mirrorsToWrite (r.position :: touchedTarget k r)) .nothing
  if k == .dayOpen then (c.writeRunning .nothing).writeAnchor .posting else c.writeRunning .posting

/-- APPLY_RECORD: CU takes the record JU has handed it (R79). -/
def Chip.applyPosted (c : Chip) : Chip :=
  match c.ju.posting with
  | some po =>
    if po.phase == .handed then
      match recordKindOfCode po.record.code with
      | some k =>
        let c := { c with ju := { c.ju with posting := some { po with phase := .applying } } }
        (c.applyChange k po.record).applyWrites k po.record
      | none => c
    else c
  | none => c

/-- CU is asked to mark the day DAMAGED (R87); MARK_DAMAGED takes the request. -/
def Chip.askDamage (c : Chip) (detail : Nat) : Chip := c.onCu (fun cu => { cu with damage := cu.damage ++ [detail] })

/-- MARK_DAMAGED: CU sets the flag, reports, and writes the anchor part; during rebuild it writes nothing then
(R87). -/
def Chip.markDamaged (c : Chip) : Chip :=
  match c.cu.damage with
  | [] => c
  | detail :: rest =>
    let c := c.onCu (fun cu => { cu with damage := rest })
    if c.cu.day.damaged then c
    else
      let c := (c.onCu (·.onDay (fun d => { d with damaged := true }))).report .dayDamaged 0 detail
      match c.cu.walk with
      | some w => c.onCu (fun cu => { cu with walk := some { w with anchorChanged := true } })
      | none => c.writeAnchorOutside .nothing

/-- Every damage request still waiting is taken; the end of rebuild takes them before its writes (R87, R97). -/
def Chip.takeDamage (c : Chip) : Chip := c.cu.damage.foldl (fun c _ => c.markDamaged) c

/-! ### The day's transitions -/

/-- Whether a queue is not empty or a request is in service: the lowest such printer (R139, pending at all). -/
def Chip.pendingAtAll (c : Chip) : Option (Fin 4) :=
  printers.find? (fun n => !c.pru.printers[n.val].queue.isEmpty || c.pru.printers[n.val].service.isSome)

/-- Closing count of a denomination: the sum over the thirteen records (R169). -/
def CuState.totalCount (cu : CuState) (d : Fin 10) : Nat := cu.drawers.toList.foldl (fun acc r => acc + countAt r.counts d) 0

/-- The counts summed over the thirteen records. -/
def CuState.totalCounts (cu : CuState) : Vector Nat 10 := countsBy cu.totalCount

/-- The lowest drawer that is OPEN or DIFFERENCE (Table 10-2, check 2). -/
def CuState.unbalanced (cu : CuState) : Option (Fin 12) :=
  positions.find? (fun p => cu.drawers[p.val].state == .drawerOpen || cu.drawers[p.val].state == .difference)

/-- CLOSE_DAY is served (R168, R169). -/
def Chip.serveCloseDay (c : Chip) : Chip :=
  if c.cu.day.state != .dayOpen then c.requestRefused .dayState 0
  else match c.cu.unbalanced with
    | some p => c.requestRefused .drawerNotBalanced p.val
    | none =>
      if (c.drawer 12).state != .balanced then c.requestRefused .reserveNotBalanced 12
      else match c.pendingAtAll with
        | some n => c.requestRefused .printPending n.val
        | none =>
          let c := c.onCu (fun cu => cu.onDay (fun d => { d with closingCounts := cu.totalCounts, state := .closed }))
          c.dayNotice.writeAnchorOutside .request

/-- The day becomes SENDING (R171). -/
def Chip.daySending (c : Chip) : Chip := (c.onCu (·.onDay (fun d => { d with state := .sending }))).dayNotice

/-- HLC reports an ACCEPTED verdict with a batch number (R172). -/
def Chip.daySent (c : Chip) (batch : Nat) : Chip :=
  if c.cu.day.state == .sending then
    ((c.onCu (·.onDay (fun d => { d with batch := batch, state := .sent }))).dayNotice).writeAnchorOutside .nothing
  else c

/-- HLC reports that the send has failed (R173). -/
def Chip.dayFailed (c : Chip) (why : FailReason) : Chip :=
  if c.cu.day.state == .sending then
    (((c.onCu (·.onDay (fun d => { d with failure := why, state := .closed }))).dayNotice).report .sendFailed 0
      why.code).writeAnchorOutside .nothing
  else c

/-- The day record after CLEAR_DAY (Table 10-5). -/
def DayRecord.clearDay (d : DayRecord) : DayRecord :=
  { d with
    state := .noDay, previousDate := d.date, date := 0, first := d.next, openCounts := zeroCounts, damaged := false,
    openingDiff := false, recordCount := 0, hash := 0, cashIn := .zero, cashOut := .zero, noncashIn := .zero,
    noncashOut := .zero, sumsSaturated := false, differenceTotal := 0 }

/-- A drawer record after CLEAR_DAY, its EXCESS flag not yet judged (Table 10-5). -/
def Drawer.clearDay (d : Drawer) : Drawer := { Drawer.reset with excess := d.excess }

/-- CLEAR_DAY is served by CU and JU: the change of records, the EXCESS judgement, positions 0 to 11 in order (DESIGN
CHOICE, log 78), the notices, JU's marks, and the first of the writes (R174, R175, R75). -/
def Chip.serveClearDay (c : Chip) : Chip :=
  if c.cu.day.state != .sent then c.requestRefused .dayState 0
  else
    let c := c.takeDamage
    let c := c.onCu (fun cu => { cu with day := cu.day.clearDay, drawers := vmap Drawer.clearDay cu.drawers })
    let c := positions.foldl (fun c p => c.judgeExcess p 0) c
    let c := (drawerIndices.foldl (fun c i => c.drawerNotice i.val) c).dayNotice
    let c := { c with ju := { c.ju with nearFull := false, overflowMark := false, unstamped := [] } }
    c.writeAnchorOutside .clearStore

/-- After CLEAR_DAY's CRC write: the running part and all thirteen mirrors (R175). -/
def Chip.clearStore (c : Chip) : Chip :=
  if c.windowEnabled .totals then (c.writeRunning .nothing).writeMirrors drawerIndices .clearSlots
  else c.writeRunning .clearSlots

/-! ### Start-up and rebuild -/

/-- CU at the end of LOADING in NO_DAY: all mirrors and the running part are written (Table 5-10); after a DEFAULTED
start-up the anchor part first, its CRC written in any case (R28). -/
def Chip.cuLoadedNoDay (c : Chip) (defaulted : Bool) : Chip :=
  let c := if defaulted then c.writeAnchor .defaults else c
  (c.writeMirrors drawerIndices .nothing).writeRunning .nothing

/-- The walk, when it stands at a phase. -/
def CuState.walkIn (cu : CuState) (ph : WalkPhase) : Option Walk := cu.walk.filter (·.phase == ph)

/-- The walk stops or ends (R92, R94). -/
def Chip.walkEnds (c : Chip) (w : Walk) : Chip :=
  c.onCu (fun cu => { cu with walk := some { w with phase := .ended } })

/-- The walk stops DAMAGED at the expected sequence number (R94). -/
def Chip.walkDamaged (c : Chip) (w : Walk) : Chip :=
  let c := (c.onCu (·.onDay (fun d => { d with damaged := true, next := w.expected }))).report .dayDamaged 0 w.expected
  c.walkEnds { w with stopped := true, anchorChanged := true }

/-- Rebuild begins (R91). -/
def Chip.rebuildStart (c : Chip) : Chip :=
  let c := c.onCu (fun cu => { cu with drawers := Vector.replicate 13 .reset })
  let c := c.onCu (·.onDay (fun d =>
    { d with next := d.first, recordCount := 0, hash := 0, cashIn := .zero, cashOut := .zero, noncashIn := .zero,
             noncashOut := .zero, sumsSaturated := false, differenceTotal := 0 }))
  let w : Walk := { expected := c.cu.day.first, count := 0, phase := .ready, stopped := false, anchorChanged := false }
  if c.ap.journalUsable then c.onCu (fun cu => { cu with walk := some w }) else c.walkDamaged w

/-- Address of word `w` of the ring slot of a sequence number (R64). -/
def Chip.ringAddr (c : Chip) (seq w : Nat) : Nat := c.journalAddr (1024 + 48 * ringSlot seq c.capacity + 4 * w)

/-- REBUILD_WALK_STEP: case 1 ends the journal; otherwise the first read is made (R92). -/
def Chip.rebuildWalkStep (c : Chip) : Chip :=
  match c.cu.walk with
  | some w =>
    if w.phase == .ready then
      if w.count == c.capacity then c.walkEnds w
      else (c.onCu (fun cu => { cu with walk := some { w with phase := .reading } })).push rCU
        (.read (c.ringAddr w.expected 0) 4 8) .walkA
    else c
  | none => c

/-- Whether Table 4-3 allows a kind from a slot. -/
def slotAllows (k : RecordKind) (slot : Nat) : Bool :=
  match k with
  | .dayOpen => slot == 12
  | .openDrawer => slot < 12
  | .acceptDifference => slot == 12
  | .reopen => slot == 12
  | _ => slot ≤ 12

/-- Whether the checks of a re-application fail on CU's records as walked (R92). -/
def reapplyFails (cu : CuState) (k : RecordKind) (r : JRecord) : Bool :=
  (wrongState cu k r.original r.position r.target).isSome || (shortCheck cu k r).isSome || (limitCheck cu k r).isSome

/-- The flags of the drawers whose counts a walked record changed are judged, without reports (R42, R91). -/
def Chip.judgeWalked (c : Chip) (is : List Nat) : Chip :=
  is.foldl (fun c i => match positionOf i with | some p => c.judgeQuietly p | none => c) c

/-- Case 7: the record is applied, its drawers' EXCESS flags judged, and the walk moves on (R92, R42). -/
def Chip.walkApply (c : Chip) (w : Walk) (k : RecordKind) (r : JRecord) : Chip :=
  let c := (c.onCu (·.applyRecord c.faces k r)).judgeWalked (countsChanged k r)
  c.onCu (fun cu => { cu with walk := some { w with expected := seqAfter w.expected, count := w.count + 1, phase := .ready } })

/-- The record read at the expected number is judged (Table 5-8, cases 3 to 7); a VOID first has its original read
(R93). -/
def Chip.walkJudge (c : Chip) (w : Walk) (ws : List Word) : Chip :=
  let r := recordOfWords ws
  let stamp := wordAt ws 11
  if stampStatus stamp == .free || r.seq != w.expected then c.walkEnds w
  else if recordCrc ws != stampCrc stamp then c.walkDamaged w
  else if w.expected == c.cu.day.first && !(r.code == 1 && r.reference == c.cu.day.date) then c.walkDamaged w
  else match recordKindOfCode r.code with
    | none => c.walkDamaged w
    | some k =>
      if !slotAllows k r.position || (k == .dayOpen && w.expected != c.cu.day.first) then c.walkDamaged w
      else if k == .void then
        if seqInDay c.cu.day.first w.expected r.reference then
          c.push rCU (.read (c.ringAddr r.reference 0) 4 8) (.walkOrigA ws)
        else c.walkDamaged w
      else if reapplyFails c.cu k r then c.walkDamaged w
      else c.walkApply w k r

/-- Whether a kind may be voided (R71). -/
def RecordKind.voidable : RecordKind → Bool
  | .cashIn => true | .cashOut => true | .noncashIn => true | .noncashOut => true | .transfer => true | _ => false

/-- The VOID of the walk with its original read: judged, applied, and a POSTED original's stamp repaired (R93), a print state
that names nothing as NOT_BOOK (DESIGN CHOICE, log 82). -/
def Chip.walkVoid (c : Chip) (w : Walk) (ws orig : List Word) : Chip :=
  let r := recordOfWords ws
  let o := recordOfWords orig
  let stamp := wordAt orig 11
  match recordKindOfCode o.code with
  | none => c.walkDamaged w
  | some ok =>
    let r := { r with original := some ok }
    if o.seq != r.reference || recordCrc orig != stampCrc stamp || !ok.voidable || o.position != r.position then
      c.walkDamaged w
    else if reapplyFails c.cu .void r then c.walkDamaged w
    else
      let c := c.walkApply w .void r
      if stampStatus stamp == .posted then
        let w' : Walk := { w with expected := seqAfter w.expected, count := w.count + 1, phase := .reading }
        (c.onCu (fun cu => { cu with walk := some w' })).push rCU
          (.write (c.ringAddr r.reference 11) [stampWord (stampCrc stamp) (stampPrint stamp) .voided])
          (.walkRepair r.reference)
      else c

/-- JU's unstamped VOID list takes a number, or sets the overflow mark and asks for DAMAGED (R73, R93). -/
def Chip.addUnstamped (c : Chip) (r : Nat) : Chip :=
  if c.ju.unstamped.length < Config.unstampedMax then
    { c with ju := { c.ju with unstamped := c.ju.unstamped ++ [r] } }
  else ({ c with ju := { c.ju with overflowMark := true } }).askDamage r

/-- A read or the repair of the walk in progress has been answered. -/
def Chip.walkAnswered (c : Chip) (tag : Tag) (okay : Bool) (addr : Nat) (data : List Word) : Chip :=
  match c.cu.walkIn .reading with
  | none => c
  | some w =>
    match tag with
    | .walkA =>
      if okay then c.push rCU (.read (addr + 32) 4 4) (.walkB data) else c.walkDamaged w
    | .walkB a => if okay then c.walkJudge w (a ++ data) else c.walkDamaged w
    | .walkOrigA ws => if okay then c.push rCU (.read (addr + 32) 4 4) (.walkOrigB ws data) else c.walkDamaged w
    | .walkOrigB ws o => if okay then c.walkVoid w ws (o ++ data) else c.walkDamaged w
    | .walkRepair r =>
      let c := if okay then c else (c.reportStore rCU addr).addUnstamped r
      c.onCu (fun cu => { cu with walk := some { w with phase := .ready } })
    | _ => c

/-- Whether a walked frozen day reproduces the closed day (R95). -/
def Chip.closedDayConfirmed (c : Chip) (w : Walk) : Bool :=
  !w.stopped && (c.drawer 12).state == .balanced && c.cu.unbalanced.isNone
    && sameCounts c.cu.totalCounts c.cu.day.closingCounts

/-- A drawer record of a frozen day that was not confirmed (R95). -/
def Drawer.settle (d : Drawer) : Drawer :=
  if d.state == .drawerOpen || d.state == .difference then { d with state := .balanced, declared := none } else d

/-- A frozen day is confirmed against its closing counts, or marked DAMAGED and its drawers balanced (R95), the readers
being told of each drawer record changed (R90). -/
def Chip.confirmClosed (c : Chip) (w : Walk) : Chip :=
  if !c.cu.day.state.frozen || c.closedDayConfirmed w then c
  else
    let before := c.cu.drawers
    let c := (c.onCu (·.onDay (fun d => { d with damaged := true }))).report .dayDamaged 0 w.expected
    let c := c.onCu (fun cu => { cu with drawers := vmap Drawer.settle cu.drawers })
    let c := c.onCu (·.onDrawer 12 (fun d => if d.state == .unused then { d with state := .balanced } else d))
    (c.onCu (fun cu => { cu with walk := cu.walk.map (fun w => { w with anchorChanged := true }) })).tellChanged before

/-- Address of word `w` of posting slot `k` (R54). -/
def Chip.slotAddr (c : Chip) (k w : Nat) : Nat := c.journalAddr (48 * k + 4 * w)

/-- The end of rebuild from R97 step 1 to step 3: a SENDING day fails and its readers are told (R90, R167), the flags are
judged, the readers of each drawer record this changes are told (R90), everything is written back. -/
def Chip.rebuildFinish (c : Chip) : Chip :=
  let sending := c.cu.day.state == .sending
  let changed := sending || (match c.cu.walk with | some w => w.anchorChanged | none => false)
  let c := if sending then
      ((c.onCu (·.onDay (fun d => { d with state := .closed, failure := .reset }))).dayNotice).report .sendFailed 0
        FailReason.reset.code
    else c
  let c := (c.judgeAllQuietly.tellChanged c.cu.drawers).writeMirrors drawerIndices .nothing
  if changed then (c.writeRunning .nothing).writeAnchor .rebuild else c.writeRunning .rebuild

/-- CU goes on to posting slot `k` of the resolution, or to the end after the thirteenth (R96), slots 0 to 12 in order, each
ended before the next (DESIGN CHOICE, log 75); with the JOURNAL window not usable no slot is read (DESIGN CHOICE, log 59). -/
def Chip.rebuildSlot (c : Chip) (k : Nat) : Chip :=
  if k < 13 && c.ap.journalUsable then c.push rCU (.read (c.slotAddr k 11) 4 1) (.rebSlot k) else c.rebuildFinish

/-- REBUILD_END: the walk has ended; a frozen day is confirmed and the posting slots are resolved (R95, R96). -/
def Chip.rebuildEnd (c : Chip) : Chip :=
  match c.cu.walk with
  | some w =>
    if w.phase == .ended then
      let c := c.takeDamage.onCu (fun cu => { cu with walk := cu.walk.map (fun w => { w with phase := .finishing }) })
      (c.confirmClosed w).rebuildSlot 0
    else c
  | none => c

/-- The day's number whose least significant 24 bits are `s`, if any (R96). -/
def Chip.dayNumber24 (c : Chip) (s : Nat) : Option Nat :=
  let first := c.cu.day.first
  ((List.range (seqDistance first c.cu.day.next)).find? (fun k => seqPlus first k % 0x1000000 == s)).map (seqPlus first)

/-- An access of the slot resolution at the end of rebuild has been answered OKAY, or ERROR (R96). -/
def Chip.rebuildSlotNext (c : Chip) (tag : Tag) (okay : Bool) (addr : Nat) (data : List Word) : Chip :=
  match tag with
  | .rebSlot k =>
    let w := wordAt data 0
    if okay && field w 24 8 == 1 then
      match c.dayNumber24 (field w 0 24) with
      | some s => c.push rCU (.read (c.ringAddr s 0) 4 2) (.rebFind k s)
      | none => c.push rCU (.write addr [outcomeLost (field w 0 24)]) (.rebOutcome k)
    else c.rebuildSlot (k + 1)
  | .rebFind k s =>
    if okay then
      if field (wordAt data 1) 8 4 == k then c.push rCU (.write (c.slotAddr k 0) [wd s]) (.rebWord0 k s)
      else c.push rCU (.write (c.slotAddr k 11) [outcomeLost s]) (.rebOutcome k)
    else c.rebuildSlot (k + 1)
  | .rebWord0 k s =>
    if okay then c.push rCU (.write (c.slotAddr k 11) [outcomePosted s]) (.rebOutcome k) else c.rebuildSlot (k + 1)
  | .rebOutcome k => c.rebuildSlot (k + 1)
  | _ => c

/-- An access of the slot resolution has been answered: an ERROR is reported, and the resolution of the rebuild that is
finishing goes on (R96). -/
def Chip.rebuildSlotAnswered (c : Chip) (tag : Tag) (okay : Bool) (addr : Nat) (data : List Word) : Chip :=
  let c := if okay then c else c.reportStore rCU addr
  if (c.cu.walkIn .finishing).isSome then c.rebuildSlotNext tag okay addr data else c

/-- Whether the near-full condition holds: record count times 10 at least capacity times 9 (R69). -/
def Chip.nearFullMet (c : Chip) : Bool := c.capacity * 9 ≤ c.cu.day.recordCount * 10

/-- Steps 4 and 5 of the end of rebuild (R97): REBUILD_DONE, JU takes the next sequence number and its near-full mark
(R57), and the unit state becomes READY (R29). -/
def Chip.rebuildEnds (c : Chip) : Chip :=
  let c := c.report .rebuildDone 0 c.cu.day.next
  let c := { c with ju := { c.ju with nextSeq := c.cu.day.next, nearFull := c.nearFullMet } }
  let c := c.onCu (fun cu => { cu with walk := none })
  let c := { c with su := { c.su with unitState := .ready } }
  (c.writeStatus 0x008 (wd UnitState.ready.code)).statusEventAll

/-- The last of CU's writes of a rebuild that is finishing has been answered (R97). -/
def Chip.rebuildDone (c : Chip) : Chip := if (c.cu.walkIn .finishing).isSome then c.rebuildEnds else c

end Sys2Proof.Machine
end

