-- ==== Sys2Proof/Machine/Journal.lean ====
section
/-! DEFINITION. The Journal Unit (04): validation, the steps of a posting, slot resolution, and the record reads and
stamps it serves for the Print Unit. -/

namespace Sys2Proof.Machine

/-- Change JU's state. -/
def Chip.onJu (c : Chip) (f : JuState → JuState) : Chip := { c with ju := f c.ju }

/-- Change the posting in progress. -/
def Chip.onPosting (c : Chip) (f : Posting → Posting) : Chip :=
  c.onJu (fun j => { j with posting := j.posting.map f })

/-- Whether a sequence number is one of the day's (R69). -/
def Chip.inDay (c : Chip) (s : Nat) : Bool := seqInDay c.cu.day.first c.ju.nextSeq s

/-! ### Validation -/

/-- A refusal: the reason and its detail (R63). -/
abbrev Refuse := Option (Reason × Nat)

/-- The first check of a list that refuses (R59). -/
def firstRefusal : List Refuse → Refuse
  | [] => none
  | some r :: _ => some r
  | none :: rest => firstRefusal rest

/-- A check without a detail. -/
def refuseIf (b : Bool) (r : Reason) : Refuse := if b then some (r, 0) else none

/-- A check whose detail names what failed. -/
def refuseAt (n : Option Nat) (r : Reason) : Refuse := n.map (fun d => (r, d))

/-- Check 2: DAY_STATE (R60). A DAMAGED marking asked for and not yet taken by CU counts as made: it refuses every later
posting (R73, R87). -/
def dayStateCheck (cu : CuState) (code : Nat) : Refuse :=
  refuseIf (match cu.day.state with
    | .noDay => code != 1
    | .dayOpen => code == 1 || cu.day.damaged || !cu.damage.isEmpty
    | _ => true) .dayState

/-- Checks 1 to 5 (Table 4-4). -/
def Chip.firstChecks (c : Chip) (slot : Fin 13) (code : Nat) : Refuse :=
  firstRefusal
    [ refuseIf (c.su.unitState == .rebuilding) .notReady
    , dayStateCheck c.cu code
    , refuseIf (recordKindOfCode code).isNone .badKind
    , refuseIf (match recordKindOfCode code with | some k => !slotAllows k slot.val | none => true) .wrongSlot
    , refuseIf (c.cu.day.recordCount == c.capacity || slotTaken c.cu.day.first c.ju.nextSeq c.capacity) .journalFull ]

/-- The classes of R40. -/
def RecordKind.cashCarrying : RecordKind → Bool
  | .dayOpen => true | .cashIn => true | .cashOut => true | .transfer => true | .declare => true | _ => false

/-- Amount-only kinds (R40). -/
def RecordKind.amountOnly : RecordKind → Bool
  | .noncashIn => true | .noncashOut => true | _ => false

/-- Kinds without money (R40). -/
def RecordKind.noMoney : RecordKind → Bool
  | .openDrawer => true | .note => true | .reopen => true | .acceptDifference => true | _ => false

/-- Checks 6 to 9 (R39, R40). -/
def amountChecks (faces : Vector Nat 10) (k : RecordKind) (r : JRecord) : Refuse :=
  firstRefusal
    [ refuseIf (Config.amountCap < r.amount) .amountRange
    , refuseAt (unusedDenom faces r.counts) .unusedDenom
    , refuseIf ((k.amountOnly && anyCount r.counts) || (k.noMoney && (anyCount r.counts || r.amount != 0)))
        .countsNotAllowed
    , refuseIf (k.cashCarrying && cashPosition faces r.counts != r.amount) .denomMismatch ]

/-- Check 10: BAD_TARGET, with the target as its detail (R60). -/
def targetCheck (k : RecordKind) (slot : Fin 13) (target : Nat) : Refuse :=
  let bad := match k with
    | .transfer => 12 < target || target == slot.val
    | .acceptDifference => 12 < target
    | .reopen => 11 < target
    | _ => false
  if bad then some (.badTarget, target % 65536) else none

/-- Check 12: BAD_DATE (R62). -/
def badDate (v : Nat) : Bool :=
  let year := v / 10000
  let month := v / 100 % 100
  let day := v % 100
  year == 0 || 9999 < year || month == 0 || 12 < month || day == 0 || 31 < day

/-- Checks 12 and 13, of a DAY_OPEN (R62). -/
def dateChecks (d : DayRecord) (k : RecordKind) (v : Nat) : Refuse :=
  if k == .dayOpen then
    firstRefusal [refuseIf (badDate v) .badDate, refuseIf (d.previousDate != 0 && v ≤ d.previousDate) .dateNotAfter]
  else none

/-- The fields of a record after JU's own filling (R54, R64): its number, the slot's index, no target for kinds that
have none. -/
def fillRecord (k : RecordKind) (slot : Fin 13) (seq : Nat) (r : JRecord) : JRecord :=
  let targeted := match k with
    | .transfer => true | .acceptDifference => true | .reopen => true | .void => true | _ => false
  { r with seq := seq, position := slot.val, target := if targeted then r.target else 0 }

/-- Checks 6 to 13, 17 and 18 of a record that is not a VOID (Table 4-4). -/
def Chip.recordChecks (c : Chip) (k : RecordKind) (slot : Fin 13) (r : JRecord) : Refuse :=
  firstRefusal
    [ amountChecks c.faces k r
    , targetCheck k slot r.target
    , refuseAt (wrongState c.cu k none slot.val r.target) .drawerState
    , dateChecks c.cu.day k r.reference
    , refuseAt (shortCheck c.cu k { r with position := slot.val }) .shortDenom
    , refuseAt (limitCheck c.cu k { r with position := slot.val }) .countLimit ]

/-- Whether a print request naming a record is QUEUED or PRINTING in any printer (R72). -/
def Chip.printPending (c : Chip) (seq : Nat) : Bool :=
  printers.any (fun n =>
    let p := c.pru.printers[n.val]
    p.queue.any (·.seq == seq) || (match p.service with | some v => v.entry.seq == seq | none => false))

/-- Check 14 on the original as read (R71, item 3). -/
def Chip.voidRefBad (c : Chip) (slot : Fin 13) (ref : Nat) (orig : List Word) : Bool :=
  let o := recordOfWords orig
  let stamp := wordAt orig 11
  let voidable := match recordKindOfCode o.code with | some k => k.voidable | none => false
  o.seq != ref || recordCrc orig != stampCrc stamp || stampStatus stamp != .posted || c.ju.unstamped.contains ref
    || !voidable || o.position != slot.val

/-- A VOID with its original's target, BOOK flag, amount and counts copied in (R72). -/
def copyOriginal (r : JRecord) (orig : List Word) : JRecord :=
  let o := recordOfWords orig
  { r with
    target := o.target, book := o.book, amount := o.amount, counts := o.counts,
    original := recordKindOfCode o.code }

/-- Checks 15 to 18 of a VOID, on the copy (R72). -/
def Chip.voidChecks (c : Chip) (slot : Fin 13) (r : JRecord) : Refuse :=
  firstRefusal
    [ refuseIf (c.printPending r.reference) .printPending
    , refuseAt (wrongState c.cu .void r.original slot.val r.target) .drawerState
    , refuseAt (shortCheck c.cu .void { r with position := slot.val }) .shortDenom
    , refuseAt (limitCheck c.cu .void { r with position := slot.val }) .countLimit ]

/-! ### The posting -/

/-- JU asks for one access of the posting. -/
def Chip.post (c : Chip) (op : OwnOp) (st : PostStep) : Chip := c.push rJU op (.post st)

/-- JU refuses the commit: the outcome is written, then the host answered (R63). -/
def Chip.refusePosting (c : Chip) (slot : Fin 13) (r : Reason) (detail : Nat) : Chip :=
  c.post (.write (c.slotAddr slot.val 11) [outcomeRefused r detail]) .refused

/-- The slot is read (R59). -/
def Chip.readSlot (c : Chip) (slot : Fin 13) : Chip :=
  (c.onPosting (fun po => { po with phase := .running })).post (.read (c.slotAddr slot.val 0) 4 8) .readA

/-- JU holds a COMMIT: the posting starts, or waits for a slot resolution under way (R56, R57). -/
def Chip.commitHeld (c : Chip) (slot : Fin 13) : Chip :=
  let c := c.onJu (fun j =>
    { j with posting := some { slot := slot, phase := .waiting, words := [], orig := [], record := .blank } })
  if c.ju.resolving == 0 then c.readSlot slot else c

/-- Step 3: IN_POSTING(seq) (Table 4-6). -/
def Chip.stepThree (c : Chip) (po : Posting) : Chip :=
  c.post (.write (c.slotAddr po.slot.val 11) [outcomeInPosting po.record.seq]) .inPosting

/-- Word 11 of ring slot `k` of the capacity in force. -/
def Chip.ringStampAt (c : Chip) (k : Nat) : Nat := c.journalAddr (1024 + 48 * k + 44)

/-- Every check has passed: the record takes the next sequence number and its steps begin; a DAY_OPEN with no previous
day's date first clears the ring (R64, R67). -/
def Chip.acceptPosting (c : Chip) (po : Posting) (k : RecordKind) (r : JRecord) : Chip :=
  let po := { po with record := fillRecord k po.slot c.ju.nextSeq r }
  let c := c.onJu (fun j => { j with posting := some po })
  if k == .dayOpen && c.cu.day.previousDate == 0 then c.post (.write (c.ringStampAt 0) [0]) (.clear 0)
  else c.stepThree po

/-- The record as read is validated (R59): refused, accepted, or, for a VOID, its original is read (R71). -/
def Chip.validate (c : Chip) (po : Posting) : Chip :=
  let r := recordOfWords po.words
  match c.firstChecks po.slot r.code, recordKindOfCode r.code with
  | some (why, detail), _ => c.refusePosting po.slot why detail
  | none, none => c.refusePosting po.slot .badKind 0
  | none, some .void =>
    if c.inDay r.reference then c.post (.read (c.ringAddr r.reference 0) 4 8) .origA
    else c.refusePosting po.slot .voidRef 0
  | none, some k =>
    match c.recordChecks k po.slot r with
    | some (why, detail) => c.refusePosting po.slot why detail
    | none => c.acceptPosting po k r

/-- The original of a VOID has been read (R71, R72). -/
def Chip.validateVoid (c : Chip) (po : Posting) : Chip :=
  let r := recordOfWords po.words
  if c.voidRefBad po.slot r.reference po.orig then c.refusePosting po.slot .voidRef 0
  else
    let r := copyOriginal r po.orig
    match c.voidChecks po.slot r with
    | some (why, detail) => c.refusePosting po.slot why detail
    | none => c.acceptPosting po .void r

/-- The print state step 5 writes (R64). -/
def firstPrintState (book : Bool) : PrintState := if book then .notPrinted else .notBook

/-- The record is handed to CU for step 7 (R64). -/
def Chip.handOver (c : Chip) : Chip := c.onPosting (fun po => { po with phase := .handed })

/-- Near full: after step 7 (R69). -/
def Chip.judgeNearFull (c : Chip) (seq : Nat) : Chip :=
  if !c.ju.nearFull && c.nearFullMet then (c.onJu (fun j => { j with nearFull := true })).report .journalNearFull 0 seq
  else c

/-- Step 8 begins: CU has finished step 7 (R64, R69). -/
def Chip.postingApplied (c : Chip) : Chip :=
  match c.ju.posting with
  | some po =>
    (c.judgeNearFull po.record.seq).post (.write (c.slotAddr po.slot.val 0) [wd po.record.seq]) .word0
  | none => c

/-- The posting ends and the held write is answered (R63, R64). -/
def Chip.postingEnds (c : Chip) (okay : Bool) : Chip := (c.onJu (fun j => { j with posting := none })).answerHost okay []

/-- A STORE_ERROR report of JU, when the answer is ERROR. -/
def Chip.juReport (c : Chip) (okay : Bool) (addr : Nat) : Chip := if okay then c else c.reportStore rJU addr

/-- What follows a posting's access answered OKAY: the next step of Table 4-6. The ring is cleared from slot 0 up (R67;
DESIGN CHOICE, log 76), and a VOIDED stamp has a print state that names nothing as NOT_BOOK (R73, R196; DESIGN CHOICE,
log 82). -/
def Chip.postNext (c : Chip) (po : Posting) (st : PostStep) (data : List Word) : Chip :=
  let seq := po.record.seq
  match st with
  | .readA =>
    (c.onPosting (fun po => { po with words := data })).post (.read (c.slotAddr po.slot.val 8) 4 3) .readB
  | .readB =>
    let po := { po with words := po.words ++ data }
    (c.onJu (fun j => { j with posting := some po })).validate po
  | .origA =>
    (c.onPosting (fun po => { po with orig := data })).post
      (.read (c.ringAddr (recordOfWords po.words).reference 8) 4 4) .origB
  | .origB =>
    let po := { po with orig := po.orig ++ data }
    (c.onJu (fun j => { j with posting := some po })).validateVoid po
  | .clear k =>
    if k + 1 < c.capacity then c.post (.write (c.ringStampAt (k + 1)) [0]) (.clear (k + 1)) else c.stepThree po
  | .inPosting => c.post (.write (c.ringAddr seq 11) [0]) .free
  | .free => c.post (.write (c.ringAddr seq 0) (po.record.words.take 8)) .recA
  | .recA => c.post (.write (c.ringAddr seq 8) (po.record.words.drop 8)) .recB
  | .recB =>
    c.post (.write (c.ringAddr seq 11)
      [stampWord (recordCrc po.record.words) (firstPrintState po.record.book) .posted]) .stamp
  | .stamp =>
    let c := c.onJu (fun j => { j with nextSeq := seqAfter seq })
    if po.record.code == RecordKind.void.code then
      let stamp := wordAt po.orig 11
      c.post (.write (c.ringAddr po.record.reference 11) [stampWord (stampCrc stamp) (stampPrint stamp) .voided]) .voided
    else c.handOver
  | .voided => c.handOver
  | .word0 => c.post (.write (c.slotAddr po.slot.val 11) [outcomePosted seq]) .outcome
  | .outcome => c.postingEnds true
  | .refused => c.postingEnds false

/-- What follows a posting's access answered ERROR: before the commit point the posting is refused; from step 6 on the
error is reported and the posting goes on (R59, R63, R65, R67, R71, R73). -/
def Chip.postError (c : Chip) (po : Posting) (st : PostStep) (addr : Nat) : Chip :=
  match st with
  | .voided => ((c.reportStore rJU addr).addUnstamped po.record.reference).postNext po .voided []
  | .word0 => (c.reportStore rJU addr).postNext po .word0 []
  | .outcome => (c.reportStore rJU addr).postNext po .outcome []
  | .refused => (c.reportStore rJU addr).postNext po .refused []
  | _ => c.refusePosting po.slot .storeError 0

/-- An access of the posting has been answered. -/
def Chip.postAnswered (c : Chip) (st : PostStep) (okay : Bool) (addr : Nat) (data : List Word) : Chip :=
  match c.ju.posting with
  | some po => if okay then c.postNext po st data else c.postError po st addr
  | none => c

/-! ### Slot resolution -/

/-- Address of the outcome word of slot `k` in a JOURNAL window at `base`. -/
def outcomeAddr (base k : Nat) : Nat := base + 48 * k + 44

/-- JU reads the outcome of slot `k` of the resolution, or ends it, at once when the journal is no longer usable (R3); a
waiting commit then starts (R57). A resolution whose window has moved goes on at the old place (DESIGN CHOICE, log 55). -/
def Chip.resolveFrom (c : Chip) (k base : Nat) : Chip :=
  if k < 13 && c.ap.journalUsable then c.push rJU (.read (outcomeAddr base k) 4 1) (.slotRead k base)
  else
    let c := c.onJu (fun j => { j with resolving := j.resolving - 1 })
    match c.ju.posting with
    | some po => if c.ju.resolving == 0 && po.phase == .waiting then c.readSlot po.slot else c
    | none => c

/-- The thirteen slots are resolved at the place the window has (R57). -/
def Chip.resolveSlots (c : Chip) : Chip :=
  (c.onJu (fun j => { j with resolving := j.resolving + 1 })).resolveFrom 0 (c.windowBase .journal)

/-- An outcome word has been read: IN_POSTING(s) becomes LOST(s), written before the next slot is read; slots 0 to 12 in
order (R57; DESIGN CHOICE, log 75). -/
def Chip.slotReadAnswered (c : Chip) (k base : Nat) (okay : Bool) (addr : Nat) (data : List Word) : Chip :=
  let c := c.juReport okay addr
  let w := wordAt data 0
  if okay && field w 24 8 == 1 && c.ap.journalUsable then
    c.push rJU (.write addr [outcomeLost (field w 0 24)]) (.slotLost k base)
  else c.resolveFrom (k + 1) base

/-- A LOST outcome has been written (R57). -/
def Chip.slotLostAnswered (c : Chip) (k base : Nat) (okay : Bool) (addr : Nat) : Chip :=
  (c.juReport okay addr).resolveFrom (k + 1) base

/-- Whether an own access is one of a slot resolution. -/
def Tag.resolves : Tag → Bool
  | .slotRead _ _ => true
  | .slotLost _ _ => true
  | _ => false

/-- The JOURNAL window is no longer usable: the accesses of a slot resolution still to be granted are not made (R3,
R57). -/
def Chip.stopResolving (c : Chip) : Chip :=
  let q : List OwnReq := c.own[rJU.val]
  ({ c with own := vput c.own rJU (q.filter (fun r : OwnReq => !r.tag.resolves)) }).onJu (fun j =>
    { j with resolving := j.resolving - (q.filter (fun r : OwnReq => r.tag.resolves)).length })

/-- JU takes over at the end of a LOADING that ends in NO_DAY (R57). -/
def Chip.juLoadedNoDay (c : Chip) : Chip :=
  let c := c.onJu (fun j => { j with nextSeq := c.cu.day.first, nearFull := false })
  if c.ap.journalUsable then c.resolveSlots else c

/-- JU's writes of CLEAR_DAY: thirteen EMPTY outcomes, slots 0 to 12 in order (DESIGN CHOICE, log 77); the request ends
with the last (R75, R175). -/
def Chip.clearSlots (c : Chip) : Chip :=
  if c.ap.journalUsable then
    c.pushAll rJU ((List.range 13).map (fun k => ⟨.write (c.slotAddr k 11) [outcomeEmpty], .slotEmpty (k == 12), false⟩))
  else c.requestDone

/-- An EMPTY outcome has been written (R75). -/
def Chip.slotEmptyAnswered (c : Chip) (last : Bool) (okay : Bool) (addr : Nat) : Chip :=
  let c := c.juReport okay addr
  if last then c.requestDone else c

/-! ### Record reads and stamps for the Print Unit -/

/-- JU's answer to a record read (R74). -/
inductive RecAnswer where
  | notInDay
  | storeError
  | record (r : JRecord) (status : StampStatus) (print : PrintState)
  deriving DecidableEq, Repr

/-- An answer for the Print Unit, with who asked. -/
abbrev RecReply := Option (ReadFor × RecAnswer)

/-- PRU asks for a record: a number outside the day is answered at once (R74). -/
def Chip.recordRead (c : Chip) (who : ReadFor) (s : Nat) : Chip × RecReply :=
  if c.inDay s then (c.push rJU (.read (c.ringAddr s 0) 4 8) (.recordA who s), none) else (c, some (who, .notInDay))

/-- The status JU answers with: VOIDED by the stamp, by the unstamped list, or, for a submission under the overflow
mark, by the kind (R73, R74). -/
def Chip.statusOf (c : Chip) (who : ReadFor) (s code : Nat) (stamp : Word) : StampStatus :=
  let voidable := match recordKindOfCode code with | some k => k.voidable | none => false
  if c.ju.unstamped.contains s || (who == .submission && c.ju.overflowMark && voidable) then .voided
  else stampStatus stamp

/-- The record has been read: answered, or, for a VOID, its original is read too (R74). -/
def Chip.recordJudge (c : Chip) (who : ReadFor) (s : Nat) (ws : List Word) : Chip × RecReply :=
  let r := recordOfWords ws
  let stamp := wordAt ws 11
  if r.seq != s || stampStatus stamp == .free then (c, some (who, .storeError))
  else if r.code == RecordKind.void.code then
    (c.push rJU (.read (c.ringAddr r.reference 0) 4 8) (.originalA who ws r.reference), none)
  else (c, some (who, .record r (c.statusOf who s r.code stamp) (stampPrint stamp)))

/-- The original of a VOID has been read for the Print Unit, in the same way as a record (R74, R196). -/
def Chip.originalJudge (c : Chip) (who : ReadFor) (rec : List Word) (ref : Nat) (ws : List Word) : RecReply :=
  let r := recordOfWords rec
  let o := recordOfWords ws
  let stamp := wordAt rec 11
  if o.seq != ref || stampStatus (wordAt ws 11) == .free then some (who, .storeError)
  else
    some (who, .record { r with original := recordKindOfCode o.code } (c.statusOf who r.seq r.code stamp)
      (stampPrint stamp))

/-- A read of a record read has been answered (R74). -/
def Chip.recordAnswered (c : Chip) (tag : Tag) (okay : Bool) (addr : Nat) (data : List Word) : Chip × RecReply :=
  match tag with
  | .recordA who s =>
    if okay then (c.push rJU (.read (addr + 32) 4 4) (.recordB who s data), none) else (c, some (who, .storeError))
  | .recordB who s w => if okay then c.recordJudge who s (w ++ data) else (c, some (who, .storeError))
  | .originalA who rec ref =>
    if okay then (c.push rJU (.read (addr + 32) 4 4) (.originalB who rec ref data), none)
    else (c, some (who, .storeError))
  | .originalB who rec ref w => (c, if okay then c.originalJudge who rec ref (w ++ data) else some (who, .storeError))
  | _ => (c, none)

/-- PRU asks for a print-state stamp (R74). -/
def Chip.askStamp (c : Chip) (n : Fin 4) (seq : Nat) (ps : PrintState) : Chip :=
  c.onJu (fun j => { j with stamps := j.stamps ++ [⟨n, seq, ps⟩] })

/-- PRINT_STATE_STAMP: JU takes the request at the head of the list (R74). -/
def Chip.printStateStamp (c : Chip) : Chip :=
  match c.ju.stamping, c.ju.stamps with
  | false, r :: _ =>
    (c.onJu (fun j => { j with stamping := true })).push rJU (.read (c.ringAddr r.seq 0) 4 1) .stampWord0
  | _, _ => c

/-- What JU tells the Print Unit when a stamp request ends: STAMPED or NOT_STAMPED (R74). -/
abbrev StampReply := Option (Fin 4 × Bool)

/-- The stamp request at the head has ended (R74). -/
def Chip.stampEnds (c : Chip) (r : StampReq) (stamped : Bool) : Chip × StampReply :=
  (c.onJu (fun j => { j with stamps := j.stamps.drop 1, stamping := false }), some (r.printer, stamped))

/-- An access of the stamp request at the head has been answered (R74). -/
def Chip.stampAnswered (c : Chip) (tag : Tag) (okay : Bool) (addr : Nat) (data : List Word) : Chip × StampReply :=
  match c.ju.stamps with
  | [] => (c, none)
  | r :: _ =>
    let c := c.juReport okay addr
    if !okay then c.stampEnds r false
    else match tag with
      | .stampWord0 =>
        (c.push rJU (.read (c.ringAddr r.seq 11) 4 1) (.stampRead ((wordAt data 0).toNat == r.seq)), none)
      | .stampRead held =>
        let stamp := wordAt data 0
        if c.cu.day.state == .dayOpen && held && stampPrint stamp != .notBook then
          (c.push rJU (.write (c.ringAddr r.seq 11) [stampWord (stampCrc stamp) r.state (stampStatus stamp)])
            .stampWrite, none)
        else c.stampEnds r false
      | _ => c.stampEnds r true

/-! ### The end of CU's writes -/

/-- What follows the last of CU's writes (R79, R169, R175, R97). -/
def Chip.runAfter (c : Chip) (k : After) : Chip :=
  match k with
  | .nothing => c
  | .defaults => c
  | .posting => c.postingApplied
  | .request => c.requestDone
  | .clearStore => c.clearStore
  | .clearSlots => c.clearSlots
  | .rebuild => c.rebuildDone

end Sys2Proof.Machine
end

