-- ==== Sys2Proof/Machine/Lines.lean ====
section
/-! DEFINITION. The screen line controllers (07): turns, frames, answers, terminals, keys, sensors and releases. -/

namespace Sys2Proof.Machine

/-! ### Lines, drops and positions -/

/-- A screen line. -/
def Chip.line (c : Chip) (l : Fin 3) : Line := c.slc.lines[l.val]

/-- Change a screen line. -/
def Chip.onLine (c : Chip) (l : Fin 3) (f : Line → Line) : Chip :=
  { c with slc := { c.slc with lines := vupd c.slc.lines l f } }

/-- The position of drop `d` of line `l` (R118). -/
def posOf (l : Fin 3) (d : Fin 4) : Fin 12 := ⟨4 * l.val + d.val, by omega⟩

/-- The line of a position (R118). -/
def lineOf (p : Fin 12) : Fin 3 := ⟨p.val / 4, by omega⟩

/-- The drop of a position on its line (R118). -/
def dropOf (p : Fin 12) : Fin 4 := ⟨p.val % 4, by omega⟩

/-- CLK periods of a bit at a rate (R119). -/
def bitClk : Nat → Nat
  | 19200 => 1250 | 76800 => 313 | 153600 => 156 | _ => 625

/-- CLK periods of a character time of a line (R119). -/
def Line.charClk (ln : Line) : Nat := 10 * bitClk ln.rate

/-- A word of the control area written by the line controller of position `p`, when its screen is present; an ERROR is
reported (R130, R134). A screen that SCREENS moves before the grant, and that is still present, gets the word at its old
place (DESIGN CHOICE, log 53). -/
def Chip.writeControl (c : Chip) (p : Fin 12) (off : Nat) (w : Word) : Chip :=
  if c.screenPresent p then c.push (rSLC (lineOf p)) (.write (c.screenAddr p off) [w]) (.screenWord p)
  else c

/-- The terminal state word (Table 12-14). -/
def Drop.terminalWord (d : Drop) : Word :=
  wd (d.terminal.code + 256 * flagBit d.colour + 65536 * d.keyboard.toNat + 16777216 * d.revision.toNat)

/-- The controller writes the terminal state word. -/
def Chip.writeTerminal (c : Chip) (p : Fin 12) : Chip := c.writeControl p 4008 (c.drop p).terminalWord

/-- The key write index word (R128, Table 12-14), its index named. -/
def Drop.keyWordAt (d : Drop) (index : Nat) : Word := wd (index + 256 * flagBit d.overflow)

/-- The key write index word as the controller holds it. -/
def Drop.keyWord (d : Drop) : Word := d.keyWordAt d.writeIndex

/-- The controller writes the key write index word as it holds it when the write is granted (R128, R129). -/
def Chip.writeKeyWord (c : Chip) (p : Fin 12) : Chip :=
  if c.screenPresent p then c.push (rSLC (lineOf p)) (.keyWord p (c.screenAddr p 4016)) .plain else c

/-! ### Frames -/

/-- The type codes of frames the part sends (Table 12-18). -/
def LineFrameKind.code : LineFrameKind → Nat
  | .row _ => 1 | .mode => 2 | .poll => 3 | .identReq => 4 | .bell => 5

/-- The CRC-16 of bytes, most significant byte first (R197). -/
def crcBytes (bytes : List Byte) : List Byte :=
  match crc16 bytes with
  | v => [BitVec.ofNat 8 (v / 256), BitVec.ofNat 8 v]

/-- A screen-line frame: start byte, drop address, type, length, payload, CRC (R118, Table 12-18). -/
def lineBytes (d : Nat) (type : Nat) (payload : List Byte) : List Byte :=
  let body := [BitVec.ofNat 8 d, BitVec.ofNat 8 type, BitVec.ofNat 8 payload.length] ++ payload
  [0xA5] ++ body ++ crcBytes body

/-- A frame built for a drop, not yet sent. -/
def mkFrame (d : Fin 4) (k : LineFrameKind) (payload : List Byte) : LineFrame :=
  { kind := k, bytes := lineBytes d.val k.code payload, sends := 0 }

/-- The payload of a MODE frame: mode, first, last and PLAIN in force (R118). -/
def Screen.modePayload (s : Screen) : List Byte :=
  [BitVec.ofNat 8 s.mode.kind.code, BitVec.ofNat 8 s.mode.first, BitVec.ofNat 8 s.mode.last, BitVec.ofNat 8 (flagBit s.plain)]

/-- The bytes at even places of a list, and those at odd places. -/
def splitCells : List Byte → List Byte × List Byte
  | a :: b :: rest => (a :: (splitCells rest).1, b :: (splitCells rest).2)
  | _ => ([], [])

/-- An attribute byte under PLAIN keeps inverse and underline alone (R105, section 12.5). -/
def plainAttr (b : Byte) : Byte := b &&& 3

/-- The payload of a ROW frame (R118, Table 12-18). -/
def rowPayload (r : Fin 25) (plain : Bool) (ws : List Word) : List Byte :=
  let cs := splitCells (wordsBytes ws)
  BitVec.ofNat 8 r.val :: cs.1 ++ (if plain then cs.2.map plainAttr else cs.2)

/-! ### Turns -/

/-- What a drop sends at its turn (R124). -/
inductive TurnChoice where
  | resend (f : LineFrame)
  | identReq | mode
  | row (r : Fin 25)
  | bell | poll
  deriving DecidableEq, Repr

/-- Whether the POLL of position `p` is due (R124, item 6). -/
def Chip.pollDue (c : Chip) (p : Fin 12) : Bool :=
  (c.drop p).terminal == .attached && c.setting .pollInterval ≤ (c.drop p).sinceExchange

/-- Whether an attach attempt of position `p` is due (R124, item 2). -/
def Chip.attachDue (c : Chip) (p : Fin 12) : Bool :=
  ((c.drop p).terminal == .detached || (c.drop p).terminal == .lost) && (c.drop p).attachIn == 0

/-- The frame position `p` sends at its turn, by precedence; none when it has nothing to send (R124). A frame awaiting
resend goes first also when its screen has become absent (DESIGN CHOICE, log 57). -/
def Chip.choose (c : Chip) (p : Fin 12) : Option TurnChoice :=
  let shown := (c.drop p).terminal == .attached && c.screenPresent p
  match (c.drop p).resend with
  | some f => some (.resend f)
  | none =>
    if c.attachDue p then some .identReq
    else if shown && (c.screen p).modePending then some .mode
    else match (if shown then c.nextRow p else none) with
      | some r => some (.row r)
      | none =>
        if shown && (c.screen p).bell then some .bell
        else if c.pollDue p then some .poll
        else none

/-- The drops in rotation order from the one after the pointer to the pointer itself (R123). -/
def rotationFrom (d : Fin 4) : List (Fin 4) := [d + 1, d + 2, d + 3, d]

/-- The first drop of a list that has something to send, with its choice (R123). -/
def Chip.findTurn (c : Chip) (l : Fin 3) : List (Fin 4) → Option (Fin 4 × TurnChoice)
  | [] => none
  | d :: rest =>
    match c.choose (posOf l d) with
    | some t => some (d, t)
    | none => c.findTurn l rest

/-- A frame takes the line and waits for the gap (R119). -/
def Chip.takeLine (c : Chip) (l : Fin 3) (d : Fin 4) (f : LineFrame) : Chip :=
  c.onLine l (fun ln => { ln with pointer := d, use := .gap d f })

/-- A burst of the row read of position `p` (R101). -/
def Chip.readRowBurst (c : Chip) (p : Fin 12) (r : Fin 25) (burst : Nat) (w : List Word) : Chip :=
  c.push (rSLC (lineOf p)) (.read (c.screenAddr p (160 * r.val + 32 * burst)) 4 8)
    (.rowRead p burst (c.line (lineOf p)).epoch w)

/-- A drop is served with its choice (R123, R124); marks are cleared as the frame is handed over (log 17). -/
def Chip.serveTurn (c : Chip) (l : Fin 3) (d : Fin 4) (t : TurnChoice) : Chip :=
  let p := posOf l d
  match t with
  | .resend f => (c.onDrop p (fun x => { x with resend := none })).takeLine l d f
  | .identReq => c.takeLine l d (mkFrame d .identReq [])
  | .mode =>
    (c.onScreen p (fun s => { s with modePending := false })).takeLine l d (mkFrame d .mode (c.screen p).modePayload)
  | .row r =>
    ((c.takeRow p r).onLine l (fun ln => { ln with pointer := d, use := .reading d r })).readRowBurst p r 0 []
  | .bell => (c.onScreen p (fun s => { s with bell := false })).takeLine l d (mkFrame d .bell [])
  | .poll => c.takeLine l d (mkFrame d .poll [])

/-- Whether the controller of line `l` may look for a turn: not in LOADING nor before its key rings are set (R134,
log 23), and with the line free (R123). -/
def Chip.lineMayTurn (c : Chip) (l : Fin 3) : Bool :=
  c.su.unitState != .loading && (c.line l).initLeft == 0 && (c.line l).use == .free

/-- LINE_TURN: the free line serves the next drop with something to send, or stays idle (R123). -/
def Chip.lineTurn (c : Chip) (l : Fin 3) : Chip :=
  if c.lineMayTurn l then
    match c.findTurn l (rotationFrom (c.line l).pointer) with
    | some (d, t) => c.serveTurn l d t
    | none => c
  else c

/-- A burst of a row read has been answered: the next is read, or the ROW frame is built; an ERROR ends the turn
without a frame (R101, R102, R124). A read that was abandoned is ignored. -/
def Chip.rowReadAnswered (c : Chip) (p : Fin 12) (burst epoch : Nat) (w : List Word) (okay : Bool) (addr : Nat)
    (data : List Word) : Chip :=
  let l := lineOf p
  if epoch != (c.line l).epoch then (if okay then c else c.reportStore (rSLC l) addr)
  else match (c.line l).use with
    | .reading d r =>
      if !okay then
        (((c.reportStore (rSLC l) addr).rowEnds p false).onLine l (fun ln => { ln with use := .free }))
      else if burst < 4 then c.readRowBurst p r (burst + 1) (w ++ data)
      else c.takeLine l d (mkFrame d (.row r) (rowPayload r (c.screen p).plain (w ++ data)))
    | _ => c

/-- LINE_GAP_EXPIRY: the gap has passed and the frame starts going out with DIR active; an IDENT_REQ makes the terminal
ATTACHING (R119, R120, R125). -/
def Chip.lineGapExpiry (c : Chip) (l : Fin 3) : Chip :=
  let ln := c.line l
  match ln.use with
  | .gap d f =>
    if ln.gap * ln.charClk ≤ ln.quiet then
      let f := { f with sends := f.sends + 1 }
      let c := c.onLine l (fun ln =>
        { ln with use := .sending d f (f.bytes.length * ln.charClk) (c.setting (.replyTime l)), quiet := 0 })
      if f.kind == .identReq then c.onDrop (posOf l d) (fun x => { x with terminal := .attaching, attachIn := 1000 })
      else c
    else c
  | _ => c

/-- FRAME_SENT: at the stop bit of the last byte the line turns to receive and the reply time starts (R119, R120). -/
def Chip.frameSent (c : Chip) (l : Fin 3) : Chip :=
  match (c.line l).use with
  | .sending d f 0 reply => c.onLine l (fun ln => { ln with use := .awaiting d f reply, quiet := 0 })
  | _ => c

/-- DIR of line `l`: active while the controller sends, to the end of the byte in progress of a frame stopped (R119,
R133). -/
def Chip.dirActive (c : Chip) (l : Fin 3) : Bool :=
  match (c.line l).use with
  | .sending _ _ _ _ => true
  | .stopping _ _ _ => true
  | _ => false

/-- The level of TXD of line `l`: the bits of the frame being sent, or of the byte in progress of a frame stopped; else the
idle level (R119, R133, R197). -/
def Chip.txd (c : Chip) (l : Fin 3) : Bool :=
  match (c.line l).use with
  | .sending _ f left _ => serialLevel f.bytes (bitClk (c.line l).rate) left
  | .stopping b bit left => serialLevel [b] bit left
  | _ => true

/-! ### The drawer sensor -/

/-- The open-too-long attention set or cleared, and SCU told (R130). -/
def Chip.setAttention (c : Chip) (p : Fin 12) (on : Bool) : Chip :=
  (c.onDrop p (fun x => { x with attention := on })).statusEvent p

/-- A reading of the sensor, or its becoming UNKNOWN (R130). -/
def Chip.setSensor (c : Chip) (p : Fin 12) (s : Sensor) : Chip :=
  if (c.drop p).sensor == s then c
  else
    let c := (c.onDrop p (fun x => { x with sensor := s })).writeControl p 4012 (wd s.code)
    match s with
    | .sensorOpen =>
      let t := c.setting .openLong
      if (c.drop p).attention || t == 0 then c else c.onDrop p (fun x => { x with openTimer := some (t * 1000) })
    | .shut =>
      let c := c.onDrop p (fun x => { x with openTimer := none })
      if (c.drop p).attention then c.setAttention p false else c
    | .unknown => c.onDrop p (fun x => { x with openTimer := none })

/-- OPEN_LONG_EXPIRY: the timer has run out (R130). -/
def Chip.openLongExpiry (c : Chip) (p : Fin 12) : Chip :=
  if (c.drop p).openTimer == some 0 then
    ((c.onDrop p (fun x => { x with openTimer := none })).report .drawerOpenLong p.val 0).setAttention p true
  else c

/-! ### Releases -/

/-- The condition of R131 that fails first, if any. -/
def Chip.releaseRefusal (c : Chip) (p : Fin 12) : Option Reason :=
  if c.cu.day.state != .dayOpen then some .dayState
  else if (c.drawerOf p).state != .drawerOpen then some .drawerState
  else if (c.drop p).terminal != .attached then some .noTerminal
  else if (c.screen p).mode.kind == .blanked then some .blanked
  else none

/-- DRWREL_p becomes active, or its pulse restarts (R131). -/
def Chip.pulse (c : Chip) (p : Fin 12) : Chip :=
  c.onDrop p (fun x => { x with pulse := some (c.setting .releaseTime) })

/-- DRAWER_RELEASE is served (R131). -/
def Chip.serveDrawerRelease (c : Chip) (p : Fin 12) : Chip :=
  match c.releaseRefusal p with
  | some r => c.requestRefused r p.val
  | none => (c.pulse p).requestDone

/-- RELEASE_PULSE_END: the pulse's time has run out (R132). -/
def Chip.releasePulseEnd (c : Chip) (p : Fin 12) : Chip :=
  if (c.drop p).pulse == some 0 then c.withdraw p else c

/-- The DRWREL output of a position (R132). -/
def Chip.drwrel (c : Chip) (p : Fin 12) : Bool := (c.drop p).pulse.isSome

/-! ### Keys -/

/-- The reserved key code DRAWER (R127). -/
def drawerKey : BitVec 16 := 0xFFFF

/-- Unread keys of a ring (R128). -/
def Drop.unread (d : Drop) : Nat := (d.writeIndex + 32 - d.readIndex) % 32

/-- The controller places the keys of its work list, one at a time (R128). A key is taken, and the ring judged full or not,
when its place in the list comes (R129; DESIGN CHOICE, log 56). -/
def Chip.placeFrom (c : Chip) (l : Fin 3) : List KeyJob → Chip
  | [] => c.onLine l (fun ln => { ln with keys := [] })
  | j :: rest =>
    let p := posOf l j.drop
    if !c.screenPresent p then c.placeFrom l rest
    else if 16 ≤ (c.drop p).unread then
      if (c.drop p).overflow then c.placeFrom l rest
      else
        (((c.onDrop p (fun x => { x with overflow := true })).writeKeyWord p).report .keysDropped p.val 0).placeFrom l rest
    else
      (c.onLine l (fun ln => { ln with keys := rest, placing := true })).push (rSLC l)
        (.write (c.screenAddr p (4032 + 4 * ((c.drop p).writeIndex % 16))) [wd (j.key.toNat + 65536 * (j.stamp % 65536))])
        (.keyEntry p (c.drop p).keyEpoch)

/-- The next key is placed, unless one is being placed or a ring is being set (R128, R134). -/
def Chip.placeNext (c : Chip) (l : Fin 3) : Chip :=
  if (c.line l).placing || (c.line l).initLeft != 0 then c else c.placeFrom l (c.line l).keys

/-- The key being placed has been dealt with. -/
def Chip.placed (c : Chip) (l : Fin 3) : Chip := (c.onLine l (fun ln => { ln with placing := false })).placeNext l

/-- The entry write of a key has been answered (R128, R134). -/
def Chip.keyEntryAnswered (c : Chip) (p : Fin 12) (epoch : Nat) (okay : Bool) (addr : Nat) : Chip :=
  let l := lineOf p
  if !okay then (c.reportStore (rSLC l) addr).placed l
  else if epoch != (c.drop p).keyEpoch then c.placed l
  else
    c.push (rSLC l) (.write (c.screenAddr p 4016) [(c.drop p).keyWordAt (((c.drop p).writeIndex + 1) % 32)])
      (.keyIndex p epoch)

/-- The index write of a key has been answered (R128, R134). -/
def Chip.keyIndexAnswered (c : Chip) (p : Fin 12) (epoch : Nat) (okay : Bool) (addr : Nat) : Chip :=
  let l := lineOf p
  if !okay then (c.reportStore (rSLC l) addr).placed l
  else if epoch != (c.drop p).keyEpoch then c.placed l
  else (c.onDrop p (fun x => { x with writeIndex := (x.writeIndex + 1) % 32 })).placed l

/-- A key of an ACK is taken (R127). -/
def Chip.takeKey (c : Chip) (p : Fin 12) (stamp : Nat) (key : BitVec 16) : Chip :=
  match c.scuKey p with
  | (false, c) => c
  | (true, c) =>
    if !c.screenPresent p then c
    else if key == drawerKey then
      if c.setting (.remoteRelease p) == 1 && c.su.unitState == .ready && (c.releaseRefusal p).isNone then c.pulse p else c
    else c.onLine (lineOf p) (fun ln => { ln with keys := ln.keys ++ [⟨dropOf p, key, stamp⟩] })

/-- A host write of the key read index has been stored (R129). -/
def Chip.keyReadIndexTaken (c : Chip) (p : Fin 12) (v : Nat) : Chip :=
  let c := c.onDrop p (fun x => { x with readIndex := v })
  if (c.drop p).overflow then (c.onDrop p (fun x => { x with overflow := false })).writeKeyWord p else c

/-! ### Answers -/

/-- An exchange with a drop ends: the line is free and the time since the exchange runs from 0 (R120, R124). -/
def Chip.exchangeEnds (c : Chip) (l : Fin 3) (d : Fin 4) : Chip :=
  (c.onLine l (fun ln => { ln with use := .free })).onDrop (posOf l d) (fun x => { x with sinceExchange := 0 })

/-- The last byte of an answer has been seen on the line; bytes that are ignored are seen too, and the gap runs from them
(R119). -/
def Chip.byteSeen (c : Chip) (l : Fin 3) : Chip := c.onLine l (fun ln => { ln with quiet := 0 })

/-- A frame not delivered becomes the drop's frame awaiting resend, or is abandoned after three sends (R121). -/
def Chip.undelivered (c : Chip) (p : Fin 12) (f : LineFrame) : Chip :=
  if f.sends < 3 then c.onDrop p (fun x => { x with resend := some f })
  else match f.kind with
    | .row _ => c.rowEnds p false
    | .mode => c.onScreen p (fun s => { s with modePending := true })
    | _ => c

/-- The terminal becomes LOST (R126). -/
def Chip.terminalLost (c : Chip) (p : Fin 12) : Chip :=
  let c := c.onDrop p (fun x => { x with terminal := .lost, resend := none, attachIn := 1000 })
  ((((c.abandonSweep p).withdraw p).setSensor p .unknown).writeTerminal p).report .terminalLost p.val 0

/-- The attachment fails: the terminal is DETACHED and its word is written (R125). -/
def Chip.attachFails (c : Chip) (p : Fin 12) : Chip :=
  (c.onDrop p (fun x => { x with terminal := .detached })).writeTerminal p

/-- An exchange ends in a miss (R121, R122, R125). The frame is dealt with before the terminal is lost, so the last row of a
sweep completes it (DESIGN CHOICE, log 58). -/
def Chip.miss (c : Chip) (l : Fin 3) (d : Fin 4) (f : LineFrame) : Chip :=
  let p := posOf l d
  let c := c.exchangeEnds l d
  if f.kind == .identReq then c.attachFails p
  else
    let c := (c.onDrop p (fun x => { x with misses := x.misses + 1 })).undelivered p f
    if (c.drop p).terminal == .attached && 3 ≤ (c.drop p).misses then c.terminalLost p else c

/-- The sensor reading of an ACK is taken; a code that names neither OPEN nor SHUT is not acted on (R130, R197,
log 24). -/
def Chip.readSensor (c : Chip) (p : Fin 12) : Option Bool → Chip
  | some true => c.setSensor p .sensorOpen
  | some false => c.setSensor p .shut
  | none => c

/-- A valid ACK ends an exchange: delivery, then the sensor, then the keys (R121). -/
def Chip.acked (c : Chip) (l : Fin 3) (d : Fin 4) (f : LineFrame) (sensor : Option Bool) (keys : List (BitVec 16)) : Chip :=
  let p := posOf l d
  let c := (c.exchangeEnds l d).onDrop p (fun x => { x with misses := 0 })
  let c := match f.kind with | .row _ => c.rowEnds p true | _ => c
  let c := c.readSensor p sensor
  (keys.foldl (fun c k => c.takeKey p (c.su.ms % 65536) k) c).placeNext l

/-- A valid NAK ends an exchange (R121, R122). -/
def Chip.naked (c : Chip) (l : Fin 3) (d : Fin 4) (f : LineFrame) : Chip :=
  let p := posOf l d
  ((c.exchangeEnds l d).onDrop p (fun x => { x with misses := 0 })).undelivered p f

/-- A valid IDENT ends an exchange: the terminal is ATTACHED (R125, R103). A colour code that names nothing leaves the
capability held (R197, log 24). -/
def Chip.idented (c : Chip) (l : Fin 3) (d : Fin 4) (colour : Option Bool) (keyboard revision : Byte) : Chip :=
  let p := posOf l d
  let c := (c.exchangeEnds l d).onDrop p (fun x =>
    { x with
      terminal := .attached, misses := 0, resend := none, colour := colour.getD x.colour, keyboard := keyboard,
      revision := revision })
  ((c.writeTerminal p).scuAttached p).report .terminalAttached p.val 0

/-- The exchange that awaits an answer on line `l`. An answer begun in time is received to its end, even past the reply
time; one that was not begun in time comes after REPLY_TIMEOUT has ended the exchange (R119, R120, log 44). -/
def Chip.awaited (c : Chip) (l : Fin 3) : Option (Fin 4 × LineFrame) :=
  match (c.line l).use with
  | .awaiting d f _ => some (d, f)
  | _ => none

/-- An ACK of a frame it suits is valid; an ACK of an IDENT_REQ, or one with more than four keys, is damaged (R118,
R121). -/
def Chip.takeAck (c : Chip) (l : Fin 3) (sensor : Option Bool) (keys : List (BitVec 16)) : Chip :=
  match c.awaited l with
  | some (d, f) =>
    let c := c.byteSeen l
    if f.kind == .identReq || 4 < keys.length then c.miss l d f else c.acked l d f sensor keys
  | none => c.byteSeen l

/-- TERMINAL_ACK (R121). -/
def Chip.terminalAck (c : Chip) (l : Fin 3) (sensorOpen : Bool) (keys : List (BitVec 16)) : Chip :=
  c.takeAck l (some sensorOpen) keys

/-- TERMINAL_NAK (R121); a NAK of an IDENT_REQ detaches (R125). -/
def Chip.terminalNak (c : Chip) (l : Fin 3) : Chip :=
  match c.awaited l with
  | some (d, f) =>
    let c := c.byteSeen l
    if f.kind == .identReq then c.miss l d f else c.naked l d f
  | none => c.byteSeen l

/-- An IDENT of an IDENT_REQ is valid; an IDENT of another frame is damaged (R118, R125). -/
def Chip.takeIdent (c : Chip) (l : Fin 3) (colour : Option Bool) (keyboard revision : Byte) : Chip :=
  match c.awaited l with
  | some (d, f) =>
    let c := c.byteSeen l
    if f.kind == .identReq then c.idented l d colour keyboard revision else c.miss l d f
  | none => c.byteSeen l

/-- TERMINAL_IDENT (R125). -/
def Chip.terminalIdent (c : Chip) (l : Fin 3) (colour : Bool) (keyboard revision : Byte) : Chip :=
  c.takeIdent l (some colour) keyboard revision

/-- A byte that says 0 or 1 (Table 12-18); another value names nothing. -/
def zeroOrOne (b : Byte) : Option Bool := if b == 0 then some false else if b == 1 then some true else none

/-- An answer read by its bytes (R118, R197). -/
inductive LineAnswer where
  | ack (sensor : Option Bool) (keys : List (BitVec 16))
  | nak
  | ident (colour : Option Bool) (keyboard revision : Byte)
  | damaged
  deriving DecidableEq, Repr

/-- Key codes of two bytes each. -/
def keyCodes : List Byte → Option (List (BitVec 16))
  | [] => some []
  | a :: b :: rest => (keyCodes rest).map (fun ks => BitVec.ofNat 16 (a.toNat + 256 * b.toNat) :: ks)
  | [_] => none

/-- The answer a type and payload make, if its length suits (R118). A sensor or colour code that names nothing is no
validity check of R118: the value is one the controller does not act on (R197, log 24). -/
def answerOf (type : Nat) (payload : List Byte) : LineAnswer :=
  match type, payload with
  | 0x81, s :: n :: ks =>
    match keyCodes ks with
    | some keys => if keys.length == n.toNat && n.toNat ≤ 4 then .ack (zeroOrOne s) keys else .damaged
    | none => .damaged
  | 0x82, [] => .nak
  | 0x83, [col, kind, rev] => .ident (zeroOrOne col) kind rev
  | _, _ => .damaged

/-- An answer of drop `d` judged by R118: start byte, address, length and CRC. -/
def readAnswer (d : Fin 4) (bytes : List Byte) : LineAnswer :=
  match bytes with
  | start :: a :: type :: len :: rest =>
    let payload := rest.take (rest.length - 2)
    if start == 0xA5 && a.toNat == d.val && len.toNat + 2 == rest.length
        && rest.drop (rest.length - 2) == crcBytes (a :: type :: len :: payload) then answerOf type.toNat payload
    else .damaged
  | _ => .damaged

/-- DAMAGED_ANSWER: the bytes of an answer are judged; one that fails the validity checks is a miss (R118, R121). An
answer whose bytes turn out valid is dealt with as such. -/
def Chip.damagedAnswer (c : Chip) (l : Fin 3) (bytes : List Byte) : Chip :=
  match c.awaited l with
  | some (d, f) =>
    match readAnswer d bytes with
    | .ack s keys => c.takeAck l s keys
    | .nak => c.terminalNak l
    | .ident col k r => c.takeIdent l col k r
    | .damaged => (c.byteSeen l).miss l d f
  | none => c.byteSeen l

/-- ANSWER_PAUSE_TIMEOUT: an answer begun within the reply time has paused for more than two character times: it is
damaged, and the exchange ends (R120). The line has been quiet for those two character times. -/
def Chip.answerPauseTimeout (c : Chip) (l : Fin 3) : Chip :=
  match c.awaited l with
  | some (d, f) => (c.onLine l (fun ln => { ln with quiet := 2 * ln.charClk })).miss l d f
  | none => c

/-- REPLY_TIMEOUT: the reply time has run out with no answer begun (R120). -/
def Chip.replyTimeout (c : Chip) (l : Fin 3) : Chip :=
  match (c.line l).use with
  | .awaiting d f 0 => c.miss l d f
  | _ => c

/-- POLL_INTERVAL_EXPIRY: a POLL of position `p` is due and the controller looks for a turn (R123, R124). -/
def Chip.pollIntervalExpiry (c : Chip) (p : Fin 12) : Chip := if c.pollDue p then c.lineTurn (lineOf p) else c

/-- ATTACH_ATTEMPT_DUE: an IDENT_REQ of position `p` is sendable and the controller looks for a turn (R123, R125). -/
def Chip.attachAttemptDue (c : Chip) (p : Fin 12) : Chip := if c.attachDue p then c.lineTurn (lineOf p) else c

/-! ### Restart, start-up and placement -/

/-- Whether an own access is a burst of a row read. -/
def Tag.isRowRead : Tag → Bool
  | .rowRead _ _ _ _ => true
  | _ => false

/-- The row read in progress makes no further bursts (R103, R133). -/
def Chip.stopRowRead (c : Chip) (l : Fin 3) : Chip :=
  let c := { c with own := vupd c.own (rSLC l) (·.filter (fun r => !r.tag.isRowRead)) }
  c.onLine l (fun ln =>
    { ln with
      epoch := ln.epoch + 1
      use := match ln.use with | .reading _ _ => .free | u => u })

/-- One drop in a restart of its line (R133). -/
def Chip.dropRestart (c : Chip) (p : Fin 12) : Chip :=
  let c := c.onDrop p (fun x => { x with terminal := .detached, resend := none, misses := 0, attachIn := 0 })
  (((c.writeTerminal p).setSensor p .unknown).withdraw p).scuLineReset p

/-- The use of a line after a restart: a frame being sent stops after the byte in progress (R133). -/
def Line.stopped (ln : Line) : LineUse :=
  match ln.use with
  | .sending _ f left _ =>
    if left % ln.charClk == 0 then .free
    else .stopping (byteInProgress f.bytes (bitClk ln.rate) left) (bitClk ln.rate) (left % ln.charClk)
  | .stopping b bit left => .stopping b bit left
  | _ => .free

/-- The restart of line `l` (R133). -/
def Chip.lineRestart (c : Chip) (l : Fin 3) : Chip :=
  let c := c.stopRowRead l
  let c := c.onLine l (fun ln =>
    { ln with
      use := ln.stopped
      quiet := match ln.use with | .sending _ _ _ _ => 0 | _ => ln.quiet
      pointer := 3
      rate := c.setting (.lineRate l)
      gap := c.setting (.lineGap l) })
  dropsOfLine.foldl (fun c d => c.dropRestart (posOf l d)) c

/-- The last own access of a requester becomes the one whose answer ends the request in service, if any was added after
the first `before`; otherwise the request ends at once (R31). -/
def Chip.finishWithLast (c : Chip) (u : Fin 9) (before : Nat) : Chip :=
  let q : List OwnReq := c.own[u.val]
  if q.length ≤ before then c.requestDone
  else match q.reverse with
    | [] => c.requestDone
    | r :: front => { c with own := vput c.own u (front.reverse ++ [{ r with fin := true }]) }

/-- LINE_RESET is served (R133): DONE when the words it rewrites have been answered. -/
def Chip.serveLineReset (c : Chip) (l : Fin 3) : Chip :=
  let before := (c.stopRowRead l).own[(rSLC l).val].length
  (c.lineRestart l).finishWithLast (rSLC l) before

/-- The key read index of a present screen is read, to set its ring (R134). -/
def Chip.askKeyInit (c : Chip) (p : Fin 12) : Chip :=
  if c.screenPresent p then
    (c.onLine (lineOf p) (fun ln => { ln with initLeft := ln.initLeft + 1 })).push (rSLC (lineOf p))
      (.read (c.screenAddr p 4020) 4 1) (.keyInit p (c.drop p).keyEpoch)
  else c

/-- The key read index has been read: the ring is emptied and the words are written (R134). -/
def Chip.keyInitAnswered (c : Chip) (p : Fin 12) (epoch : Nat) (okay : Bool) (addr : Nat) (data : List Word) : Chip :=
  let l := lineOf p
  let c := if okay then c else c.reportStore (rSLC l) addr
  let c := c.onLine l (fun ln => { ln with initLeft := ln.initLeft - 1 })
  let c := if epoch != (c.drop p).keyEpoch then c
    else
      let v := if okay then (wordAt data 0).toNat else 0
      let c := if 31 < v then c.writeControl p 4020 0 else c
      let v := if 31 < v then 0 else v
      let c := c.onDrop p (fun x => { x with writeIndex := v, readIndex := v, overflow := false })
      (((c.writeKeyWord p).writeTerminal p).writeControl p 4012 (wd (c.drop p).sensor.code))
  c.placeNext l

/-- The line controllers at the end of LOADING: rate and gap taken, key rings set (R119, R134). -/
def Chip.slcLoaded (c : Chip) : Chip :=
  let c := screenLines.foldl (fun c l =>
    c.onLine l (fun ln => { ln with rate := c.setting (.lineRate l), gap := c.setting (.lineGap l) })) c
  positions.foldl (fun c p => c.askKeyInit p) c

/-- Whether an own access is the reading of a key read index. -/
def Tag.isKeyInit : Tag → Bool
  | .keyInit _ _ => true
  | _ => false

/-- Whether an own access goes to an absent screen and is none of those that R134 sends to the old place. -/
def Chip.lineAccessAbsent (c : Chip) (r : OwnReq) : Bool :=
  match r.tag with
  | .screenWord p => !c.screenPresent p
  | .keyInit p _ => !c.screenPresent p
  | _ => false

/-- SCREENS has moved: the control words and key index readings of absent screens that wait for the store are not made, and
a ring that was to be set is no longer (R5, R134). None of them ends a LINE_RESET: the host's access would still be held. -/
def Chip.dropAbsent (c : Chip) (l : Fin 3) : Chip :=
  let q : List OwnReq := c.own[(rSLC l).val]
  let gone := q.filter c.lineAccessAbsent
  ({ c with own := vput c.own (rSLC l) (q.filter (fun r => !c.lineAccessAbsent r)) }).onLine l (fun ln =>
    { ln with initLeft := ln.initLeft - (gone.filter (fun r : OwnReq => r.tag.isKeyInit)).length })

/-- The line controllers at an accepted SCREENS placement change: reads of rows and accesses to absent screens stop, rings
are set at the new place, and a key that waited for a ring is placed (R5, R103, R134). -/
def Chip.slcMoved (c : Chip) : Chip :=
  let c := screenLines.foldl (fun c l => (c.stopRowRead l).dropAbsent l) c
  let c := positions.foldl (fun c p => (c.onDrop p (fun x => { x with keyEpoch := x.keyEpoch + 1 })).askKeyInit p) c
  screenLines.foldl (fun c l => c.placeNext l) c

end Sys2Proof.Machine
end

