-- ==== Sys2Proof/Machine/Feed.lean ====
section
/-! DEFINITION. The Feed Drives (09.1 to 09.3): modulation, the bridge, the encoder and the position. -/

namespace Sys2Proof.Machine

/-- The Feed Drive of printer `n`. -/
def Chip.feed (c : Chip) (n : Fin 4) : Feed := c.fd[n.val]

/-- Change a Feed Drive. -/
def Chip.onFeed (c : Chip) (n : Fin 4) (f : Feed → Feed) : Chip := { c with fd := vupd c.fd n f }

/-- A printer. -/
def Chip.printer (c : Chip) (n : Fin 4) : Printer := c.pru.printers[n.val]

/-- Change a printer. -/
def Chip.onPrinter (c : Chip) (n : Fin 4) (f : Printer → Printer) : Chip :=
  { c with pru := { c.pru with printers := vupd c.pru.printers n f } }

/-! ### Outputs and pairs -/

/-- Steps an output is remembered to have been inactive; more than any DEAD_BAND_n. -/
def sinceCap : Nat := 127

/-- An output becomes inactive at once (R155). -/
def Output.off (o : Output) : Output := if o.active then ⟨false, none, 0⟩ else { o with wait := none }

/-- An output becomes active when the other of its pair has been inactive for the dead-band (R155). -/
def Output.on (o other : Output) (dead : Nat) : Output :=
  if o.active then o
  else if !other.active && dead ≤ other.since then { o with active := true, wait := none }
  else { o with wait := some (if other.active then dead else dead - other.since) }

/-- An inactive output becomes active after `steps` steps. -/
def Output.after (o : Output) (steps : Nat) : Output :=
  if steps == 0 then { o with active := true, wait := none } else { o with wait := some steps }

/-- A pair with its high side inactive and its low side active or inactive (Table 9-3): high, low. -/
def pairStill (hi lo : Output) (lowOn : Bool) (dead : Nat) : Output × Output :=
  (hi.off, if lowOn then lo.on hi.off dead else lo.off)

/-- The modulated pair as a period begins with working duty `w` (R156): high, low. The low side that follows a high
side waits from the high side's turn-off. With `w` at or above the period, a low side inactive for fewer steps than the
dead-band holds the high side back for the rest of it (DESIGN CHOICE, log 81). -/
def pairPeriod (hi lo : Output) (w period dead : Nat) : Output × Output :=
  if w < period then
    if dead < w then (hi.off.after dead, lo.off)
    else (hi.off, if w + dead < period then lo.off.after (w + dead) else lo.off)
  else (hi.on lo.off dead, lo.off)

/-- The high side's turn-off at step `w` (R156): high, low. -/
def pairTurnOff (hi lo : Output) (w period dead : Nat) : Output × Output :=
  (hi.off, if w + dead < period then lo.after dead else lo)

/-- A step passes for an output. -/
def Output.step (o : Output) : Output :=
  { o with
    wait := o.wait.map (· - 1)
    since := if o.active then o.since else Nat.min sinceCap (o.since + 1) }

/-! ### Modes -/

/-- Whether a mode drives the motor. -/
def BridgeMode.drives : BridgeMode → Bool
  | .forward => true | .reverse => true | _ => false

/-- The period length in steps (R152). -/
def Chip.period (c : Chip) (n : Fin 4) : Nat := 4 * (c.prn n .pwmPeriod + 1)

/-- The dead-band in steps. -/
def Chip.dead (c : Chip) (n : Fin 4) : Nat := c.prn n .deadBand

/-- Put the four outputs of a Feed Drive. -/
def Feed.outputs (f : Feed) (a b : Output × Output) : Feed := { f with aHi := a.1, aLo := a.2, bHi := b.1, bLo := b.2 }

/-- The modulated pair begins a period with the working duty; a period in which the high side stays inactive has no
turn-off (R156). -/
def Feed.beginPeriod (f : Feed) (period dead : Nat) : Feed :=
  let f := { f with turnedOff := !(dead < f.duty && f.duty < period) }
  match f.mode with
  | .forward =>
    let a := pairPeriod f.aHi f.aLo f.duty period dead
    { f with aHi := a.1, aLo := a.2 }
  | .reverse =>
    let b := pairPeriod f.bHi f.bLo f.duty period dead
    { f with bHi := b.1, bLo := b.2 }
  | _ => f

/-- The bridge mode changes at once (R155). Entering FORWARD or REVERSE is a motor start: W and the step counter 0, the
count direction taken, the stall timer restarted (R153, R158, R160). -/
def Feed.enter (f : Feed) (m : BridgeMode) (period dead : Nat) (safeA safeB : Bool) : Feed :=
  let f := { f with mode := m, duty := 0, turnedOff := true }
  match m with
  | .forward =>
    let f := { f with step := 0, stepClk := 0, forwardCount := true, stallMs := 0 }
    let b := pairStill f.bHi f.bLo true dead
    ({ f with bHi := b.1, bLo := b.2 }).beginPeriod period dead
  | .reverse =>
    let f := { f with step := 0, stepClk := 0, forwardCount := false, stallMs := 0 }
    let a := pairStill f.aHi f.aLo true dead
    ({ f with aHi := a.1, aLo := a.2 }).beginPeriod period dead
  | .brake => f.outputs (pairStill f.aHi f.aLo true dead) (pairStill f.bHi f.bLo true dead)
  | .off => f.outputs (pairStill f.aHi f.aLo false dead) (pairStill f.bHi f.bLo false dead)
  | .safe => f.outputs (pairStill f.aHi f.aLo safeA dead) (pairStill f.bHi f.bLo safeB dead)

/-- The Print Unit asks for a bridge mode (R155). -/
def Chip.setMode (c : Chip) (n : Fin 4) (m : BridgeMode) : Chip :=
  c.onFeed n (·.enter m (c.period n) (c.dead n) (c.prnOn n .safeA) (c.prnOn n .safeB))

/-! ### Modulation -/

/-- The distance to the target of the feed in progress (R154). -/
def Chip.distance (c : Chip) (n : Fin 4) : Nat :=
  match (c.printer n).service with
  | some v => ((v.target : Int) - (c.feed n).position).natAbs
  | none => 0

/-- The target duty by printer state (Table 9-2). -/
def Chip.targetDuty (c : Chip) (n : Fin 4) : Nat :=
  match (c.printer n).state with
  | .aligning => c.prn n .approachDuty
  | .feeding => if c.prn n .approachDist < c.distance n then c.prn n .runDuty else c.prn n .approachDuty
  | .ejecting => c.prn n .runDuty
  | _ => 0

/-- W moved toward the target duty by at most the ramp step (R153). -/
def ramp (w target rampStep : Nat) : Nat :=
  if w < target then Nat.min (w + rampStep) target
  else if target < w then (if w - target ≤ rampStep then target else w - rampStep)
  else w

/-- PERIOD_BOUNDARY: the step counter returns to 0; in FORWARD or REVERSE W ramps and the next period begins (R152,
R153, R156). -/
def Chip.periodBoundary (c : Chip) (n : Fin 4) : Chip :=
  if c.period n ≤ (c.feed n).step then
    let w := ramp (c.feed n).duty (c.targetDuty n) (c.prn n .rampStep)
    c.onFeed n (fun f =>
      let f := { f with step := 0 }
      if f.mode.drives then ({ f with duty := w }).beginPeriod (c.period n) (c.dead n) else f)
  else c

/-- HIGH_SIDE_TURN_OFF: the step counter has reached W within a period (R156). -/
def Chip.highSideTurnOff (c : Chip) (n : Fin 4) : Chip :=
  let f := c.feed n
  if f.mode.drives && !f.turnedOff && f.duty ≤ f.step then
    c.onFeed n (fun f =>
      let f := { f with turnedOff := true }
      match f.mode with
      | .forward =>
        let a := pairTurnOff f.aHi f.aLo f.duty (c.period n) (c.dead n)
        { f with aHi := a.1, aLo := a.2 }
      | .reverse =>
        let b := pairTurnOff f.bHi f.bLo f.duty (c.period n) (c.dead n)
        { f with bHi := b.1, bLo := b.2 }
      | _ => f)
  else c

/-- An output whose dead-band has run out becomes active (R155). -/
def Output.expire (o : Output) : Output := if o.wait == some 0 then { o with active := true, wait := none } else o

/-- DEAD_BAND_EXPIRY: output 0 to 3 is A_HI, A_LO, B_HI, B_LO (R155). -/
def Chip.deadBandExpiry (c : Chip) (n : Fin 4) (output : Fin 4) : Chip :=
  c.onFeed n (fun f =>
    match output with
    | 0 => { f with aHi := f.aHi.expire }
    | 1 => { f with aLo := f.aLo.expire }
    | 2 => { f with bHi := f.bHi.expire }
    | _ => { f with bLo := f.bLo.expire })

/-- Whether an output of printer `n` is active. -/
def Chip.outputActive (c : Chip) (n : Fin 4) (output : Fin 4) : Bool :=
  match output with
  | 0 => (c.feed n).aHi.active
  | 1 => (c.feed n).aLo.active
  | 2 => (c.feed n).bHi.active
  | _ => (c.feed n).bLo.active

/-- The level of a bridge pin, true for high; none while the pins are not driven (R157). -/
def Chip.bridgePin (c : Chip) (n : Fin 4) (output : Fin 4) : Option Bool :=
  if c.su.unitState == .loading then none
  else some (c.outputActive n output != (c.prn n .outPolarity / 2 ^ output.val % 2 == 1))

/-- A CLK period passes for a Feed Drive: a step after PWM_PRESCALE_n of them; at the end of a period the counter waits
for PERIOD_BOUNDARY (R152, log 1). -/
def Feed.tick (f : Feed) (prescale period : Nat) : Feed :=
  if f.stepClk + 1 < prescale then { f with stepClk := f.stepClk + 1 }
  else
    { f with
      stepClk := 0
      step := Nat.min period (f.step + 1)
      aHi := f.aHi.step, aLo := f.aLo.step, bHi := f.bHi.step, bLo := f.bLo.step }

/-- A millisecond passes for a Feed Drive (R160). -/
def Feed.msTick (f : Feed) : Feed := if f.mode.drives then { f with stallMs := f.stallMs + 1 } else f

/-! ### Encoder and position -/

/-- A signed 16-bit number that continues from the far end (R158). -/
def wrap16 (i : Int) : Int := (i + 32768) % 65536 - 32768

/-- A position count (R158, R159, R160). It adds to the travel count in ALIGNING and EJECTING alone (DESIGN CHOICE,
log 80). -/
def Feed.count (f : Feed) (travels : Bool) : Feed :=
  { f with
    prescale := 0
    position := wrap16 (if f.forwardCount then f.position + 1 else f.position - 1)
    travel := if travels then f.travel + 1 else f.travel
    stallMs := if f.mode.drives then 0 else f.stallMs }

/-- A rising edge of ENC (R158). -/
def Feed.edge (f : Feed) (encPrescale : Nat) (travels : Bool) : Feed :=
  if f.prescale + 1 < encPrescale then { f with prescale := f.prescale + 1 } else f.count travels

/-- The states in which the travel count is judged (R159). -/
def PrinterState.travels : PrinterState → Bool
  | .aligning => true | .ejecting => true | _ => false

/-- Whether the position has reached the target in FEEDING (R159). -/
def Chip.atTarget (c : Chip) (n : Fin 4) : Bool :=
  (c.printer n).state == .feeding &&
    match (c.printer n).service with
    | some v => (c.feed n).position == (v.target : Int)
    | none => false

/-- TARGET_MATCH: the bridge goes to BRAKE and the printer is STRIKING (R159). -/
def Chip.targetMatch (c : Chip) (n : Fin 4) : Chip :=
  if c.atTarget n then (c.setMode n .brake).onPrinter n (fun p => { p with state := .striking }) else c

/-- Whether a travel limit has been reached (R159). -/
def Chip.travelReached (c : Chip) (n : Fin 4) : Bool :=
  match (c.printer n).state with
  | .aligning => c.prn n .alignTravel ≤ (c.feed n).travel
  | .ejecting => c.prn n .ejectTravel ≤ (c.feed n).travel
  | _ => false

/-- Whether the stall timer has run out (R160). -/
def Chip.stalled (c : Chip) (n : Fin 4) : Bool :=
  (c.feed n).mode.drives && c.prn n .stallTime ≤ (c.feed n).stallMs

end Sys2Proof.Machine
end

