-- ==== Sys2Proof/Machine/Printers.lean ====
section
/-! DEFINITION. The Print Unit (08) with shutdown and restart (09.4, 09.5): submission, queues, strikes and ejects. -/

namespace Sys2Proof.Machine

/-! ### Slots -/

/-- PRU's record of a slot's status. -/
def Chip.slotStatus (c : Chip) (n : Fin 4) (s : Fin 8) : SlotStatus := (c.printer n).slots[s.val]

/-- PRU records a slot's status. -/
def Chip.setSlot (c : Chip) (n : Fin 4) (s : Fin 8) (st : SlotStatus) : Chip :=
  c.onPrinter n (fun p => { p with slots := vput p.slots s st })

/-- PRU changes a slot's status and writes its word 0 (R135). -/
def Chip.writeSlot (c : Chip) (n : Fin 4) (s : Fin 8) (st : SlotStatus) (tag : Tag := .plain) : Chip :=
  (c.setSlot n s st).push rPRU (.write (c.printAddr n s 0) [st.word]) tag

/-- Whether a slot refuses every host write (R136). -/
def SlotStatus.locked : SlotStatus → Bool
  | .queued => true | .printing => true | _ => false

/-! ### Submission -/

/-- The fields of words 1 and 2 of a request slot (R135, Table 12-15). -/
def entryOf (s : Fin 8) (ws : List Word) : PrintEntry :=
  { slot := s
    seq := (wordAt ws 0).toNat
    line := field (wordAt ws 1) 0 8
    page := field (wordAt ws 1) 8 8
    ejectAfter := flagAt (wordAt ws 1) 16
    reprint := flagAt (wordAt ws 1) 17 }

/-- Change the submission in progress. -/
def Chip.onSubmission (c : Chip) (f : Submission → Submission) : Chip :=
  { c with pru := { c.pru with submission := c.pru.submission.map f } }

/-- Words 1 and 2 of the slot are read (R137). -/
def Chip.readSubmission (c : Chip) (n : Fin 4) (s : Fin 8) : Chip :=
  (c.onSubmission (fun b => { b with waiting := false })).push rPRU (.read (c.printAddr n s 1) 4 2) .subRead

/-- PRU holds a SUBMIT: the submission starts, or waits for a slot resolution under way (R137, R150). -/
def Chip.submitHeld (c : Chip) (n : Fin 4) (s : Fin 8) : Chip :=
  let c := { c with pru := { c.pru with submission := some ⟨n, s, true, entryOf s []⟩ } }
  if c.pru.scanning == 0 then c.readSubmission n s else c

/-- The submission is refused (R138). -/
def Chip.refuseSubmission (c : Chip) (b : Submission) (r : Reason) : Chip :=
  c.writeSlot b.printer b.slot (.refused r.code) .subRefused

/-- The submission is accepted: word 0 is written QUEUED (R138). -/
def Chip.acceptSubmission (c : Chip) (b : Submission) : Chip := c.writeSlot b.printer b.slot .queued .subQueued

/-- Checks 1 to 4 (Table 8-3). -/
def Chip.submitChecks (c : Chip) (b : Submission) : Option Reason :=
  if c.su.unitState == .rebuilding then some .notReady
  else if c.cu.day.state != .dayOpen then some .dayState
  else if !c.prnOn b.printer .present then some .noPrinter
  else if b.entry.line == 0 || c.prn b.printer .linesPerPage < b.entry.line || b.entry.page == 0 then some .lineRange
  else none

/-- Checks 5 to 10, on JU's answer (Table 8-3, R137). -/
def Chip.recordRefusal (c : Chip) (b : Submission) (a : RecAnswer) : Option Reason :=
  match a with
  | .notInDay => some .notInDay
  | .storeError => if c.printPending b.entry.seq then some .duplicate else some .storeError
  | .record _ status print =>
    if print == .notBook then some .notBook
    else if status == .voided then some .voided
    else if (print == .printed || print == .doubtful) && !b.entry.reprint then some .alreadyPrinted
    else if c.printPending b.entry.seq then some .duplicate
    else none

/-- JU has answered the record read of the submission (R137, R138). -/
def Chip.submissionAnswered (c : Chip) (a : RecAnswer) : Chip :=
  match c.pru.submission with
  | none => c
  | some b =>
    match c.recordRefusal b a with
    | some r => c.refuseSubmission b r
    | none => c.acceptSubmission b

/-- The submission ends and the held write is answered (R138). -/
def Chip.submissionEnds (c : Chip) (okay : Bool) : Chip :=
  ({ c with pru := { c.pru with submission := none } }).answerHost okay []

/-- The entry joins the tail of its printer's queue (R138, R139). -/
def Chip.enqueue (c : Chip) (b : Submission) : Chip :=
  c.onPrinter b.printer (fun p => { p with queue := p.queue ++ [b.entry] })

/-- A STORE_ERROR report of PRU, when the answer is ERROR. -/
def Chip.pruReport (c : Chip) (okay : Bool) (addr : Nat) : Chip := if okay then c else c.reportStore rPRU addr

/-- The outcome write of the submission has been answered (R138). -/
def Chip.submissionWritten (c : Chip) (queued okay : Bool) (addr : Nat) : Chip :=
  let c := c.pruReport okay addr
  match c.pru.submission with
  | some b => if queued then (c.enqueue b).submissionEnds true else c.submissionEnds false
  | none => c

/-! ### Aligning and ejecting -/

/-- The printer becomes ALIGNING: travel from 0, motor forward (R140, R159). -/
def Chip.startAlign (c : Chip) (n : Fin 4) : Chip :=
  ((c.onPrinter n (fun p => { p with state := .aligning })).onFeed n (fun f => { f with travel := 0 })).setMode n .forward

/-- Alignment from EMPTY with a book: BOOK_INSERTED; the page becomes unknown, unless the page-turn flag is set
(R140). -/
def Chip.alignNew (c : Chip) (n : Fin 4) : Chip :=
  let c := c.onPrinter n (fun p => { p with bookPage := if p.pageTurn.isSome then p.bookPage else none })
  (c.startAlign n).report .bookInserted n.val 0

/-- The printer becomes EJECTING: the page unknown unless the eject is for a page turn, travel from 0, motor in reverse
(R146, R159). -/
def Chip.startEject (c : Chip) (n : Fin 4) : Chip :=
  ((c.onPrinter n (fun p =>
    { p with state := .ejecting, bookPage := if p.pageTurn.isSome then p.bookPage else none })).onFeed n (fun f => { f with travel := 0 })).setMode
    n .reverse

/-- The printer becomes READY with the bridge OFF. -/
def Chip.makeReady (c : Chip) (n : Fin 4) : Chip :=
  (c.setMode n .off).onPrinter n (fun p => { p with state := .ready })

/-- The printer becomes EMPTY with the bridge OFF. -/
def Chip.makeEmpty (c : Chip) (n : Fin 4) : Chip :=
  (c.setMode n .off).onPrinter n (fun p => { p with state := .empty })

/-- The level of BOOK of printer `n`. -/
def Chip.bookIn (c : Chip) (n : Fin 4) : Bool := c.pins.book[n.val]
/-- The level of COVER of printer `n`. -/
def Chip.coverIn (c : Chip) (n : Fin 4) : Bool := c.pins.cover[n.val]
/-- The level of OVC of printer `n`. -/
def Chip.ovcIn (c : Chip) (n : Fin 4) : Bool := c.pins.ovc[n.val]

/-! ### Shutdown and restart -/

/-- The six causes (Table 9-6). -/
inductive Cause where
  | cover | ovc | jam | head | bookPulled | forced
  deriving DecidableEq, Repr

/-- A latch with a cause added. -/
def Latch.add (l : Latch) : Cause → Latch
  | .cover => { l with cover := true }
  | .ovc => { l with ovc := true }
  | .jam => { l with jam := true }
  | .head => { l with head := true }
  | .bookPulled => { l with bookPulled := true }
  | .forced => { l with forced := true }

/-- PRU reports PRINTER_HALTED with the latched set (R161, R162). -/
def Chip.reportHalted (c : Chip) (n : Fin 4) : Chip := c.report .printerHalted n.val (c.feed n).latch.code

/-- CLK periods of a bit on a head link, at 38,400 bit/s (R197). -/
def headBitClk : Nat := 625

/-- CLK periods of a byte on a head link: ten bits (R197). -/
def headByteClk : Nat := 10 * headBitClk

/-- The head exchange as it ends: a message being sent stops after the character in progress (R147). -/
def HeadUse.ended : HeadUse → HeadUse
  | .sending m left =>
    if left % headByteClk == 0 then .idle else .stopping (byteInProgress m headBitClk left) (left % headByteClk)
  | .stopping b left => .stopping b left
  | _ => .idle

/-- The level of HTX of printer `n`: the bits of the message being sent, or of the character in progress of a message given
up; else the idle level (R144, R147, R197). -/
def Chip.htx (c : Chip) (n : Fin 4) : Bool :=
  match (c.printer n).head with
  | .sending m left => serialLevel m headBitClk left
  | .stopping b left => serialLevel [b] headBitClk left
  | _ => true

/-- The head exchange ends, and a line being composed is given up (R147). -/
def Chip.endHead (c : Chip) (n : Fin 4) : Chip :=
  c.onPrinter n (fun p => { p with head := p.head.ended, composing := false, text := [], epoch := p.epoch + 1 })

/-- A stamp is asked of JU for the request in service (R145, R147). -/
def Chip.askServiceStamp (c : Chip) (n : Fin 4) (v : Service) (ps : PrintState) : Chip :=
  (c.onPrinter n (fun p => { p with service := some { v with stamp := some ps } })).askStamp n v.entry.seq ps

/-- A shutdown's handling of the request in service (R147). -/
def Chip.shutService (c : Chip) (n : Fin 4) : Chip :=
  match (c.printer n).service with
  | none => c
  | some v =>
    if !v.begun then
      (c.onPrinter n (fun p => { p with queue := v.entry :: p.queue, service := none })).writeSlot n v.entry.slot .queued
    else if v.doneTaken || v.stamp.isSome then c
    else c.askServiceStamp n v .doubtful

/-- A cause in HALTED: one not yet latched is added to the latch, with a report (R161). -/
def Chip.addCause (c : Chip) (n : Fin 4) (cause : Cause) : Chip :=
  let l := (c.feed n).latch
  if l.add cause == l then c else (c.onFeed n (fun f => { f with latch := l.add cause })).reportHalted n

/-- The levels of COVER and OVC as HALTED is entered, where both are judged (R161), COVER first (DESIGN CHOICE, log 69). -/
def Chip.judgeHalted (c : Chip) (n : Fin 4) : Chip :=
  let c := if c.coverIn n then c.addCause n .cover else c
  if c.ovcIn n then c.addCause n .ovc else c

/-- Whether a JAM has arisen that no TRAVEL_LIMIT or STALL_TIMEOUT has taken yet (R159, R160). -/
def Chip.jamDue (c : Chip) (n : Fin 4) : Bool := c.travelReached n || c.stalled n

/-- Whether the head's wait has run out with no HEAD_TIMEOUT taken yet (R144). -/
def Chip.headDue (c : Chip) (n : Fin 4) : Bool := (c.printer n).head == .awaiting 0

/-- The causes that had arisen before another made the shutdown are added to the latch, each with a report (R161). -/
def Chip.addDue (c : Chip) (n : Fin 4) (jam head : Bool) : Chip :=
  let c := if jam then c.addCause n .jam else c
  if head then c.addCause n .head else c

/-- A shutdown (R162, R147); an input active in the state entered is latched beside the cause, and so is a JAM or HEAD
that has arisen and that its own command has not taken: the two have arrived together (R161; DESIGN CHOICE, log 83). -/
def Chip.shutdown (c : Chip) (n : Fin 4) (cause : Cause) : Chip :=
  let jam := c.jamDue n
  let head := c.headDue n
  let c := (c.setMode n .safe).onFeed n (fun f => { f with latch := Latch.empty.add cause })
  let c := c.onPrinter n (fun p => { p with state := .halted, bookPage := none })
  ((((c.reportHalted n).endHead n).shutService n).judgeHalted n).addDue n jam head

/-- A cause: a shutdown, or, in HALTED, an addition to the latch (R161). -/
def Chip.cause (c : Chip) (n : Fin 4) (cause : Cause) : Chip :=
  if (c.printer n).state == .halted then c.addCause n cause else c.shutdown n cause

/-- Whether COVER and OVC are judged: in every state, except EMPTY with PRN_PRESENT_n off (Table 9-6). -/
def Chip.judgesInputs (c : Chip) (n : Fin 4) : Bool := (c.printer n).state != .empty || c.prnOn n .present

/-- The inputs judged as levels (R161), COVER first (DESIGN CHOICE, log 69). -/
def Chip.judgeCauses (c : Chip) (n : Fin 4) : Chip :=
  if c.judgesInputs n then
    let c := if c.coverIn n then c.cause n .cover else c
    if c.ovcIn n then c.cause n .ovc else c
  else c

/-- A restart (R166). -/
def Chip.restart (c : Chip) (n : Fin 4) : Chip :=
  let c := (c.onFeed n (fun f => { f with latch := .empty })).setMode n .off
  let c := if c.bookIn n && c.prnOn n .present then c.startAlign n
    else c.onPrinter n (fun p => { p with state := .empty })
  (c.report .printerRestarted n.val 0).judgeCauses n

/-- The automatic restart conditions (R164). -/
def Chip.mayRestart (c : Chip) (n : Fin 4) : Bool :=
  let l := (c.feed n).latch
  (c.printer n).state == .halted && c.prnOn n .autoRestart && !(l.jam || l.head || l.bookPulled || l.forced)
    && !(l.cover && c.coverIn n) && !(l.ovc && c.ovcIn n)

/-- The automatic restart conditions are tested (R164). -/
def Chip.testRestart (c : Chip) (n : Fin 4) : Chip := if c.mayRestart n then c.restart n else c

/-- PRINTER_RESTART is served (R165). -/
def Chip.servePrinterRestart (c : Chip) (n : Fin 4) : Chip :=
  let l := (c.feed n).latch
  if (c.printer n).state != .halted then c.requestRefused .printerState n.val
  else if (l.cover && c.coverIn n) || (l.ovc && c.ovcIn n) then c.requestRefused .causeActive n.val
  else (c.restart n).requestDone

/-- PRINTER_HALT is served (R163). -/
def Chip.servePrinterHalt (c : Chip) (n : Fin 4) : Chip :=
  (c.cause n .forced).finishWithLast rPRU (c.own[rPRU.val] : List OwnReq).length

/-! ### Events -/

/-- COVER_ACTIVE (R161). -/
def Chip.coverActive (c : Chip) (n : Fin 4) : Chip :=
  let c := { c with pins := { c.pins with cover := vput c.pins.cover n true } }
  if c.judgesInputs n then c.cause n .cover else c

/-- OVC_ACTIVE (R161). -/
def Chip.ovcActive (c : Chip) (n : Fin 4) : Chip :=
  let c := { c with pins := { c.pins with ovc := vput c.pins.ovc n true } }
  if c.judgesInputs n then c.cause n .ovc else c

/-- CAUSE_INPUT_INACTIVE (R164). -/
def Chip.causeInputInactive (c : Chip) (n : Fin 4) (ovc : Bool) : Chip :=
  let c := if ovc then { c with pins := { c.pins with ovc := vput c.pins.ovc n false } }
    else { c with pins := { c.pins with cover := vput c.pins.cover n false } }
  c.testRestart n

/-- BOOK_INSERTED: the input becoming present (R140, R142). -/
def Chip.bookInserted (c : Chip) (n : Fin 4) : Chip :=
  if c.bookIn n then c
  else
    let c := { c with pins := { c.pins with book := vput c.pins.book n true } }
    if (c.printer n).state == .empty && c.prnOn n .present then c.alignNew n else c

/-- BOOK_REMOVED: the input becoming absent (R142, R146). Where it ends the state, it is taken before a travel limit reached or a
stall timer run out that has not been taken (DESIGN CHOICE, log 70). -/
def Chip.bookRemoved (c : Chip) (n : Fin 4) : Chip :=
  if !c.bookIn n then c
  else
    let c := { c with pins := { c.pins with book := vput c.pins.book n false } }
    match (c.printer n).state with
    | .aligning => (c.makeEmpty n).report .bookRemoved n.val 0
    | .ready => ((c.makeEmpty n).onPrinter n (fun p => { p with bookPage := none })).report .bookRemoved n.val 0
    | .feeding => c.cause n .bookPulled
    | .striking => c.cause n .bookPulled
    | .ejecting => (c.makeEmpty n).report .bookRemoved n.val 0
    | .empty => c
    | .halted => c

/-- TOF_EDGE: in ALIGNING the position is 0, the bridge OFF and the printer READY; a page waited for is taken (R159,
R140). It is taken before a travel limit reached or a stall timer run out that has not been taken (DESIGN CHOICE, log 70). -/
def Chip.tofEdge (c : Chip) (n : Fin 4) : Chip :=
  if (c.printer n).state == .aligning then
    let c := (c.onFeed n (fun f => { f with position := 0, prescale := 0 })).makeReady n
    c.onPrinter n (fun p =>
      match p.pageTurn with
      | some page => { p with bookPage := some page, pageTurn := none }
      | none => p)
  else c

/-- TRAVEL_LIMIT: a travel limit reached is a JAM shutdown (R159). -/
def Chip.travelLimit (c : Chip) (n : Fin 4) : Chip := if c.travelReached n then c.cause n .jam else c

/-- STALL_TIMEOUT: the stall timer run out is a JAM shutdown (R160). -/
def Chip.stallTimeout (c : Chip) (n : Fin 4) : Chip := if c.stalled n then c.cause n .jam else c

/-- ENCODER_EDGE: a target match or travel limit that the last count made is dealt with before the edge is counted
(R158, R159, log 25). -/
def Chip.encoderEdge (c : Chip) (n : Fin 4) : Chip :=
  let c := (c.targetMatch n).travelLimit n
  c.onFeed n (·.edge (c.prn n .encPrescale) (c.printer n).state.travels)

/-! ### Taking a request -/

/-- The target position of a request (R141). -/
def Chip.targetOf (c : Chip) (n : Fin 4) (e : PrintEntry) : Nat :=
  c.prn n .topMargin + (e.line - 1) * c.prn n .pitch

/-- The feed toward a target, or STRIKING at once (R141). -/
def Chip.feedTo (c : Chip) (n : Fin 4) (target : Nat) : Chip :=
  let pos := (c.feed n).position
  if pos < (target : Int) then (c.onPrinter n (fun p => { p with state := .feeding })).setMode n .forward
  else if (target : Int) < pos then (c.onPrinter n (fun p => { p with state := .feeding })).setMode n .reverse
  else (c.onPrinter n (fun p => { p with state := .striking })).setMode n .brake

/-- The head request becomes the request in service (R141). -/
def Chip.beginService (c : Chip) (n : Fin 4) (e : PrintEntry) (rest : List PrintEntry) : Chip :=
  let t := c.targetOf n e
  let c := c.onPrinter n (fun p =>
    { p with
      queue := rest
      service := some { entry := e, target := t, begun := false, doneTaken := false, stamp := none }
      bookPage := some e.page })
  (c.writeSlot n e.slot .printing).feedTo n t

/-- REQUEST_TAKE (R141). A READY printer whose earlier request still awaits JU's answer to its stamp takes no new one
(DESIGN CHOICE, log 67). -/
def Chip.requestTake (c : Chip) (n : Fin 4) : Chip :=
  let p := c.printer n
  match p.state, p.queue, p.service with
  | .ready, e :: rest, none =>
    if p.bookPage.isSome && p.bookPage != some e.page then
      ((c.onPrinter n (fun p => { p with pageTurn := some e.page })).report .turnPage n.val e.page).startEject n
    else c.beginService n e rest
  | _, _, _ => c

/-! ### The strike -/

/-- The request in service is no longer in service. -/
def Chip.endService (c : Chip) (n : Fin 4) : Chip := c.onPrinter n (fun p => { p with service := none })

/-- A burst of the host's text is read (R143). -/
def Chip.readText (c : Chip) (n : Fin 4) (s : Fin 8) (burst : Nat) (w : List Word) : Chip :=
  c.push rPRU (.read (c.printAddr n s (3 + 8 * burst)) 4 8) (.textRead n burst (c.printer n).epoch w)

/-- STRIKE_COMPOSE: PRU starts composing the line of a STRIKING printer (R143); not while a character of a message given
up is still going out on its head link (R147). -/
def Chip.strikeCompose (c : Chip) (n : Fin 4) : Chip :=
  let p := c.printer n
  match p.state, p.service with
  | .striking, some v =>
    if v.begun || p.composing || p.head != .idle then c
    else (c.onPrinter n (fun p => { p with composing := true })).readText n v.entry.slot 0 []
  | _, _ => c

/-- A store error at strike time aborts the request (R143). -/
def Chip.abortStrike (c : Chip) (n : Fin 4) (s : Fin 8) : Chip :=
  let c := (c.endHead n).writeSlot n s (.aborted Reason.storeError.code)
  ((c.report .printAborted n.val Reason.storeError.code).endService n).makeReady n

/-- A burst of the text has been answered (R143). -/
def Chip.textAnswered (c : Chip) (n : Fin 4) (burst epoch : Nat) (w : List Word) (okay : Bool) (addr : Nat)
    (data : List Word) : Chip × RecReply :=
  let c := c.pruReport okay addr
  match (c.printer n).service with
  | none => (c, none)
  | some v =>
    if epoch != (c.printer n).epoch then (c, none)
    else if !okay then (c.abortStrike n v.entry.slot, none)
    else if burst == 0 then (c.readText n v.entry.slot 1 data, none)
    else (c.onPrinter n (fun p => { p with text := w ++ data })).recordRead (.strike n epoch) v.entry.seq

/-- The sign of a record's amount on a passbook line: by its kind, and none for an amount of 0 (R48, R51). -/
def JRecord.minus (r : JRecord) : Bool :=
  r.amount != 0 && match recordKindOfCode r.code with | some k => passbookMinus k r.original | none => false

/-- The amount column of a record: its rendering with the passbook sign (R51, R143). -/
def Chip.amountColumn (c : Chip) (r : JRecord) : List Byte := c.amount r.amount r.minus

/-- The 64 characters of the line (R143). -/
def Chip.composeLine (c : Chip) (n : Fin 4) (r : JRecord) : List Byte :=
  let t := wordsBytes (c.printer n).text
  let col := c.prn n .amountCol
  t.take col ++ c.amountColumn r ++ t.drop (col + 17)

/-- The STRIKE message: start character, the line, its CRC-16 least significant byte first, as a field of a message goes
(R144, R197). -/
def strikeMessage (line : List Byte) : List Byte := 0x02 :: line ++ linkBytes 2 (crc16 line)

/-- The message is handed to the head link: the strike has begun (R144). -/
def Chip.sendStrike (c : Chip) (n : Fin 4) (v : Service) (line : List Byte) : Chip :=
  let m := strikeMessage line
  c.onPrinter n (fun p =>
    { p with composing := false, head := .sending m (m.length * headByteClk), service := some { v with begun := true } })

/-- JU has answered the record read of a strike (R143, R144). -/
def Chip.strikeAnswered (c : Chip) (n : Fin 4) (epoch : Nat) (a : RecAnswer) : Chip :=
  match (c.printer n).service with
  | none => c
  | some v =>
    if epoch != (c.printer n).epoch then c
    else match a with
      | .record r _ _ => c.sendStrike n v (c.composeLine n r)
      | _ => c.abortStrike n v.entry.slot

/-- JU's answer to a record read reaches PRU (R74). -/
def Chip.recordReply (c : Chip) : RecReply → Chip
  | none => c
  | some (.submission, a) => c.submissionAnswered a
  | some (.strike n epoch, a) => c.strikeAnswered n epoch a

/-- Words 1 and 2 of the slot have been read: checks 1 to 4, then the record read (R137). -/
def Chip.submissionRead (c : Chip) (okay : Bool) (data : List Word) : Chip :=
  match c.pru.submission with
  | none => c
  | some b =>
    if !okay then c.refuseSubmission b .storeError
    else
      let b := { b with entry := entryOf b.slot data }
      let c := c.onSubmission (fun _ => b)
      match c.submitChecks b with
      | some r => c.refuseSubmission b r
      | none =>
        let q := c.recordRead .submission b.entry.seq
        q.1.recordReply q.2

/-- STRIKE_MESSAGE_SENT: the wait for the head's answer starts (R144). -/
def Chip.strikeMessageSent (c : Chip) (n : Fin 4) : Chip :=
  match (c.printer n).head with
  | .sending _ 0 => c.onPrinter n (fun p => { p with head := .awaiting (c.prn n .headTimeout) })
  | _ => c

/-- DONE from the head: the record is to be stamped PRINTED (R145). -/
def Chip.headDone (c : Chip) (n : Fin 4) : Chip :=
  match (c.printer n).service with
  | some v =>
    (c.onPrinter n (fun p => { p with head := .idle })).askServiceStamp n { v with doneTaken := true } .printed
  | none => c

/-- HEAD_ANSWER: a character from the head within the wait (R144). One that comes when the wait's count has reached 0, but
before HEAD_TIMEOUT is taken, is ignored (DESIGN CHOICE, log 66). -/
def Chip.headAnswer (c : Chip) (n : Fin 4) (char : Byte) : Chip :=
  match (c.printer n).head with
  | .awaiting (_ + 1) =>
    if char == 0x06 then c.headDone n else if char == 0x15 then c.cause n .head else c
  | _ => c

/-- HEAD_TIMEOUT: no answer within HEAD_TIMEOUT_n (R144). -/
def Chip.headTimeout (c : Chip) (n : Fin 4) : Chip :=
  match (c.printer n).head with
  | .awaiting 0 => c.cause n .head
  | _ => c

/-! ### PRINTER_CLEAR and EJECT -/

/-- The latch cleared of every cause but active COVER and OVC (R148). -/
def Chip.clearedLatch (c : Chip) (n : Fin 4) : Latch :=
  let l := (c.feed n).latch
  { Latch.empty with cover := l.cover && c.coverIn n, ovc := l.ovc && c.ovcIn n }

/-- Steps 3 and 4 of PRINTER_CLEAR, and DONE once the words written have been answered (R148, R166). -/
def Chip.clearFinish (c : Chip) (n : Fin 4) : Chip :=
  let was := (c.printer n).state
  let c := c.onPrinter n (fun p => { p with clearing := false, pageTurn := none })
  let c := c.onFeed n (fun f => { f with latch := c.clearedLatch n })
  let c :=
    if (c.feed n).latch != .empty then c
    else
      let c :=
        if c.bookIn n then (if was == .ejecting then c else (c.setMode n .off).startEject n)
        else (c.makeEmpty n).onPrinter n (fun p => { p with bookPage := none })
      let c := if was == .halted then c.report .printerRestarted n.val 0 else c
      c.judgeCauses n
  c.finishWithLast rPRU 0

/-- Step 1 of PRINTER_CLEAR: the queue is cancelled from the head (R148). -/
def Chip.cancelQueue (c : Chip) (n : Fin 4) : Chip :=
  ((c.printer n).queue.foldl (fun c e => c.writeSlot n e.slot (.cancelled Reason.cleared.code)) c).onPrinter n
    (fun p => { p with queue := [] })

/-- PRINTER_CLEAR is served (R148): a request whose strike has begun is waited for. With DONE taken and its stamp not yet
answered the queue is cancelled at once, before the request completes (DESIGN CHOICE, log 79). -/
def Chip.servePrinterClear (c : Chip) (n : Fin 4) : Chip :=
  let c := c.cancelQueue n
  match (c.printer n).service with
  | none => (c.endHead n).clearFinish n
  | some v =>
    let c := c.endHead n
    if !v.begun then ((c.endService n).writeSlot n v.entry.slot (.cancelled Reason.cleared.code)).clearFinish n
    else
      let c := c.onPrinter n (fun p => { p with clearing := true })
      if v.doneTaken || v.stamp.isSome then c else c.askServiceStamp n v .doubtful

/-- EJECT is served (R149). -/
def Chip.serveEject (c : Chip) (n : Fin 4) : Chip :=
  if (c.printer n).state == .ready then (c.startEject n).requestDone else c.requestRefused .printerState n.val

/-- A PRINTER_CLEAR that waited for the stamp goes on (R148). -/
def Chip.clearGoesOn (c : Chip) (n : Fin 4) : Chip := if (c.printer n).clearing then c.clearFinish n else c

/-- JU has answered a stamp request: the request in service ends DONE or DOUBTFUL (R145, R147). -/
def Chip.stampReply (c : Chip) (n : Fin 4) : Chip :=
  match (c.printer n).service with
  | none => c
  | some v =>
    match v.stamp with
    | some .printed =>
      let c := ((c.writeSlot n v.entry.slot .done).report .printDone n.val v.entry.seq).endService n
      let c :=
        if (c.printer n).state == .striking then (if v.entry.ejectAfter then c.startEject n else c.makeReady n) else c
      c.clearGoesOn n
    | some _ =>
      (((c.writeSlot n v.entry.slot .doubtful).report .printDoubtful n.val v.entry.seq).endService n).clearGoesOn n
    | none => c

/-! ### Settings, start-up and placement -/

/-- PRN_PRESENT_n turned on: an EMPTY printer with a book in begins to align, and then its inputs are judged (R140, R161;
DESIGN CHOICE, log 68). -/
def Chip.presentOn (c : Chip) (n : Fin 4) : Chip :=
  if (c.printer n).state == .empty then (if c.bookIn n then c.alignNew n else c).judgeCauses n else c

/-- Word 0 of all 32 slots is read as four bursts of 8 words, 128 bytes apart (R150, log 14), at the place PRINT has now,
also if PRINT moves or is disabled before they are granted (DESIGN CHOICE, log 73). -/
def Chip.scanSlots (c : Chip) : Chip :=
  ({ c with pru := { c.pru with scanning := c.pru.scanning + 4 } }).pushAll rPRU
    (printers.map (fun n => ⟨.read (c.printAddr n 0 0) 128 8, .slotScan n, false⟩))

/-- The alignments that end start-up: of the printers still EMPTY (R150). -/
def Chip.startPrinters (c : Chip) : Chip :=
  printers.foldl (fun c n =>
    if (c.printer n).state == .empty && c.bookIn n && c.prnOn n .present then c.alignNew n else c)
    { c with pru := { c.pru with startUp := false } }

/-- The inputs of all four printers judged (R161), printer 0 first (DESIGN CHOICE, log 85). -/
def Chip.judgeAllCauses (c : Chip) : Chip := printers.foldl (fun c n => c.judgeCauses n) c

/-- PRU at the end of LOADING: the inputs are judged (R161), before any alignment (DESIGN CHOICE, log 61), then the slots
are read when PRINT is enabled, and the printers aligned (R150). -/
def Chip.pruLoaded (c : Chip) : Chip :=
  let c := c.judgeAllCauses
  if c.windowEnabled .print then ({ c with pru := { c.pru with startUp := true } }).scanSlots else c.startPrinters

/-- A slot found QUEUED or PRINTING becomes CANCELLED(RESET), its word 0 written where it was read, at `addr` (R150). -/
def Chip.cancelAt (c : Chip) (n : Fin 4) (s : Fin 8) (addr : Nat) : Chip :=
  let st : SlotStatus := .cancelled Reason.reset.code
  (c.setSlot n s st).push rPRU (.write addr [st.word]) .plain

/-- The slots of a printer taken as read from `addr` on, 128 bytes apart (R150), slot 0 first (DESIGN CHOICE, log 85). -/
def Chip.takeSlots (c : Chip) (n : Fin 4) (addr : Nat) (ws : List Word) : Chip :=
  printSlots.foldl (fun c s =>
    match slotStatusOfWord (wordAt ws s.val) with
    | .queued => c.cancelAt n s (addr + 128 * s.val)
    | .printing => c.cancelAt n s (addr + 128 * s.val)
    | st => c.setSlot n s st) c

/-- A burst of the slot scan has been answered; after the last, start-up and a waiting submission go on (R150). A scan under
way when PRINT moves goes on at the old place, before the one at the new place (DESIGN CHOICE, log 73). -/
def Chip.slotScanned (c : Chip) (n : Fin 4) (okay : Bool) (addr : Nat) (data : List Word) : Chip :=
  let c := (c.pruReport okay addr).takeSlots n addr (if okay then data else [])
  let c := { c with pru := { c.pru with scanning := c.pru.scanning - 1 } }
  if c.pru.scanning == 0 then
    let c := if c.pru.startUp then c.startPrinters else c
    match c.pru.submission with
    | some b => if b.waiting then c.readSubmission b.printer b.slot else c
    | none => c
  else c

end Sys2Proof.Machine
end

