-- ==== Sys2Proof/Machine/Link.lean ====
section
/-! DEFINITION. The Head-Office Link Controller (11): the line, frames, the batch and its verdict. -/

namespace Sys2Proof.Machine

/-- Change HLC's state. -/
def Chip.onHlc (c : Chip) (f : HlcState → HlcState) : Chip := { c with hlc := f c.hlc }

/-- Change the send, if there is one. -/
def Chip.onSend (c : Chip) (f : Send → Send) : Chip := c.onHlc (fun h => { h with send := h.send.map f })

/-! ### Frames -/

/-- The escape of R198: a flag or escape byte goes as 0x7D and the byte exclusive-ored with 0x20. -/
def stuff (bytes : List Byte) : List Byte :=
  bytes.flatMap (fun b => if b == 0x7E || b == 0x7D then [0x7D, b ^^^ 0x20] else [b])

/-- The escape undone; none for an escape with no byte after it, or with the flag after it (R198). -/
def unstuff : List Byte → Option (List Byte)
  | [] => some []
  | [b] => if b == 0x7D then none else some [b]
  | b :: e :: rest =>
    if b == 0x7D then (if e == 0x7E then none else (unstuff rest).map (fun t => (e ^^^ 0x20) :: t))
    else (unstuff (e :: rest)).map (fun t => b :: t)

/-- Bytes received, cut at the flags: each flag closes the frame before it and opens the next (R198). -/
def cutFlags : List Byte → List (List Byte)
  | [] => [[]]
  | b :: rest =>
    if b == 0x7E then [] :: cutFlags rest
    else match cutFlags rest with
      | f :: more => (b :: f) :: more
      | [] => [[b]]

/-- A frame from its kind through its CRC: kind, link number, frame index for data frames, length, payload (R179,
R198). -/
def hoFrame (kind link : Nat) (index : Option Nat) (payload : List Byte) : List Byte :=
  let head := [BitVec.ofNat 8 kind, BitVec.ofNat 8 link]
    ++ (match index with | some i => linkBytes 2 i | none => []) ++ [BitVec.ofNat 8 payload.length]
  let body := head ++ payload
  body ++ crcBytes body

/-- The flag the line carries between frames (R179, R198). -/
def fillFlags : List Byte := [0x7E]

/-- What the part puts on TXD: nothing in LOADING, where TXD is idle (R194); else the frame being sent, flag to flag, or
the flag between frames (R179, R198). -/
def Chip.lineCarries (c : Chip) : List Byte :=
  if c.su.unitState == .loading then [] else if c.hlc.tx.isSome then c.hlc.txBytes else fillFlags

/-- A frame on the line, flag to flag (R198). -/
def flagged (frame : List Byte) : List Byte := 0x7E :: stuff frame ++ [0x7E]

/-! ### The batch -/

/-- R, the number of RECORDS frames (R183). -/
def recordFrames (r : Nat) : Nat := ceilDiv r 5

/-- The total frame count of a batch of `r` records (R183). -/
def totalFrames (r : Nat) : Nat := recordFrames r + 7

/-- The bytes of a signed 64-bit field. -/
def signedBytes (i : Int) : List Byte := linkBytes 8 (i % 18446744073709551616).toNat

/-- The HEADER payload (Table 12-20). -/
def Chip.headerPayload (c : Chip) : List Byte :=
  let d := c.cu.day
  linkBytes 4 (c.setting .branchNo) ++ linkBytes 4 d.date ++ linkBytes 4 d.first ++ linkBytes 4 d.recordCount
    ++ linkBytes 8 d.hash ++ d.closingCounts.toList.flatMap (linkBytes 4) ++ signedBytes d.differenceTotal
    ++ linkBytes 4 (flagBit d.damaged + 2 * flagBit d.openingDiff + 4 * flagBit d.sumsSaturated)

/-- A drawer summary of 80 bytes (Table 12-20). -/
def Chip.summary (c : Chip) (i : Fin 13) : List Byte :=
  let d := c.drawer i
  [BitVec.ofNat 8 i.val, BitVec.ofNat 8 d.state.code, BitVec.ofNat 8 (flagBit d.excess), BitVec.ofNat 8 d.saturatedBits]
    ++ d.counts.toList.flatMap (linkBytes 2) ++ d.sums.flatMap (linkBytes 8) ++ linkBytes 4 d.recordCount
    ++ linkBytes 4 d.lastSeq

/-- The TRAILER payload (Table 12-20). -/
def Chip.trailerPayload (c : Chip) : List Byte :=
  linkBytes 8 c.cu.day.hash ++ linkBytes 4 (totalFrames c.cu.day.recordCount)

/-- The sequence numbers frame `i` carries, 1 to R (R183). -/
def Chip.frameSeqs (c : Chip) (i : Nat) : List Nat :=
  (List.range (Nat.min 5 (c.cu.day.recordCount - 5 * (i - 1)))).map (fun k => seqPlus c.cu.day.first (5 * (i - 1) + k))

/-- A data frame of index `i` with its kind and payload (R183, R186). -/
def dataFrame (i kind : Nat) (payload : List Byte) : List Byte := hoFrame kind (i % 256) (some i) payload

/-! ### Ends of a send -/

/-- The send ends: timers, lists and frame store gone; a frame being built is given up (R192). -/
def Chip.endSend (c : Chip) : Chip := c.onHlc (fun h => { h with send := none, build := none, epoch := h.epoch + 1 })

/-- The send fails: CU makes the day CLOSED and reports SEND_FAILED (R192, R173). -/
def Chip.sendFails (c : Chip) (why : FailReason) : Chip :=
  if c.hlc.send.isSome then c.endSend.dayFailed why else c

/-- HLC tells the Screen Unit the acknowledged and total counts (R192, R113). -/
def Chip.tellCounts (c : Chip) (acked total : Nat) : Chip :=
  ({ c with scu := { c.scu with ackedFrames := acked, totalFrames := total } }).statusEventAll

/-- The ack timer's time (R186). -/
def Chip.ackTime (c : Chip) : Nat := c.linkSet .ackTime * 1000

/-- The resume time, of the hold and resume timers (R190, R191). -/
def Chip.resumeTime (c : Chip) : Nat := c.linkSet .resumeTime * 60000

/-- HLC begins a send handed over by CU (R185). -/
def Chip.sendBegin (c : Chip) : Chip :=
  let total := totalFrames c.cu.day.recordCount
  let up := c.hlc.link == .up
  let s : Send :=
    { state := if up then .active else .suspended, total := total, next := 0, out := [], resend := none, recent := [],
      acked := 0, ackTimer := none, holdTimer := none, resumeTimer := if up then none else some c.resumeTime,
      verdictTimer := none }
  (c.onHlc (fun h => { h with send := some s, build := none, epoch := h.epoch + 1 })).tellCounts 0 total

/-- START_SEND is served (R171). -/
def Chip.serveStartSend (c : Chip) : Chip :=
  if c.cu.day.state != .closed then c.requestRefused .dayState 0
  else (c.daySending.sendBegin).writeAnchorOutside .request

/-! ### The line -/

/-- Carrier and receive clock both present (R177). -/
def Chip.lineReady (c : Chip) : Bool := c.pins.carrier && c.pins.receiveClock

/-- The link becomes CALLING: a HELLO is due and the HELLO timer starts (R177). -/
def Chip.goCalling (c : Chip) : Chip :=
  c.onHlc (fun h => { h with link := .calling, helloDue := true, helloTimer := some (c.linkSet .helloTime * 1000) })

/-- A DOWN link with carrier and clock present goes to CALLING (R177, R194). -/
def Chip.callIfReady (c : Chip) : Chip :=
  if c.su.unitState != .loading && c.hlc.link == .down && c.lineReady then c.goCalling else c

/-- A send that is ACTIVE or HELD becomes SUSPENDED (R178, R190). -/
def Chip.suspendSend (c : Chip) : Chip :=
  c.onSend (fun s =>
    if s.state == .active || s.state == .held then
      { s with state := .suspended, resend := none, ackTimer := none, holdTimer := none, resumeTimer := some c.resumeTime }
    else s)

/-- The link goes DOWN from CALLING or UP (R178), and on to CALLING when the line is ready (R177). -/
def Chip.linkDown (c : Chip) (why : LinkCause) : Chip :=
  let wasUp := c.hlc.link == .up
  let keep := why == .carrier || why == .clock
  let c := c.onHlc (fun h =>
    { h with
      link := .down, errors := if keep then h.errors else 0, helloTimer := none, keepaliveTimer := none,
      silenceTimer := none, helloDue := false, keepaliveDue := false, helloAckOwed := false, tx := none, txBytes := [],
      build := none, epoch := h.epoch + 1 })
  let c := if wasUp then c.report .linkDown 0 why.code else c
  c.suspendSend.callIfReady

/-- A loss of carrier or clock, or another cause, in CALLING or UP (R177). -/
def Chip.linkLoss (c : Chip) (why : LinkCause) : Chip := if c.hlc.link == .down then c else c.linkDown why

/-- The keepalive time (R181). -/
def Chip.keepaliveTime (c : Chip) : Nat := c.linkSet .keepalive * 1000

/-- A SUSPENDED send goes on when the link is UP (R190). -/
def Chip.resumeSend (c : Chip) : Chip :=
  c.onSend (fun s =>
    if s.state == .suspended then
      { s with state := .active, resumeTimer := none, resend := (s.out.head?).map (·.index) }
    else s)

/-- The link becomes UP (R177, R181, R190). -/
def Chip.linkUp (c : Chip) : Chip :=
  let c := c.onHlc (fun h =>
    { h with
      link := .up, helloTimer := none, helloDue := false, keepaliveDue := false,
      keepaliveTimer := some c.keepaliveTime, silenceTimer := some (3 * c.keepaliveTime) })
  (c.report .linkUp 0 0).resumeSend

/-- LINK_RESET is served (R193). -/
def Chip.serveLinkReset (c : Chip) : Chip :=
  let c := if c.hlc.link == .down then (c.onHlc (fun h => { h with errors := 0 })).callIfReady else c.linkDown .reset
  c.requestDone

/-- CARRIER_CHANGE (R177). -/
def Chip.carrierChange (c : Chip) (present : Bool) : Chip :=
  let c := { c with pins := { c.pins with carrier := present } }
  if present then c.callIfReady else c.linkLoss .carrier

/-- RECEIVE_CLOCK_LOSS (R177). -/
def Chip.receiveClockLoss (c : Chip) : Chip :=
  ({ c with pins := { c.pins with receiveClock := false } }).linkLoss .clock

/-- RECEIVE_CLOCK_RETURN (R177). -/
def Chip.receiveClockReturn (c : Chip) : Chip :=
  ({ c with pins := { c.pins with receiveClock := true } }).callIfReady

/-- HELLO_TIMER_EXPIRY: another HELLO is due and the timer restarts (R177). -/
def Chip.helloTimerExpiry (c : Chip) : Chip :=
  if c.hlc.link == .calling && c.hlc.helloTimer == some 0 then c.goCalling else c

/-- KEEPALIVE_TIMER_EXPIRY: a KEEPALIVE is due (R181). -/
def Chip.keepaliveTimerExpiry (c : Chip) : Chip :=
  if c.hlc.keepaliveTimer == some 0 then c.onHlc (fun h => { h with keepaliveTimer := none, keepaliveDue := true }) else c

/-- SILENCE_TIMER_EXPIRY (R177, R181). -/
def Chip.silenceTimerExpiry (c : Chip) : Chip :=
  if c.hlc.silenceTimer == some 0 then c.linkLoss .silence else c

/-! ### Frames received -/

/-- A valid frame restarts the silence timer while the link is UP (R181). -/
def Chip.heard (c : Chip) : Chip :=
  if c.hlc.link == .up then c.onHlc (fun h => { h with silenceTimer := some (3 * c.keepaliveTime) }) else c

/-- A line error (R180). -/
def Chip.lineError (c : Chip) : Chip :=
  let c := c.onHlc (fun h => { h with errors := Nat.min 15 (h.errors + 1) })
  if c.linkSet .errThreshold ≤ c.hlc.errors then c.linkLoss .errors else c

/-- A valid frame that is no line error: the count is 0 (R180). -/
def Chip.goodFrame (c : Chip) : Chip := c.heard.onHlc (fun h => { h with errors := 0 })

/-- A frame received in DOWN is ignored (R180). -/
def Chip.receiving (c : Chip) : Bool := c.hlc.link != .down

/-- HELLO: a HELLO_ACK is owed (R177, R182). -/
def Chip.hoHello (c : Chip) : Chip :=
  if c.receiving then c.goodFrame.onHlc (fun h => { h with helloAckOwed := true }) else c

/-- HELLO_ACK: in CALLING the link is UP (R177). -/
def Chip.hoHelloAck (c : Chip) : Chip :=
  if c.receiving then
    let c := c.goodFrame
    if c.hlc.link == .calling then c.linkUp else c
  else c

/-- KEEPALIVE (R181). -/
def Chip.hoKeepalive (c : Chip) : Chip := if c.receiving then c.goodFrame else c

/-- Whether a link number names a frame outstanding (R180). -/
def Send.isOut (s : Send) (n : Nat) : Bool := s.out.any (·.link == n)

/-- Whether an ACK or NAK names a frame outstanding or recently acknowledged (R180). -/
def Chip.namesFrame (c : Chip) (n : Nat) : Bool :=
  match c.hlc.send with
  | some s => s.isOut n || s.recent.contains n
  | none => false

/-- The last four of a list. -/
def lastFour (l : List Nat) : List Nat := l.drop (l.length - 4)

/-- The frames before the one with link number `n`, and the rest from it on. -/
def Send.before (s : Send) (n : Nat) : List Outstanding := s.out.takeWhile (·.link != n)

/-- Frames acknowledged at the head of the list: they leave it, join the recent list, and the count moves (R187). A
resend point that named one moves to the new head. -/
def Send.acknowledge (s : Send) (done : List Outstanding) : Send :=
  match done.reverse with
  | [] => s
  | last :: _ =>
    let rest := s.out.drop done.length
    { s with
      out := rest
      recent := lastFour (s.recent ++ done.map (·.link))
      acked := last.index + 1
      resend := match s.resend with
        | some r => if r ≤ last.index then (rest.head?).map (·.index) else some r
        | none => none }

/-- The send tells the Screen Unit a changed acknowledged count. -/
def Chip.tellAcked (c : Chip) (before : Nat) : Chip :=
  match c.hlc.send with
  | some s => if s.acked == before then c else c.tellCounts s.acked s.total
  | none => c

/-- HELD ends: the send is ACTIVE and its hold timer stops (R187). -/
def Send.endHeld (s : Send) : Send := if s.state == .held then { s with state := .active, holdTimer := none } else s

/-- The end of a batch's sending: AWAIT_VERDICT once the trailer is acknowledged (R187, R191). -/
def Send.judgeTrailer (s : Send) (verdictMs : Nat) : Send :=
  if s.acked == s.total && s.state != .awaitVerdict then
    { s with state := .awaitVerdict, ackTimer := none, holdTimer := none, resend := none, verdictTimer := some verdictMs }
  else s

/-- A send after an ACK of an outstanding frame (R187). -/
def Send.takeAck (s : Send) (n ackMs verdictMs : Nat) : Send :=
  let s' := s.acknowledge (s.out.take ((s.before n).length + 1))
  (({ s' with ackTimer := if s'.out.isEmpty then none else some ackMs }).endHeld).judgeTrailer verdictMs

/-- ACK(n) (R187, R180). -/
def Chip.hoAck (c : Chip) (n : Nat) : Chip :=
  if !c.receiving then c
  else if !c.namesFrame n then c.heard.lineError
  else
    let c := c.goodFrame
    match c.hlc.link, c.hlc.send with
    | .up, some s =>
      if s.isOut n then (c.onSend (·.takeAck n c.ackTime (c.linkSet .verdictTime * 1000))).tellAcked s.acked
      else c.onSend (·.endHeld)
    | _, _ => c

/-- A go-back from the frame with link number `n` (R188). -/
def Send.goBack (s : Send) (n ackMs : Nat) : Send :=
  let s := s.acknowledge (s.before n)
  { s with resend := (s.out.head?).map (·.index), ackTimer := some ackMs }

/-- NAK(n) (R188, R180). -/
def Chip.hoNak (c : Chip) (n : Nat) : Chip :=
  if !c.receiving then c
  else if !c.namesFrame n then c.heard.lineError
  else
    let c := c.goodFrame
    match c.hlc.link, c.hlc.send with
    | .up, some s => if s.isOut n then (c.onSend (·.goBack n c.ackTime)).tellAcked s.acked else c
    | _, _ => c

/-- ACK_TIMER_EXPIRY: a go-back from the oldest frame (R188). -/
def Chip.ackTimerExpiry (c : Chip) : Chip :=
  match c.hlc.send with
  | some s =>
    match s.ackTimer, s.out with
    | some 0, o :: _ => c.onSend (·.goBack o.link c.ackTime)
    | _, _ => c
  | none => c

/-- HOLD (R191). -/
def Chip.hoHold (c : Chip) : Chip :=
  if c.receiving then
    let c := c.goodFrame
    if c.hlc.link == .up then
      c.onSend (fun s =>
        if s.state == .active then { s with state := .held, ackTimer := none, holdTimer := some c.resumeTime } else s)
    else c
  else c

/-- ABORT (R191). -/
def Chip.hoAbort (c : Chip) : Chip :=
  if c.receiving then
    let c := c.goodFrame
    if c.hlc.link == .up then c.sendFails .aborted else c
  else c

/-- The send state, if there is a send. -/
def Chip.sendState (c : Chip) : Option SendState := c.hlc.send.map (·.state)

/-- ACCEPTED (R191, R172): in AWAIT_VERDICT the day is SENT; otherwise a line error. -/
def Chip.hoAccepted (c : Chip) (batch : Nat) : Chip :=
  if !c.receiving then c
  else if c.sendState != some .awaitVerdict then c.heard.lineError
  else
    let c := c.goodFrame
    if c.hlc.link == .up then (c.endSend.daySent batch).report .sendDone 0 batch else c

/-- REJECTED (R191). -/
def Chip.hoRejected (c : Chip) : Chip :=
  if c.receiving then
    let c := c.goodFrame
    let takes := c.sendState == some .active || c.sendState == some .held || c.sendState == some .awaitVerdict
    if c.hlc.link == .up && takes then c.sendFails .rejected else c
  else c

/-- HOLD_TIMER_EXPIRY (R191). -/
def Chip.holdTimerExpiry (c : Chip) : Chip :=
  if c.hlc.send.bind (·.holdTimer) == some 0 then c.sendFails .held else c

/-- RESUME_TIMER_EXPIRY (R190). -/
def Chip.resumeTimerExpiry (c : Chip) : Chip :=
  if c.hlc.send.bind (·.resumeTimer) == some 0 then c.sendFails .link else c

/-- VERDICT_TIMER_EXPIRY (R191). -/
def Chip.verdictTimerExpiry (c : Chip) : Chip :=
  if c.hlc.send.bind (·.verdictTimer) == some 0 then c.sendFails .noVerdict else c

/-- A frame read by its bytes (R179, R198). -/
inductive HoFrame where
  | hello | helloAck | keepalive | hold | abort | rejected
  | ack (n : Nat) | nak (n : Nat)
  | accepted (batch : Nat)
  | invalid
  deriving DecidableEq, Repr

/-- The frame a kind, link number and payload make, if the length suits (Table 11-2, Table 12-19). -/
def hoFrameOf (kind link : Nat) (payload : List Byte) : HoFrame :=
  match kind, payload with
  | 0x01, [] => .hello
  | 0x02, [] => .helloAck
  | 0x03, [] => .keepalive
  | 0x20, [] => .ack link
  | 0x21, [] => .nak link
  | 0x22, [] => .hold
  | 0x23, [_] => .abort
  | 0x24, [a, b, c, d] => .accepted (wordOf a b c d).toNat
  | 0x25, [_] => .rejected
  | _, _ => .invalid

/-- The bytes between two flags judged: escape, length and CRC (R179, R198). -/
def readHoFrame (bytes : List Byte) : HoFrame :=
  match unstuff bytes with
  | some (kind :: link :: len :: rest) =>
    let payload := rest.take (rest.length - 2)
    if len.toNat + 2 == rest.length && rest.drop (rest.length - 2) == crcBytes (kind :: link :: len :: payload) then
      hoFrameOf kind.toNat link.toNat payload
    else .invalid
  | _ => .invalid

/-- The bytes between two flags are judged; a frame that is not valid is a line error (R180). One whose bytes turn out
valid is dealt with as such (log 45). Two flags with nothing between are no frame (R198). -/
def Chip.hoFrameBytes (c : Chip) (bytes : List Byte) : Chip :=
  if c.receiving && !bytes.isEmpty then
    match readHoFrame bytes with
    | .hello => c.hoHello
    | .helloAck => c.hoHelloAck
    | .keepalive => c.hoKeepalive
    | .hold => c.hoHold
    | .abort => c.hoAbort
    | .rejected => c.hoRejected
    | .ack n => c.hoAck n
    | .nak n => c.hoNak n
    | .accepted b => c.hoAccepted b
    | .invalid => c.lineError
  else c

/-- INVALID_FRAME: bytes received after a flag, up to the next, are judged as a frame; a flag among them closes one frame
and opens the next (R198). -/
def Chip.hoBytes (c : Chip) (bytes : List Byte) : Chip := (cutFlags bytes).foldl (fun c f => c.hoFrameBytes f) c

/-! ### The transmitter -/

/-- A frame is handed to the line. -/
def Chip.transmit (c : Chip) (tx : HoTx) (frame : List Byte) : Chip :=
  c.onHlc (fun h => { h with tx := some tx, txBytes := flagged frame })

/-- The last byte of the frame being sent has gone: the keepalive timer restarts, the ack timer may start, and a
HELLO_ACK sent in CALLING brings the link UP (R177, R181, R186). -/
def Chip.txEnds (c : Chip) : Chip :=
  match c.hlc.tx with
  | none => c
  | some tx =>
    let c := c.onHlc (fun h => { h with tx := none, txBytes := [] })
    let c := if c.hlc.link == .up then
        c.onHlc (fun h => { h with keepaliveDue := false, keepaliveTimer := some c.keepaliveTime })
      else c
    match tx with
    | .helloAck => if c.hlc.link == .calling then c.linkUp else c
    | .data _ start epoch =>
      if start && epoch == c.hlc.epoch then
        c.onSend (fun s => if s.state == .active && !s.out.isEmpty then { s with ackTimer := some c.ackTime } else s)
      else c
    | _ => c

/-- A new data frame enters the tail of the list and goes on the line (R186). -/
def Chip.sendNew (c : Chip) (s : Send) (kind : Nat) (payload : List Byte) : Chip :=
  let f := dataFrame s.next kind payload
  let o : Outstanding := { index := s.next, link := s.next % 256, sends := 1, copy := f }
  (c.onSend (fun s => { s with next := s.next + 1, out := s.out ++ [o] })).transmit
    (.data s.next s.out.isEmpty c.hlc.epoch) f

/-- The next record of a RECORDS frame is read (R184). -/
def Chip.readRecord (c : Chip) (b : Build) : Chip :=
  match b.seqs with
  | s :: _ => (c.onHlc (fun h => { h with build := some b })).push rHLC (.read (c.ringAddr s 0) 4 8) (.batchRead 0 c.hlc.epoch [])
  | [] => c

/-- HLC builds the next data frame (R184). -/
def Chip.buildFrame (c : Chip) (s : Send) : Chip :=
  let r := recordFrames c.cu.day.recordCount
  if s.next == 0 then c.sendNew s 0x10 c.headerPayload
  else if s.next ≤ r then c.readRecord { index := s.next, seqs := c.frameSeqs s.next, words := [] }
  else if s.next < s.total - 1 then
    c.sendNew s 0x12 (((drawerIndices.drop (3 * (s.next - r - 1))).take 3).flatMap c.summary)
  else c.sendNew s 0x13 c.trailerPayload

/-- Whether a new data frame may be sent (R182, item 4). -/
def Chip.mayBuild (c : Chip) (s : Send) : Bool :=
  c.hlc.link == .up && s.state == .active && s.resend.isNone && s.out.length < c.linkSet .window && s.next < s.total

/-- The frame of an index is resent, its sends count raised and the resend point moved on; with the retries used up the
send fails (R188, R189). An ack timer that is stopped, at a go-on of R190 or by a HOLD that has ended, starts at the
resend's last byte (DESIGN CHOICE, log 72). -/
def Chip.resendFrame (c : Chip) (s : Send) (i : Nat) : Chip :=
  match s.out.find? (·.index == i) with
  | none => c.onSend (fun s => { s with resend := none })
  | some o =>
    if 1 + c.linkSet .frameRetries ≤ o.sends then c.sendFails .retries
    else
      let c := c.onSend (fun s =>
        { s with
          out := s.out.map (fun x => if x.index == i then { x with sends := x.sends + 1 } else x)
          resend := (s.out.find? (fun x => i < x.index)).map (·.index) })
      c.transmit (.data i s.ackTimer.isNone c.hlc.epoch) o.copy

/-- A KEEPALIVE, when one is due (R182, item 5). -/
def Chip.sendKeepalive (c : Chip) : Chip :=
  if c.hlc.link == .up && c.hlc.keepaliveDue then
    (c.onHlc (fun h => { h with keepaliveDue := false })).transmit .keepalive (hoFrame 0x03 0 none [])
  else c

/-- The free transmitter chooses the first frame that applies (R182). -/
def Chip.chooseFrame (c : Chip) : Chip :=
  if c.hlc.tx.isSome || c.hlc.build.isSome || c.hlc.link == .down then c
  else if c.hlc.helloAckOwed then
    (c.onHlc (fun h => { h with helloAckOwed := false })).transmit .helloAck (hoFrame 0x02 0 none [])
  else if c.hlc.link == .calling then
    if c.hlc.helloDue then
      (c.onHlc (fun h => { h with helloDue := false })).transmit .hello
        (hoFrame 0x01 0 none (linkBytes 4 (c.setting .branchNo)))
    else c
  else match c.hlc.send with
    | none => c.sendKeepalive
    | some s =>
      match s.resend with
      | some i => c.resendFrame s i
      | none => if c.mayBuild s then c.buildFrame s else c.sendKeepalive

/-- TRANSMITTER_FREE: the frame being sent has gone, and the next one due is chosen (R182). -/
def Chip.transmitterFree (c : Chip) : Chip := c.txEnds.chooseFrame

/-- A RECORDS frame has been read in full: it is sent, if a new frame may still be (R184, R186). -/
def Chip.recordsBuilt (c : Chip) (b : Build) : Chip :=
  let c := c.onHlc (fun h => { h with build := none })
  match c.hlc.send with
  | some s => if c.mayBuild s && s.next == b.index then c.sendNew s 0x11 (wordsBytes b.words) else c.chooseFrame
  | none => c

/-- A read of a RECORDS frame has been answered (R184). -/
def Chip.batchAnswered (c : Chip) (burst epoch : Nat) (w : List Word) (okay : Bool) (addr : Nat) (data : List Word) :
    Chip :=
  let c := if okay then c else c.reportStore rHLC addr
  match c.hlc.build with
  | none => c
  | some b =>
    if epoch != c.hlc.epoch then c
    else if !okay then c.sendFails .store
    else if burst == 0 then c.push rHLC (.read (addr + 32) 4 4) (.batchRead 1 epoch data)
    else match b.seqs with
      | [] => c
      | s :: rest =>
        let ws := w ++ data
        if (wordAt ws 0).toNat != s then c.sendFails .store
        else
          let b := { b with seqs := rest, words := b.words ++ ws }
          if rest.isEmpty then c.recordsBuilt b else c.readRecord b

end Sys2Proof.Machine
end

