-- ==== Sys2Proof/Machine/Setup.lean ====
section
/-! DEFINITION. The Setup Unit (02): settings and what their owners do with them, requests, reports, and the end of
LOADING. -/

namespace Sys2Proof.Machine

/-- Change SU's state. -/
def Chip.onSu (c : Chip) (f : SuState → SuState) : Chip := { c with su := f c.su }

/-- Change AP's state. -/
def Chip.onAp (c : Chip) (f : ApState → ApState) : Chip := { c with ap := f c.ap }

/-! ### Judging a setting -/

/-- Whether a freeze group is frozen (R22). -/
def Chip.frozen (c : Chip) : FreezeGroup → Bool
  | .never => false
  | .day => c.cu.day.state != .noDay
  | .printer n => (c.printer n).state != .empty || !(c.printer n).queue.isEmpty
  | .link => c.cu.day.state == .sending

/-- SU's judgement of a written setting: refused, passed, or substituted with a value (R21). -/
inductive Verdict where
  | refuse
  | pass
  | substitute (v : Word)
  deriving DecidableEq, Repr

/-- A value brought into range: passed when it is, substituted when it is not. -/
def verdictOf (v : Word) (inForce : Nat) : Verdict := if v.toNat == inForce then .pass else .substitute (wd inForce)

/-- The other word of CEILING_p as the store `m` holds it (R23). -/
def Chip.ceilingOther (c : Chip) (m : List Host.Cell) (p : Fin 12) (upper : Bool) : Word :=
  readWord m (c.setupAddr (0x200 + 4 * (Setting.ceiling p (!upper)).index))

/-- The 64-bit value a write of a half of CEILING_p makes with the other half as the store `m` holds it (R23). -/
def Chip.ceilingWith (c : Chip) (m : List Host.Cell) (p : Fin 12) (upper : Bool) (v : Word) : Nat :=
  if upper then nat64 (c.ceilingOther m p upper) v else nat64 v (c.ceilingOther m p upper)

/-- A half of the amount cap. -/
def capHalf (upper : Bool) : Word := if upper then wd (Config.amountCap / Config.wordModulus) else wd Config.amountCap

/-- SU judges a setting word, the store standing as `m` (R21, R22, R23). -/
def Chip.judgeSetting (c : Chip) (m : List Host.Cell) (k : Setting) (v : Word) : Verdict :=
  if c.frozen k.group then .refuse
  else match k with
    | .jnlCapacity =>
      verdictOf v (clampCapacity (c.setting (.placement 0 false)) (c.setting (.placement 0 true)) v.toNat)
    | .ceiling p upper => if c.ceilingWith m p upper v ≤ Config.amountCap then .pass else .substitute (capHalf upper)
    | k => verdictOf v (k.clamp v.toNat)

/-! ### What follows an accepted setting -/

/-- SU writes a setting word back, as its image has it when the write is granted, and asks for a CRC rewrite (R23, R24,
R27, log 51). An ERROR is reported, the value in force stands and the write is not made again (DESIGN CHOICE, log 74). -/
def Chip.writeBack (c : Chip) (i : Nat) (w : Word) : Chip :=
  ((c.putImage i w).push rSU (.settingWords i 1) .plain).askSettingsCrc

/-- The placement the settings give a window (R2). -/
def Chip.placementSet (c : Chip) (w : Fin 6) : Placement :=
  ⟨c.setting (.placement w false), c.setting (.placement w true)⟩

/-- The usable mark: the window is enabled, its fit is at least 1,024, and so is the capacity in force (R3, R23,
log 21). -/
def Chip.usableNow (c : Chip) : Bool :=
  let j := c.placement 0
  j.enabled && 1024 ≤ journalFit j.base j.limit && 1024 ≤ c.capacity

/-- The usable mark is re-evaluated; in a usable window the posting slots are resolved, and in one that is not JU makes no
more of its accesses (R3, R57). -/
def Chip.journalChanged (c : Chip) : Chip :=
  let c := c.onAp (fun a => { a with journalUsable := c.usableNow })
  if c.ap.journalUsable then c.resolveSlots else c.stopResolving

/-- The capacity lowered to a JOURNAL window's fit (R23). -/
def Chip.lowerCapacity (c : Chip) : Chip :=
  let j := c.placement 0
  if j.enabled && journalFit j.base j.limit < c.capacity then
    c.writeBack Setting.jnlCapacity.index (wd (journalFit j.base j.limit))
  else c

/-- An accepted REPORT placement write empties the ring (R35). -/
def Chip.reportMoved (c : Chip) : Chip :=
  let c := c.onSu (fun u => { u with writeIndex := u.readIndex, overflow := false, epoch := u.epoch + 1, writing := none })
  (c.push rSU (.write (c.setupAddr 0x140) [wd c.su.writeIndex]) .silent).push rSU (.write (c.setupAddr 0x144) [0]) .silent

/-- Whether an own access is one of a drawer mirror. -/
def Tag.mirrors : Tag → Bool
  | .mirror _ _ _ => true
  | _ => false

/-- TOTALS has been disabled: the mirror writes still to be granted are not made, and what would have followed their last
follows (R77). -/
def Chip.dropMirrors (c : Chip) : Chip :=
  let q : List OwnReq := c.own[rCU.val]
  (q.filter (fun r : OwnReq => r.tag.mirrors)).foldl
    (fun c r => match r.tag with | .mirror _ _ k => c.runAfter k | _ => c)
    { c with own := vput c.own rCU (q.filter (fun r : OwnReq => !r.tag.mirrors)) }

/-- The TOTALS placement has changed: all mirrors are written at the new place, or none when it is disabled (R77). -/
def Chip.totalsMoved (c : Chip) : Chip :=
  if c.windowEnabled .totals then c.writeMirrors drawerIndices .nothing else c.dropMirrors

/-- An accepted placement write: the table entry, then the window's owner (R2, R23, R35, R57, R77, R117, R134, R150). A slot
scan under way goes on at PRINT's old place, before the one this asks for (DESIGN CHOICE, log 73). -/
def Chip.placementTaken (c : Chip) (w : Fin 6) (changed : Bool) : Chip :=
  let c := c.onAp (fun a => { a with placed := vput a.placed w (c.placementSet w) })
  match windowAt w with
  | .journal => c.lowerCapacity.journalChanged
  | .totals => if changed then c.totalsMoved else c
  | .screens => if changed then c.scuMoved.slcMoved else c
  | .print => if changed && c.windowEnabled .print then c.scanSlots else c
  | .report => c.reportMoved
  | .broadcast => c
  | .setup => c

/-- All twelve idle timers restart (R109). -/
def Chip.restartAllIdle (c : Chip) : Chip := positions.foldl (fun c p => c.restartIdle p) c

/-- The modulation restarts at step 0 with a new period (R152). -/
def Chip.stepRestart (c : Chip) (n : Fin 4) : Chip := c.onFeed n (fun f => { f with step := 0, stepClk := 0 })

/-- What a printer setting's owner does at once when its value has changed (R140, R152, R158, R164). -/
def Chip.printerSettingChanged (c : Chip) (n : Fin 4) (k : PrnSetting) : Chip :=
  match k with
  | .present => if c.prnOn n .present then c.presentOn n else c
  | .autoRestart => if c.prnOn n .autoRestart then c.testRestart n else c
  | .pwmPrescale => c.stepRestart n
  | .pwmPeriod => c.stepRestart n
  | .encPrescale => c.onFeed n (fun f => { f with prescale := 0 })
  | _ => c

/-- What the owners do at once when a setting's value in force has changed (Table 2-2, R42, R105, R109, R113, R133). -/
def Chip.settingChanged (c : Chip) (k : Setting) : Chip :=
  match k with
  | .decimals => c.statusEventAll
  | .separators => c.statusEventAll
  | .ceiling p _ => c.ceilingChanged p
  | .idleBlank => c.restartAllIdle
  | .capOverride p => c.decidePlain p
  | .colour p => c.decidePlain p
  | .lineRate l => c.lineRestart l
  | .lineGap l => c.lineRestart l
  | .printer n k => c.printerSettingChanged n k
  | _ => c

/-- A setting of one word has been stored: SU takes the value, asks for the CRC rewrite and tells the owner (R21, R24). -/
def Chip.wordTaken (c : Chip) (k : Setting) (w : Word) : Chip :=
  let old := c.setting k
  let c := (c.putImage k.index w).askSettingsCrc
  match k with
  | .placement i _ => c.placementTaken i (w.toNat != old)
  | .jnlCapacity => c.journalChanged
  | k => if w.toNat == old then c else c.settingChanged k

/-- A half of CEILING_p has been stored, `subst` saying that it was substituted (R23). A passed value is the one the two
words of the store `m` make. A substituted one is the cap, and the other half is written back; so it is when a write-back
of the other half, granted since the word was judged, makes the two exceed the cap (log 29). -/
def Chip.takeCeiling (c : Chip) (m : List Host.Cell) (p : Fin 12) (upper : Bool) (w : Word) (subst : Bool) : Chip :=
  let one := (Setting.ceiling p upper).index
  let other := (Setting.ceiling p (!upper)).index
  if subst then (c.putImage one w).askSettingsCrc.writeBack other (capHalf (!upper))
  else if Config.amountCap < c.ceilingWith m p upper w then
    (c.writeBack one (capHalf upper)).writeBack other (capHalf (!upper))
  else ((c.putImage one w).putImage other (c.ceilingOther m p upper)).askSettingsCrc

/-- A setting word has been stored: SU takes the value, asks for the CRC rewrite and tells the owner (R21, R23, R24).
`subst` says that the word was substituted: for a ceiling the other half is then written too. -/
def Chip.settingTaken (c : Chip) (m : List Host.Cell) (k : Setting) (w : Word) (subst : Bool) : Chip :=
  match k with
  | .ceiling p upper =>
    let old := c.ceilingOf p
    let c := c.takeCeiling m p upper w subst
    if c.ceilingOf p == old then c else c.settingChanged k
  | k => c.wordTaken k w

/-! ### Requests -/

/-- The requests of Table 12-12. -/
inductive Request where
  | closeDay | startSend | clearDay | linkReset | printerClear | printerRestart | printerHalt | eject
  | screenMode | screenRefresh | lineReset | drawerRelease
  deriving DecidableEq, Repr

/-- The request a code names (Table 12-12). -/
def requestOfCode : Nat → Option Request
  | 1 => some .closeDay | 2 => some .startSend | 3 => some .clearDay | 4 => some .linkReset
  | 5 => some .printerClear | 6 => some .printerRestart | 7 => some .printerHalt | 8 => some .eject
  | 9 => some .screenMode | 10 => some .screenRefresh | 11 => some .lineReset | 12 => some .drawerRelease
  | _ => none

/-- The code of a request (Table 12-12). -/
def Request.code : Request → Nat
  | .closeDay => 1 | .startSend => 2 | .clearDay => 3 | .linkReset => 4 | .printerClear => 5 | .printerRestart => 6
  | .printerHalt => 7 | .eject => 8 | .screenMode => 9 | .screenRefresh => 10 | .lineReset => 11
  | .drawerRelease => 12

/-- Whether a request is served while REBUILDING (R31, check 2). -/
def Request.whileRebuilding : Request → Bool
  | .screenMode => true | .screenRefresh => true | .lineReset => true | _ => false

/-- Whether a request has operands (Table 2-5). -/
def Request.hasOperands : Request → Bool
  | .closeDay => false | .startSend => false | .clearDay => false | .linkReset => false | _ => true

/-- The bits of operand 1 that Table 12-3 assigns to SCREEN_MODE. -/
def modeOperandMask : Word := 0x001F1F07

/-- A position, printer or line of operand 0, when in range. -/
def operandFin (n : Nat) (w : Word) : Option (Fin n) := finOf n w.toNat

/-- The mode operand 1 of SCREEN_MODE asks for, when allowed: NORMAL and BLANKED are held as first 0 and last 23
(R31, R107). -/
def modeOperand (w : Word) : Option Mode :=
  let first := field w 8 5
  let last := field w 16 5
  if w &&& modeOperandMask != w then none
  else match modeKindOfCode (field w 0 2) with
    | some .partialRows => if first ≤ last && last ≤ 23 then some ⟨.partialRows, first, last⟩ else none
    | some k => some ⟨k, 0, 23⟩
    | none => none

/-- The request without operands is served by its owner; requests with operands are not served here. -/
def Chip.serveBare (c : Chip) : Request → Chip
  | .closeDay => c.serveCloseDay
  | .startSend => c.serveStartSend
  | .clearDay => c.serveClearDay
  | .linkReset => c.serveLinkReset
  | _ => c.requestRefused .badOperand 0

/-- BAD_OPERAND (R31). -/
def Chip.badOperand (c : Chip) : Chip := c.requestRefused .badOperand 0

/-- A request whose one operand names a printer. -/
def Chip.servePrinterRequest (c : Chip) (serve : Chip → Fin 4 → Chip) (op0 op1 : Word) : Chip :=
  match operandFin 4 op0 with
  | some n => if op1 == 0 then serve c n else c.badOperand
  | none => c.badOperand

/-- The request is served with its operands as read, or refused with BAD_OPERAND (R31); a request without operands is not
served here. -/
def Chip.serveWith (c : Chip) (r : Request) (op0 op1 : Word) : Chip :=
  match r with
  | .printerClear => c.servePrinterRequest Chip.servePrinterClear op0 op1
  | .printerRestart => c.servePrinterRequest Chip.servePrinterRestart op0 op1
  | .printerHalt => c.servePrinterRequest Chip.servePrinterHalt op0 op1
  | .eject => c.servePrinterRequest Chip.serveEject op0 op1
  | .screenMode =>
    match operandFin 12 op0, modeOperand op1 with
    | some p, some m => c.serveScreenMode p m (flagAt op1 2)
    | _, _ => c.badOperand
  | .screenRefresh =>
    match operandFin 12 op0 with
    | some p => if op1 == 0 then c.serveScreenRefresh p else c.badOperand
    | none => c.badOperand
  | .lineReset =>
    match operandFin 3 op0 with
    | some l => if op1 == 0 then c.serveLineReset l else c.badOperand
    | none => c.badOperand
  | .drawerRelease =>
    match operandFin 12 op0 with
    | some p => if op1 == 0 then c.serveDrawerRelease p else c.badOperand
    | none => c.badOperand
  | .closeDay | .startSend | .clearDay | .linkReset => c.badOperand

/-- SU holds a write of the request word and judges the request (R31). -/
def Chip.requestHeld (c : Chip) (code : Word) : Chip :=
  let c := c.onSu (fun u => { u with request := some code.toNat })
  match requestOfCode code.toNat with
  | none => c.requestRefused .badRequest 0
  | some r =>
    if c.su.unitState == .rebuilding && !r.whileRebuilding then c.requestRefused .notReady 0
    else if r.hasOperands then c.push rSU (.read (c.setupAddr 0x104) 4 2) (.operands r.code)
    else c.serveBare r

/-- The operand words of the request in service have been read (R31, checks 3 and 4). -/
def Chip.operandsAnswered (c : Chip) (code : Nat) (okay : Bool) (data : List Word) : Chip :=
  match c.su.request, requestOfCode code with
  | some _, some r => if okay then c.serveWith r (wordAt data 0) (wordAt data 1) else c.requestRefused .storeError 0
  | _, _ => c

/-- The result area has been written: the hold of the request in service ends (R32). -/
def Chip.resultAnswered (c : Chip) (done okay : Bool) (addr : Nat) : Chip :=
  let c := if okay then c else c.reportStore rSU addr
  if c.su.request.isSome then (c.onSu (fun u => { u with request := none })).answerHost done [] else c

/-! ### Reports -/

/-- REPORT_WRITE: the oldest pending report is written into the ring, or dropped (R34). -/
def Chip.reportWrite (c : Chip) : Chip :=
  match c.su.writing, c.su.reports with
  | none, r :: rest =>
    let c := c.onSu (fun u => { u with reports := rest })
    if !c.windowEnabled .report then c
    else if (c.su.writeIndex + 1) % 64 == c.su.readIndex then c.setOverflow
    else
      (c.onSu (fun u => { u with writing := some r })).push rSU
        (.write (c.windowBase .report + 16 * c.su.writeIndex) [wd r.kind.code, wd r.index, wd r.detail, wd r.count])
        (.repEntry c.su.epoch)
  | _, _ => c

/-- The report being written is done with. -/
def Chip.reportEnds (c : Chip) : Chip := c.onSu (fun u => { u with writing := none })

/-- A report's entry has been written: the index word follows (R34, R35). -/
def Chip.entryAnswered (c : Chip) (epoch : Nat) (okay : Bool) : Chip :=
  if epoch != c.su.epoch then c
  else if okay then c.push rSU (.write (c.setupAddr 0x140) [wd ((c.su.writeIndex + 1) % 64)]) (.repIndex epoch)
  else c.reportEnds

/-- The index word has been written: the report is delivered (R34, R35). -/
def Chip.indexAnswered (c : Chip) (epoch : Nat) (okay : Bool) : Chip :=
  if epoch != c.su.epoch then c
  else if okay then (c.onSu (fun u => { u with writeIndex := (u.writeIndex + 1) % 64 })).reportEnds
  else c.reportEnds

/-- A host write of the report read index has been stored (R35). -/
def Chip.readIndexTaken (c : Chip) (v : Nat) : Chip :=
  let c := c.onSu (fun u => { u with readIndex := v })
  if c.su.overflow then
    (c.onSu (fun u => { u with overflow := false })).push rSU (.write (c.setupAddr 0x144) [0]) .silent
  else c

/-! ### The end of LOADING -/

/-- A loading access has been answered. -/
def Chip.onLoad (c : Chip) (f : LoadProg → LoadProg) : Chip :=
  c.onSu (fun u => { u with load := f { u.load with left := u.load.left - 1 } })

/-- A loading access of R26 has been answered; an ERROR of the identity words is reported with their offset (R20). -/
def Chip.loadAnswered (c : Chip) (tag : Tag) (okay : Bool) (data : List Word) : Chip :=
  match tag with
  | .loadIdent =>
    let c := c.onLoad id
    if okay then c else c.report .storeError rSU.val 0
  | .loadSettings =>
    c.onLoad (fun l => { l with settings := l.settings ++ (if okay then data else []), failed := l.failed || !okay })
  | .loadDay => c.onLoad (fun l => { l with day := l.day ++ (if okay then data else []), failed := l.failed || !okay })
  | .loadIndex =>
    c.onLoad (fun l => { l with readIndex := if okay then some (wordAt data 0) else none, failed := l.failed || !okay })
  | _ => c

/-- The start-up outcome (R27, R196). -/
def LoadProg.outcome (l : LoadProg) : StartOutcome :=
  if l.failed then .defaultedRead
  else if crc16 (wordsBytes (l.settings.take 255)) != field (wordAt l.settings 255) 0 16 then .defaultedSettings
  else if crc16 (wordsBytes (l.day.take 31)) != field (wordAt l.day 31) 0 16
      || (dayStateOfCode (wordAt l.day 0).toNat).isNone then .defaultedDay
  else .loaded

/-- The value in force of a setting word as loaded, among the words loaded (R21, R23, R27). -/
def loadedValue (ws : List Word) (i : Nat) : Word :=
  let v := wordAt ws i
  let at_ (k : Setting) : Nat := (wordAt ws k.index).toNat
  match settingAt i with
  | none => v
  | some .jnlCapacity =>
    wd (clampCapacity (clampTo 0 0xFFFFF (at_ (.placement 0 false))) (clampTo 0 0xFFFFF (at_ (.placement 0 true))) v.toNat)
  | some (.ceiling p upper) =>
    let both := clampCeiling (at_ (.ceiling p false) + Config.wordModulus * at_ (.ceiling p true))
    wd (if upper then both / Config.wordModulus else both)
  | some k => wd (k.clamp v.toNat)

/-- The settings put in force after clamping afresh; each word that differs is written back, a CRC rewrite following if
any was (R27). -/
def Chip.takeSettings (c : Chip) (ws : List Word) : Chip :=
  let vs := (List.range 255).map (loadedValue ws)
  let c := c.onSu (fun u => { u with image := vofList 255 0 vs })
  let back := (List.range 255).filter (fun i => wordAt vs i != wordAt ws i)
  let c := c.pushAll rSU (back.map (fun i => ⟨.settingWords i 1, .plain, false⟩))
  if back.isEmpty then c else c.askSettingsCrc

/-- Every setting at its default, and the whole area written (R28). -/
def Chip.defaultSettings (c : Chip) : Chip :=
  let c := c.onSu (fun u => { u with image := defaultImage })
  (c.pushAll rSU ((List.range 32).map (fun k => ⟨.settingWords (8 * k) 8, .plain, false⟩))).askSettingsCrc

/-- The settings and the day record of the outcome are put in place (R27, R28). -/
def Chip.takeLoaded (c : Chip) (o : StartOutcome) : Chip :=
  let c := if o == .loaded then c.takeSettings c.su.load.settings else c.defaultSettings
  let d := match o, dayStateOfCode (wordAt c.su.load.day 0).toNat with
    | .loaded, some st => dayOfWords c.su.load.day st
    | _, _ => defaultDay
  let c := c.onCu (fun cu => { cu with day := d })
  (c.onSu (fun u => { u with outcome := some o })).writeStatus 0x00C (wd o.code)

/-- The report ring is emptied (R29, step 1). The index of a read that failed is a free value (log 11). -/
def Chip.emptyRing (c : Chip) : Chip :=
  let q : Word × Chip := match c.su.load.readIndex with | some w => (w, c) | none => c.draw
  let v := q.1.toNat
  let c := q.2
  let c := if 63 < v then c.push rSU (.write (c.setupAddr 0x148) [0]) .silent else c
  let v := if 63 < v then 0 else v
  let c := c.onSu (fun u => { u with readIndex := v, writeIndex := v, overflow := false })
  (c.push rSU (.write (c.setupAddr 0x140) [wd v]) .silent).push rSU (.write (c.setupAddr 0x144) [0]) .silent

/-- RESET, and SETUP_DEFAULTED when defaulted (R29, step 2). -/
def Chip.startReports (c : Chip) (o : StartOutcome) : Chip :=
  let c := c.report .reset 0 o.code
  if o == .loaded then c else c.report .setupDefaulted 0 o.code

/-- AP takes the window table from the settings in force (R29, step 4; R2, R3). -/
def Chip.takeTable (c : Chip) : Chip :=
  let c := c.onAp (fun a => { a with placed := vofList 6 disabledPlacement ([0, 1, 2, 3, 4, 5].map c.placementSet) })
  c.onAp (fun a => { a with journalUsable := c.usableNow })

/-- READY in NO_DAY, REBUILDING otherwise (R29, step 5; R57, R91, Table 5-10). -/
def Chip.enterState (c : Chip) (o : StartOutcome) : Chip :=
  if c.cu.day.state == .noDay then
    ((c.onSu (fun u => { u with unitState := .ready })).cuLoadedNoDay (o != .loaded)).juLoadedNoDay
  else (c.onSu (fun u => { u with unitState := .rebuilding })).rebuildStart

/-- Whether LOADING may end: its reads are complete. -/
def Chip.loadingComplete (c : Chip) : Bool := c.su.unitState == .loading && c.su.load.left == 0

/-- The end of LOADING, up to the release of the held host access (R27 to R29, R117, R134, R150, R194). The result area is
written as NONE with every other word 0 (DESIGN CHOICE, log 62). -/
def Chip.endLoading (c : Chip) : Chip :=
  let o := c.su.load.outcome
  let c := ((c.takeLoaded o).emptyRing).startReports o
  let c := (c.push rSU (.write (c.setupAddr 0x120) [0, 0, 0, 0]) .plain).takeTable
  let c := c.enterState o
  let c := c.push rSU (.write (c.setupAddr 0x008) [wd c.su.unitState.code]) .loadingState
  c.scuLoaded.slcLoaded.pruLoaded.callIfReady

/-! ### The millisecond count -/

/-- A timer that counts down to its expiry. -/
def countDown (t : Option Nat) : Option Nat := t.map (· - 1)

/-- A millisecond passes for a screen (R109, R112). -/
def Screen.msTick (s : Screen) : Screen :=
  { s with idleMs := s.idleMs + 1, flashMs := if s.attention then s.flashMs + 1 else s.flashMs }

/-- A millisecond passes for a drop (R124, R125, R130, R132). -/
def Drop.msTick (d : Drop) : Drop :=
  { d with
    sinceExchange := d.sinceExchange + 1
    attachIn := d.attachIn - 1
    openTimer := countDown d.openTimer
    pulse := countDown d.pulse }

/-- A millisecond passes for a line: the reply time (R120). -/
def Line.msTick (ln : Line) : Line :=
  match ln.use with
  | .awaiting d f reply => { ln with use := .awaiting d f (reply - 1) }
  | _ => ln

/-- A CLK period passes for a line (R119, R133). -/
def Line.tick (ln : Line) : Line :=
  match ln.use with
  | .sending d f left reply => { ln with use := .sending d f (left - 1) reply }
  | .stopping b bit left =>
    if left ≤ 1 then { ln with use := .free, quiet := 0 } else { ln with use := .stopping b bit (left - 1) }
  | _ => { ln with quiet := ln.quiet + 1 }

/-- A millisecond passes for a printer: the head's timeout (R144). -/
def Printer.msTick (p : Printer) : Printer :=
  match p.head with
  | .awaiting left => { p with head := .awaiting (left - 1) }
  | _ => p

/-- A CLK period passes for a printer: the message on its head link (R144, R147). -/
def Printer.tick (p : Printer) : Printer :=
  match p.head with
  | .sending m left => { p with head := .sending m (left - 1) }
  | .stopping b left => { p with head := if left ≤ 1 then .idle else .stopping b (left - 1) }
  | _ => p

/-- A millisecond passes for a send (R186 to R191). -/
def Send.msTick (s : Send) : Send :=
  { s with
    ackTimer := countDown s.ackTimer, holdTimer := countDown s.holdTimer, resumeTimer := countDown s.resumeTimer,
    verdictTimer := countDown s.verdictTimer }

/-- A millisecond passes for HLC (R177, R181). -/
def HlcState.msTick (h : HlcState) : HlcState :=
  { h with
    helloTimer := countDown h.helloTimer, keepaliveTimer := countDown h.keepaliveTimer,
    silenceTimer := countDown h.silenceTimer, send := h.send.map Send.msTick }

/-- A millisecond passes: the count advances, and every interval counted on it (R30). -/
def Chip.msTick (c : Chip) : Chip :=
  { c with
    su := { c.su with clk := 0, ms := (c.su.ms + 1) % Config.wordModulus }
    scu := { c.scu with screens := vmap Screen.msTick c.scu.screens }
    slc := { lines := vmap Line.msTick c.slc.lines, drops := vmap Drop.msTick c.slc.drops }
    pru := { c.pru with printers := vmap Printer.msTick c.pru.printers }
    fd := vmap Feed.msTick c.fd
    hlc := c.hlc.msTick }

/-- The four Feed Drives at a CLK period. -/
def Chip.feedTicks (c : Chip) : Chip :=
  printers.foldl (fun c n => c.onFeed n (fun f => f.tick (c.prn n .pwmPrescale) (c.period n))) c

/-- A CLK period passes (R30, R119, R152, log 1). -/
def Chip.tick (c : Chip) : Chip :=
  let c := c.feedTicks
  let c := { c with slc := { c.slc with lines := vmap Line.tick c.slc.lines },
                    pru := { c.pru with printers := vmap Printer.tick c.pru.printers } }
  if c.su.clk + 1 < Config.clkPerMs then c.onSu (fun u => { u with clk := u.clk + 1 }) else c.msTick

end Sys2Proof.Machine
end

