-- ==== Sys2Proof/Machine/Access.lean ====
section
/-! DEFINITION. The Access Path (01): the owners' answers, the host access in progress, the arbiter, the store's answers
and the state from one command to the next. -/

namespace Sys2Proof.Machine

/-! ### The owners' answers -/

/-- An owner's answer to a written word (R6 to R12). -/
inductive Answer where
  | pass
  | refuse
  | substitute (v : Word)
  | hold (h : HoldOp)
  deriving DecidableEq, Repr

/-- An answer that passes when a test holds and refuses otherwise. -/
def passIf (b : Bool) : Answer := if b then .pass else .refuse

/-- The setting whose word stands at an offset of the SETUP page. -/
def settingAtOffset (off : Nat) : Option Setting :=
  if 0x200 ≤ off && off ≤ 0x5F8 && off % 4 == 0 then settingAt ((off - 0x200) / 4) else none

/-- SU's answer (Table 2-1, R21, R31, R35). -/
def Chip.setupAnswer (c : Chip) (m : List Host.Cell) (off : Nat) (v : Word) : Answer :=
  match settingAtOffset off with
  | some k =>
    match c.judgeSetting m k v with
    | .refuse => .refuse
    | .pass => .pass
    | .substitute w => .substitute w
  | none =>
    if off == 0x100 then .hold (.request v)
    else if off == 0x104 || off == 0x108 then .pass
    else if off == 0x148 then passIf (v.toNat ≤ 63)
    else .refuse

/-- JU's answer (Table 4-2). -/
def Chip.journalAnswer (c : Chip) (off : Nat) (v : Word) : Answer :=
  if 624 ≤ off || c.su.unitState == .rebuilding || c.cu.day.state.frozen then .refuse
  else if off % 48 == 44 then
    match finOf 13 (off / 48) with
    | some s => if v == outcomeCommit then .hold (.commit s) else .refuse
    | none => .refuse
  else .pass

/-- SCU's answer (Table 6-1, R129, R5). -/
def screensAnswer (off : Nat) (v : Word) : Answer :=
  if 12 ≤ off / 4096 || off % 4096 < 3840 then .pass
  else if off % 4096 == 4020 then passIf (v.toNat ≤ 31)
  else .refuse

/-- PRU's answer (R136, R5). -/
def Chip.printAnswer (c : Chip) (off : Nat) (v : Word) : Answer :=
  match finOf 4 (off / 1024), finOf 8 (off / 128 % 8) with
  | some n, some s =>
    if (c.slotStatus n s).locked then .refuse
    else if off % 128 == 0 then (if v == 0 then .pass else if v == 1 then .hold (.submit n s) else .refuse)
    else .pass
  | _, _ => .pass

/-- The owner's answer to a word at an offset of its window, the store standing as `m` (Table 1-2). -/
def Chip.ownerAnswer (c : Chip) (m : List Host.Cell) (w : Window) (off : Nat) (v : Word) : Answer :=
  match w with
  | .setup => c.setupAnswer m off v
  | .journal => c.journalAnswer off v
  | .totals => .refuse
  | .screens => screensAnswer off v
  | .broadcast => .pass
  | .print => c.printAnswer off v
  | .report => .refuse

/-- The watched words (R10). -/
def watched (w : Window) (off : Nat) : Bool :=
  match w with
  | .setup => off == 0x100 || off == 0x148 || (settingAtOffset off).isSome
  | .journal => off < 624 && off % 48 == 44
  | .screens => off / 4096 < 12 && off % 4096 == 4020
  | .print => off < 4096 && off % 128 == 0
  | _ => false

/-- What the owner does once a word has been stored, the store standing as `m` with it (R7, R9). -/
def Chip.ownerAction (c : Chip) (m : List Host.Cell) (w : Window) (off : Nat) (v : Word) (subst : Bool) : Chip :=
  match w with
  | .setup =>
    match settingAtOffset off with
    | some k => c.settingTaken m k v subst
    | none => if off == 0x148 then c.readIndexTaken v.toNat else c
  | .screens =>
    match finOf 12 (off / 4096) with
    | some p =>
      if off % 4096 == 4020 then c.keyReadIndexTaken p v.toNat
      else if off % 4096 < 3840 then c.markDirty p (Fin.ofNat 25 (off % 4096 / 160))
      else c
    | none => c
  | .broadcast => if off < 160 then c.onFan (fun f => { f with start := true }) else c
  | .print =>
    match finOf 4 (off / 1024), finOf 8 (off / 128 % 8) with
    | some n, some s => if off % 128 == 0 then c.setSlot n s .idle else c
    | _, _ => c
  | _ => c

/-- The operation of a hold starts (R12). -/
def Chip.startHold (c : Chip) (h : HoldOp) : Chip :=
  match h with
  | .commit s => c.commitHeld s
  | .submit n s => c.submitHeld n s
  | .request code => c.requestHeld code

/-! ### The host access in progress -/

/-- Put the host access in progress. -/
def Chip.setHost (c : Chip) (p : HostProg) : Chip := c.onAp (fun a => { a with host := some p })

/-- The owner has been asked about the word at the head: its answer is carried out (R7, R8, R9, R12). -/
def Chip.carryOut (c : Chip) (p : HostProg) (enables : BitVec 4) (v : Word) (last : Bool) (a : Answer) : Chip :=
  match a with
  | .refuse => c.answerHost false []
  | .pass => c.setHost { p with phase := .waiting (.word v enables false) }
  | .substitute w => c.setHost { p with phase := .waiting (.word w allBytes true) }
  | .hold h =>
    if last then (c.setHost { p with phase := .heldOwner h, granted := false }).startHold h else c.answerHost false []

/-- The owner is asked about the word at the head, whole or merged (R10, R11). -/
def Chip.askOwner (c : Chip) (m : List Host.Cell) (p : HostProg) (w : Window) (enables : BitVec 4) (v : Word) (last : Bool) :
    Chip :=
  c.carryOut p enables v last (c.ownerAnswer m w (p.addr - p.base) v)

/-- The write goes on with the words left: a word without byte enables is skipped, a partial watched word is merged
first, any other is asked about (R10, R11); past 0xFFFFFFFC the burst goes on at address 0 (R4). -/
def Chip.advance (c : Chip) (m : List Host.Cell) (p : HostProg) (w : Window) : List WriteWord → Chip
  | [] => c.answerHost true []
  | x :: rest =>
    if x.enables == 0 then c.advance m { p with addr := wrapAddr (p.addr + 4), rest := rest } w rest
    else
      let p := { p with rest := x :: rest }
      if watched w (p.addr - p.base) && x.enables != allBytes then c.setHost { p with phase := .waiting .merge }
      else c.askOwner m p w x.enables x.value rest.isEmpty

/-- The windows of the words of a burst (R4). -/
def Chip.burstWindows (c : Chip) (addr : Nat) (words : List WriteWord) : List (Option Window) :=
  (List.range words.length).map (fun i => c.windowOf (wrapAddr (addr + 4 * i)))

/-- A host access arrives, or is released from LOADING: it is decoded against the table as it stands (R4, R6, R7, R13,
R14). Outside every window, a write none of whose words sets a byte enable has nothing to forward (R10). -/
def Chip.arrive (c : Chip) (m : List Host.Cell) (a : HostAccess) : Chip :=
  match a with
  | .read addr len =>
    c.setHost { access := a, addr := addr.toNat, rest := [], window := c.windowOf addr.toNat, base := 0, granted := false,
                phase := .waiting (.readStore len) }
  | .write addr words =>
    let w := c.windowOf addr.toNat
    let p : HostProg :=
      { access := a, addr := addr.toNat, rest := words, window := w, base := (w.map c.windowBase).getD 0, granted := false,
        phase := .waiting .burst }
    if !((c.burstWindows addr.toNat words).all (· == w)) then c.answerHost false []
    else match w with
      | none => if words.all (·.enables == 0) then c.answerHost true [] else c.setHost p
      | some w => c.advance m p w words

/-- The controller port carries an access: held until LOADING ends, decoded otherwise. While one is in progress no other
can arrive (R12, R13, R29, log 26). -/
def Chip.hostAccess (c : Chip) (m : List Host.Cell) (a : HostAccess) : Chip :=
  if c.ap.host.isSome then c
  else
    let c := c.onAp (fun ap => { ap with answer := none })
    if c.ap.held then
      c.setHost { access := a, addr := 0, rest := [], window := none, base := 0, granted := false, phase := .heldLoading }
    else c.arrive m a

/-- AP holds host accesses no longer, and releases the one held for LOADING (R13, R29). -/
def Chip.releaseHost (c : Chip) (m : List Host.Cell) : Chip :=
  let c := c.onAp (fun a => { a with held := false })
  match c.ap.host with
  | some p => if p.phase == .heldLoading then c.arrive m p.access else c
  | none => c

/-- A write of one word of a window's layout, when the word belongs to that window; a word no host address reaches is
not written (R4, log 27). -/
def Chip.writeIn (c : Chip) (m : List Host.Cell) (w : Window) (addr : Nat) (v : Word) (enables : BitVec 4) : Chip :=
  if c.windowOf (wrapAddr addr) == some w then c.hostAccess m (.write (wd addr) [⟨v, enables⟩]) else c

/-- LOADING_END (R27 to R29): the host access held is released when the last word SU writes for it, the unit state, has been
answered (R20, R29, step 6). -/
def Chip.loadingEnd (c : Chip) : Chip := if c.loadingComplete then c.endLoading else c

/-- Free words, as many as a read asked for (log 13). -/
def Chip.drawWords (c : Chip) : Nat → List Word × Chip
  | 0 => ([], c)
  | k + 1 =>
    let q := c.draw
    let r := q.2.drawWords k
    (q.1 :: r.1, r.2)

/-- The store, standing as `m` after it, has answered the host's access on the port (R6, R7, R10, R11, R17). -/
def Chip.hostAnswered (c : Chip) (m : List Host.Cell) (okay : Bool) (data : List Word) : Chip :=
  match c.ap.host with
  | none => c
  | some p =>
    match p.phase with
    | .waiting (.readStore len) =>
      if okay then c.answerHost true data
      else
        let q := c.drawWords len
        q.2.answerHost false q.1
    | .waiting .burst => c.answerHost okay []
    | .waiting .merge =>
      match okay, p.window, p.rest with
      | true, some w, x :: rest => c.askOwner m p w x.enables (mergeWord (wordAt data 0) x.value x.enables) rest.isEmpty
      | _, _, _ => c.answerHost false []
    | .waiting (.word v _ subst) =>
      match okay, p.window with
      | true, some w =>
        (c.ownerAction m w (p.addr - p.base) v subst).advance m
          { p with addr := wrapAddr (p.addr + 4), rest := p.rest.drop 1 } w (p.rest.drop 1)
      | _, _ => c.answerHost false []
    | _ => c

/-- The store access the host access in progress needs next, if any. -/
def HostProg.nextOp (p : HostProg) : Option StoreOp :=
  match p.phase, p.access with
  | .waiting (.readStore len), _ => some (.read p.addr 4 len)
  | .waiting .burst, .write _ words => some (.write p.addr words)
  | .waiting .merge, _ => some (.read p.addr 4 1)
  | .waiting (.word v enables _), _ => some (.write p.addr [⟨v, enables⟩])
  | _, _ => none

/-! ### Answers to own accesses -/

/-- A burst of the anchor part has been answered. After the last, SU rewrites the CRC (R25, R79). After one that failed it
does not, so that a store with its earlier anchor part keeps its CRC (R169, log 52), but in a DEFAULTED start-up it does, so
that the CRC is stale and the next reset defaults again (R28). -/
def Chip.anchorAnswered (c : Chip) (burst : Nat) (k : After) (okay : Bool) (addr : Nat) : Chip :=
  let c := c.anchorBurst burst addr okay
  if burst == 3 then (if c.cu.anchorBad && k != .defaults then c.runAfter k else c.askDayCrc k) else c

/-- Words answered for the Print Unit by JU go to PRU. -/
def passRecord (q : Chip × RecReply) : Chip := q.1.recordReply q.2

/-- A stamp's end goes to PRU. -/
def passStamp (q : Chip × StampReply) : Chip :=
  match q.2 with
  | some (n, _) => q.1.stampReply n
  | none => q.1

/-- An own access has been answered, the store standing as `m` after it: its unit goes on (R17). -/
def Chip.ownAnswered (c : Chip) (m : List Host.Cell) (u : Fin 9) (tag : Tag) (okay : Bool) (addr : Nat) (data : List Word) : Chip :=
  let reported := if okay then c else c.reportStore u addr
  match tag with
  | .plain => reported
  | .silent => c
  | .screenWord _ => reported
  | .statusWord off => if okay then c else c.report .storeError rSU.val off
  | .loadingState => (if okay then c else c.report .storeError rSU.val 0x008).releaseHost m
  | .loadIdent => c.loadAnswered tag okay data
  | .loadSettings => c.loadAnswered tag okay data
  | .loadDay => c.loadAnswered tag okay data
  | .loadIndex => c.loadAnswered tag okay data
  | .operands code => c.operandsAnswered code okay data
  | .result done => c.resultAnswered done okay addr
  | .repEntry epoch => c.entryAnswered epoch okay
  | .repIndex epoch => c.indexAnswered epoch okay
  | .dayCrc k => reported.runAfter k
  | .post st => c.postAnswered st okay addr data
  | .slotRead k base => c.slotReadAnswered k base okay addr data
  | .slotLost k base => c.slotLostAnswered k base okay addr
  | .recordA _ _ => passRecord (c.recordAnswered tag okay addr data)
  | .recordB _ _ _ => passRecord (c.recordAnswered tag okay addr data)
  | .originalA _ _ _ => passRecord (c.recordAnswered tag okay addr data)
  | .originalB _ _ _ _ => passRecord (c.recordAnswered tag okay addr data)
  | .stampWord0 => passStamp (c.stampAnswered tag okay addr data)
  | .stampRead _ => passStamp (c.stampAnswered tag okay addr data)
  | .stampWrite => passStamp (c.stampAnswered tag okay addr data)
  | .slotEmpty last => c.slotEmptyAnswered last okay addr
  | .mirror i burst k => (c.mirrorAnswered i burst addr okay).runAfter k
  | .running burst k => (c.runningAnswered burst addr okay).runAfter k
  | .anchor burst k => c.anchorAnswered burst k okay addr
  | .walkA => c.walkAnswered tag okay addr data
  | .walkB _ => c.walkAnswered tag okay addr data
  | .walkOrigA _ => c.walkAnswered tag okay addr data
  | .walkOrigB _ _ => c.walkAnswered tag okay addr data
  | .walkRepair _ => c.walkAnswered tag okay addr data
  | .rebSlot _ => c.rebuildSlotAnswered tag okay addr data
  | .rebFind _ _ => c.rebuildSlotAnswered tag okay addr data
  | .rebWord0 _ _ => c.rebuildSlotAnswered tag okay addr data
  | .rebOutcome _ => c.rebuildSlotAnswered tag okay addr data
  | .scuStatus p burst => c.statusAnswered p burst addr okay
  | .scuCount => c.scuWordAnswered addr okay
  | .scuMode => c.scuWordAnswered addr okay
  | .fanRead burst => c.fanReadAnswered burst addr okay data
  | .fanWrite p burst => c.fanWriteAnswered p burst addr okay
  | .rowRead p burst epoch w => c.rowReadAnswered p burst epoch w okay addr data
  | .keyEntry p epoch => c.keyEntryAnswered p epoch okay addr
  | .keyIndex p epoch => c.keyIndexAnswered p epoch okay addr
  | .keyInit p epoch => c.keyInitAnswered p epoch okay addr data
  | .subRead => c.submissionRead okay data
  | .subQueued => c.submissionWritten true okay addr
  | .subRefused => c.submissionWritten false okay addr
  | .textRead n burst epoch w => passRecord (c.textAnswered n burst epoch w okay addr data)
  | .slotScan n => c.slotScanned n okay addr data
  | .batchRead burst epoch w => c.batchAnswered burst epoch w okay addr data

/-! ### The arbiter -/

/-- The own requesters from the one after `u`, in rotation order, to `u` itself (R16). -/
def requestersAfter (u : Fin 9) : List (Fin 9) := [u + 1, u + 2, u + 3, u + 4, u + 5, u + 6, u + 7, u + 8, u]

/-- The own accesses that wait: a running part that is written only while its stale mark is set is passed over when the
mark is clear (R79). -/
def Chip.waiting (c : Chip) : Vector (List OwnReq) 9 :=
  vupd c.own rCU (·.dropWhile (fun r =>
    match r.op with | .staleRunning _ => !c.cu.runningStale | _ => false))

/-- The first waiting own requester after the rotation position, with its access (R16). -/
def firstWaiting (own : Vector (List OwnReq) 9) : List (Fin 9) → Option (Fin 9 × OwnReq)
  | [] => none
  | u :: rest =>
    match own[u.val] with
    | r :: _ => some (u, r)
    | [] => firstWaiting own rest

/-- What an own access is at the port: the CRC words, a settings write-back, a mirror's place, the running part of an
anchor write and the key write index word are taken as the access is granted (R24, R25, R77, R79, R128, log 51). -/
def Chip.resolveOp (c : Chip) (op : OwnOp) : StoreOp :=
  match op with
  | .read addr stride len => .read addr stride len
  | .write addr words => .write addr (words.map whole)
  | .settingsCrc => .write (c.setupAddr 0x5FC) [whole (wd c.settingsCrcValue)]
  | .dayCrc => .write (c.setupAddr 0x0BC) [whole (wd c.cu.day.crc)]
  | .settingWords i len =>
    .write (c.setupAddr (0x200 + 4 * i)) (((c.su.image.toList.drop i).take len).map whole)
  | .totals off words => .write (c.windowBase .totals + off) (words.map whole)
  | .staleRunning half => .write (c.setupAddr (0x0C0 + 32 * half)) (((c.cu.day.runningWords.drop (8 * half)).take 8).map whole)
  | .keyWord p addr => .write addr [whole (c.drop p).keyWord]

/-- The first burst of a row's read being granted begins the read (R101). -/
def Chip.grantHook (c : Chip) (tag : Tag) : Chip :=
  match tag with
  | .rowRead p burst epoch _ => if burst == 0 && epoch == (c.line (lineOf p)).epoch then c.readBegun p else c
  | _ => c

/-- The state of the machine with its part changed. -/
def State.onChip (s : State) (f : Chip → Chip) : State := { s with chip := f s.chip }

/-- An own requester is granted (R15, R16): the streak is 0 and the rotation moves to it. -/
def State.grantOwn (s : State) (u : Fin 9) (r : OwnReq) : State :=
  let op := s.chip.resolveOp r.op
  let c := { s.chip with own := vupd s.chip.waiting u (·.drop 1) }
  { s with
    chip := c.grantHook r.tag
    arb := { rotation := u, streak := 0, port := .own u op r.tag r.fin } }

/-- The host is granted; the streak goes up if an own request waits (R15). -/
def State.grantHost (s : State) (p : HostProg) (op : StoreOp) (ownWaits : Bool) : State :=
  { s with
    chip := s.chip.setHost { p with granted := true }
    arb := { s.arb with streak := if ownWaits then s.arb.streak + 1 else s.arb.streak, port := .host op } }

/-- The host access that waits, with its store access. -/
def Chip.hostWaiting (c : Chip) : Option (HostProg × StoreOp) :=
  match c.ap.host with
  | some p => if p.granted then none else p.nextOp.map (fun op => (p, op))
  | none => none

/-- ARBITER_GRANT: a free port is granted by streak and rotation (R15, R16). -/
def State.grant (s : State) : State :=
  if s.arb.port != .idle then s
  else match s.chip.hostWaiting, firstWaiting s.chip.waiting (requestersAfter s.arb.rotation) with
    | some (p, op), none => s.grantHost p op false
    | none, some (u, r) => s.grantOwn u r
    | some (p, op), some (u, r) => if s.arb.streak < 4 then s.grantHost p op true else s.grantOwn u r
    | none, none => s

/-! ### The store's answer -/

/-- The words a read returns (R6). -/
def StoreOp.data (m : List Host.Cell) : StoreOp → List Word
  | .read addr stride len => readWords m addr stride len
  | .write _ _ => []

/-- The store after an access answered OKAY. -/
def StoreOp.effect (m : List Host.Cell) : StoreOp → List Host.Cell
  | .read _ _ _ => m
  | .write addr words => writeWords m addr words

/-- The address of an access. -/
def StoreOp.addr : StoreOp → Nat
  | .read addr _ _ => addr
  | .write addr _ => addr

/-- The store after an answer: a write answered ERROR has changed nothing (R17). -/
def StoreOp.answered (op : StoreOp) (m : List Host.Cell) (okay : Bool) : List Host.Cell :=
  if okay then op.effect m else m

/-- The port after a host answer: the same grant goes on with the access's next store access, or ends (R15). -/
def State.afterHost (s : State) : State :=
  match s.chip.ap.host with
  | some p =>
    match p.granted, p.nextOp with
    | true, some op => { s with arb := { s.arb with port := .host op } }
    | _, _ => { s with arb := { s.arb with port := .idle } }
  | none => { s with arb := { s.arb with port := .idle } }

/-- STORE_ANSWER: the answer reaches the party that made the access (R17). -/
def State.answer (s : State) (okay : Bool) : State :=
  match s.arb.port with
  | .idle => s
  | .host op =>
    State.afterHost
      { s with mem := op.answered s.mem okay, chip := s.chip.hostAnswered (op.answered s.mem okay) okay (op.data s.mem) }
  | .own u op tag fin =>
    let c := s.chip.ownAnswered (op.answered s.mem okay) u tag okay op.addr (op.data s.mem)
    { s with
      mem := op.answered s.mem okay
      chip := if fin then c.requestDone else c
      arb := { s.arb with port := .idle } }

/-! ### The prompt store -/

/-- Whether nothing uses or waits for the port. -/
def State.quiet (s : State) : Bool :=
  s.arb.port == .idle && s.chip.hostWaiting.isNone && (firstWaiting s.chip.waiting (requestersAfter s.arb.rotation)).isNone

/-- Grants, each answered OKAY, until nothing waits, at most `fuel` of them. -/
def State.drain : Nat → State → State
  | 0, s => s
  | fuel + 1, s => if s.quiet then s else State.drain fuel (s.grant.answer true)

/-- The most grants a command is followed by. -/
def drainFuel : Nat := 1000000

/-- A prompt store answers every access at once with OKAY; one that is not waits for the commands (log 5). -/
@[irreducible] def State.settle (s : State) : State := if s.prompt then s.drain drainFuel else s

/-- A command that acts on the part: what still waited for the store is made first, and what the command asks for
after it, when the store is prompt (log 5). -/
def State.act (s : State) (f : Chip → Chip) : State := (s.settle.onChip f).settle

/-- A command of the controller port: like `State.act`, the part seeing the store as it stands then, in which SU finds the
other half of a ceiling (R23). -/
def State.host (s : State) (f : List Host.Cell → Chip → Chip) : State := s.act (f s.settle.mem)

/-- A command of the store port: the store is not prompt from then on (log 5). -/
def State.stall (s : State) : State := { s with prompt := false }

/-! ### Device reset -/

/-- The store after a reset during a write: a free number of its words are written (R13, log 12). -/
def PortUse.abandoned (k : Nat) (m : List Host.Cell) : PortUse → List Host.Cell
  | .idle => m
  | .host (.write a ws) => writeWords m a (ws.take (k % (ws.length + 1)))
  | .own _ (.write a ws) _ _ => writeWords m a (ws.take (k % (ws.length + 1)))
  | _ => m

/-- DEVICE_RESET: every block in its reset state, the straps sampled as the reset ends (R1, R13, R18, R26). -/
def State.deviceReset (s : State) (sel : Fin 16) : State :=
  let q := s.chip.draw
  { s with
    chip := .afterReset { q.2.pins with setupSel := sel } q.2.free
    arb := .reset
    mem := s.arb.port.abandoned q.1.toNat s.mem }

end Sys2Proof.Machine
end

