-- ==== Sys2Proof/Machine/DayCommands.lean ====
section
/-! DEFINITION. The steps of the Journal, Cash and Setup Units (02.5, 04, 05). -/

namespace Sys2Proof.Machine

/-- APPLY_RECORD (R79): CU applies a posted record as one change to its drawer and day records, then writes the
mirrors, the running part and any anchor part. -/
def execApplyRecord (s : State) : Host.Outcome State Fault Refusal :=
  .next (s.act Chip.applyPosted)

/-- MARK_DAMAGED (R87): on JU's request, CU sets the DAMAGED flag, reports DAY_DAMAGED and writes the anchor part. -/
def execMarkDamaged (s : State) : Host.Outcome State Fault Refusal :=
  .next (s.act Chip.markDamaged)

/-- PRINT_STATE_STAMP (R74): JU takes a stamp request from its list, reads the ring slot and writes the new print
state, answering STAMPED or NOT_STAMPED. -/
def execPrintStateStamp (s : State) : Host.Outcome State Fault Refusal :=
  .next (s.act Chip.printStateStamp)

/-- REBUILD_WALK_STEP (R92): CU reads the ring slot of the expected sequence number and applies the record, ends the
journal or stops DAMAGED. -/
def execRebuildWalkStep (s : State) : Host.Outcome State Fault Refusal :=
  .next (s.act Chip.rebuildWalkStep)

/-- REBUILD_END (R97): at the end of journal CU confirms a frozen day, resolves the posting slots, judges EXCESS,
writes everything back, reports REBUILD_DONE and makes the unit state READY. -/
def execRebuildEnd (s : State) : Host.Outcome State Fault Refusal :=
  .next (s.act Chip.rebuildEnd)

/-- REPORT_WRITE (R34): SU takes the oldest pending report and writes it into the report ring, or drops it and sets
the overflow flag. -/
def execReportWrite (s : State) : Host.Outcome State Fault Refusal :=
  .next (s.act Chip.reportWrite)

end Sys2Proof.Machine
end

