-- ==== Sys2Proof/Machine/HostCommands.lean ====
section
/-! DEFINITION. The commands of the ports and the host writes with an action of their own (01, 02). -/

namespace Sys2Proof.Machine

/-- A host write of a setting's word (R19). -/
def Chip.writeSetting (c : Chip) (m : List Host.Cell) (k : Setting) (value : Word) (enables : BitVec 4) : Chip :=
  c.writeIn m .setup (c.setupAddr (0x200 + 4 * k.index)) value enables

/-- The setting a FEED_SETTING_WRITE writes. -/
def feedSettingOf : FeedSetting → PrnSetting
  | .pwmPrescale => .pwmPrescale | .pwmPeriod => .pwmPeriod | .encPrescale => .encPrescale
  | .outPolarity => .outPolarity

/-- DEVICE_RESET (R26): RST_N low or power-on puts every block in its reset state; when it ends, AP samples SETUP_SEL,
the millisecond count starts and LOADING begins. -/
def execDeviceReset (sel : Fin 16) (s : State) : Host.Outcome State Fault Refusal :=
  .next (s.deviceReset sel).settle

/-- LOADING_END (R29): when its loading reads are complete, SU decides the start-up outcome, empties the report ring,
loads the window table, enters READY or REBUILDING and releases the held host access. -/
def execLoadingEnd (s : State) : Host.Outcome State Fault Refusal :=
  .next (s.act Chip.loadingEnd)

/-- ARBITER_GRANT (R15): when the store port is free, the arbiter grants the host or the next own requester by streak
count and rotation. -/
def execArbiterGrant (s : State) : Host.Outcome State Fault Refusal :=
  .next s.stall.grant

/-- STORE_ANSWER (R17): A store answer of OKAY or ERROR reaches the party that made the access, which acts on it as
its chapter states. -/
def execStoreAnswer (okay : Bool) (s : State) : Host.Outcome State Fault Refusal :=
  .next (s.stall.answer okay)

/-- HOST_WRITE (R7): A host write to a word that has no treatment of its own is passed, refused or substituted by the
owner's answer, or is refused whole when the burst crosses windows. -/
def execHostWrite (access : HostAccess) (s : State) : Host.Outcome State Fault Refusal :=
  .next (s.host (fun m c => c.hostAccess m access))

/-- SETTING_WRITE (R21): A host write of a setting word is refused when frozen, passed when in range or substituted
with the clamped value; the settings CRC is then rewritten and the owner told. -/
def execSettingWrite (offset : Fin 4096) (value : Word) (enables : BitVec 4)
    (s : State) : Host.Outcome State Fault Refusal :=
  .next (s.host (fun m c => c.writeIn m .setup (c.setupAddr offset.val) value enables))

/-- PLACEMENT_WRITE (R2): an accepted write of a window base or limit changes the window table; the owning units move,
rewrite or resolve their areas at the new place. -/
def execPlacementWrite (window : Fin 6) (limit : Bool) (value : Word) (enables : BitVec 4)
    (s : State) : Host.Outcome State Fault Refusal :=
  .next (s.host (fun m c => c.writeSetting m (.placement window limit) value enables))

/-- JNL_CAPACITY_WRITE (R23): A JNL_CAPACITY write is rounded, clamped and lowered to the window's fit, and the
JOURNAL usable mark is re-evaluated. -/
def execJnlCapacityWrite (value : Word) (enables : BitVec 4) (s : State) : Host.Outcome State Fault Refusal :=
  .next (s.host (fun m c => c.writeSetting m (.jnlCapacity) value enables))

/-- CEILING_WRITE (R23): A write to either word of CEILING_p is judged as a 64-bit value and clamped, and CU judges
the EXCESS flag of drawer p. -/
def execCeilingWrite (p : Fin 12) (upper : Bool) (value : Word) (enables : BitVec 4)
    (s : State) : Host.Outcome State Fault Refusal :=
  .next (s.host (fun m c => c.writeSetting m (.ceiling p upper) value enables))

/-- LINE_SETTING_WRITE (R22): an accepted write that changes LINE_RATE_l or LINE_GAP_l restarts screen line l with the
effects of LINE_RESET. -/
def execLineSettingWrite (l : Fin 3) (gap : Bool) (value : Word) (enables : BitVec 4)
    (s : State) : Host.Outcome State Fault Refusal :=
  .next (s.host (fun m c => c.writeSetting m (if gap then .lineGap l else .lineRate l) value enables))

/-- IDLE_BLANK_WRITE (R109): an accepted change of IDLE_BLANK restarts all twelve idle timers. -/
def execIdleBlankWrite (value : Word) (enables : BitVec 4) (s : State) : Host.Outcome State Fault Refusal :=
  .next (s.host (fun m c => c.writeSetting m (.idleBlank) value enables))

/-- CAPABILITY_SETTING_WRITE (R105): an accepted change of CAP_OVERRIDE_p or COLOUR_p makes SCU decide PLAIN in force
afresh. -/
def execCapabilitySettingWrite (p : Fin 12) (colour : Bool) (value : Word) (enables : BitVec 4)
    (s : State) : Host.Outcome State Fault Refusal :=
  .next (s.host (fun m c => c.writeSetting m (if colour then .colour p else .capOverride p) value enables))

/-- FORMAT_SETTING_WRITE (R113): an accepted change of DECIMALS or SEPARATORS re-renders every status row. -/
def execFormatSettingWrite (separators : Bool) (value : Word) (enables : BitVec 4)
    (s : State) : Host.Outcome State Fault Refusal :=
  .next (s.host (fun m c => c.writeSetting m (if separators then .separators else .decimals) value enables))

/-- PRN_PRESENT_WRITE (R140): turning PRN_PRESENT_n on while the printer is EMPTY with a book present starts
alignment. -/
def execPrnPresentWrite (n : Fin 4) (value : Word) (enables : BitVec 4)
    (s : State) : Host.Outcome State Fault Refusal :=
  .next (s.host (fun m c => c.writeSetting m (.printer n .present) value enables))

/-- AUTO_RESTART_WRITE (R164): turning AUTO_RESTART_n on makes the Feed Drive test the automatic restart conditions.
-/
def execAutoRestartWrite (n : Fin 4) (value : Word) (enables : BitVec 4)
    (s : State) : Host.Outcome State Fault Refusal :=
  .next (s.host (fun m c => c.writeSetting m (.printer n .autoRestart) value enables))

/-- FEED_SETTING_WRITE (R152): an accepted change of the PWM prescale or period, ENC_PRESCALE_n or OUT_POLARITY_n
restarts the step counter, clears the prescale counter or moves the pins to their inactive levels. -/
def execFeedSettingWrite (n : Fin 4) (which : FeedSetting) (value : Word) (enables : BitVec 4)
    (s : State) : Host.Outcome State Fault Refusal :=
  .next (s.host (fun m c => c.writeSetting m (.printer n (feedSettingOf which)) value enables))

/-- REPORT_READ_INDEX_WRITE (R35): A host write of the report read index from 0 to 63 is taken as SU's read index and
clears the overflow flag; larger values are refused. -/
def execReportReadIndexWrite (value : Word) (enables : BitVec 4) (s : State) : Host.Outcome State Fault Refusal :=
  .next (s.host (fun m c => c.writeIn m .setup (c.setupAddr 0x148) value enables))

/-- SCREEN_ROW_WRITE (R99): A host write of rows 0 to 23 of a screen passes and marks the row dirty. -/
def execScreenRowWrite (p : Fin 12) (word : Fin 960) (value : Word) (enables : BitVec 4)
    (s : State) : Host.Outcome State Fault Refusal :=
  .next (s.host (fun m c => c.writeIn m .screens (c.screenAddr p (4 * word.val)) value enables))

/-- MASTER_ROW_WRITE (R115): A host write of the broadcast master row passes and sets the fan-out start-pending mark.
-/
def execMasterRowWrite (word : Fin 40) (value : Word) (enables : BitVec 4)
    (s : State) : Host.Outcome State Fault Refusal :=
  .next (s.host (fun m c => c.writeIn m .broadcast (c.windowBase .broadcast + 4 * word.val) value enables))

/-- KEY_READ_INDEX_WRITE (R129): A host write of a screen's key read index from 0 to 31 is taken and clears the key
overflow flag; larger values are refused. -/
def execKeyReadIndexWrite (p : Fin 12) (value : Word) (enables : BitVec 4)
    (s : State) : Host.Outcome State Fault Refusal :=
  .next (s.host (fun m c => c.writeIn m .screens (c.screenAddr p 4020) value enables))

/-- PRINT_SLOT_IDLE_WRITE (R136): A host write of IDLE to a print slot's word 0 passes and makes the slot IDLE. -/
def execPrintSlotIdleWrite (n : Fin 4) (slot : Fin 8) (s : State) : Host.Outcome State Fault Refusal :=
  .next (s.host (fun m c => c.writeIn m .print (c.printAddr n slot 0) 0 allBytes))

/-- SUBMIT (R137): A host write of SUBMIT to a print slot is held while PRU reads the slot and the record and checks
them, then queues or refuses the request. -/
def execSubmit (n : Fin 4) (slot : Fin 8) (s : State) : Host.Outcome State Fault Refusal :=
  .next (s.host (fun m c => c.writeIn m .print (c.printAddr n slot 0) 1 allBytes))

/-- COMMIT (R64): A host write of COMMIT to a posting slot's word 11 is held while JU reads and validates the slot and
posts the record into the ring. -/
def execCommit (slot : Fin 13) (s : State) : Host.Outcome State Fault Refusal :=
  .next (s.host (fun m c => c.writeIn m .journal (c.slotAddr slot.val 11) outcomeCommit allBytes))

end Sys2Proof.Machine
end

