-- ==== Sys2Proof/Machine/LinkCommands.lean ====
section
/-! DEFINITION. The events of the head-office link (11). -/

namespace Sys2Proof.Machine

/-- CARRIER_CHANGE (R177): CD becoming active with the receive clock present starts CALLING; CD becoming inactive
takes the link DOWN with cause CARRIER. -/
def execCarrierChange (present : Bool) (s : State) : Host.Outcome State Fault Refusal :=
  .next (s.act (fun c => c.carrierChange present))

/-- RECEIVE_CLOCK_LOSS (R177): 1 ms without an RXC edge takes the link DOWN with cause CLOCK. -/
def execReceiveClockLoss (s : State) : Host.Outcome State Fault Refusal :=
  .next (s.act Chip.receiveClockLoss)

/-- HELLO_TIMER_EXPIRY (R177): in CALLING the HELLO timer expires and another HELLO is sent. -/
def execHelloTimerExpiry (s : State) : Host.Outcome State Fault Refusal :=
  .next (s.act Chip.helloTimerExpiry)

/-- HELLO (R177): A valid HELLO from head office owes a HELLO_ACK, and in CALLING brings the link UP once the
HELLO_ACK is sent. -/
def execHello (s : State) : Host.Outcome State Fault Refusal :=
  .next (s.act Chip.hoHello)

/-- HELLO_ACK (R177): A valid HELLO_ACK in CALLING brings the link UP and reports LINK_UP. -/
def execHelloAck (s : State) : Host.Outcome State Fault Refusal :=
  .next (s.act Chip.hoHelloAck)

/-- KEEPALIVE (R181): A valid KEEPALIVE from head office resets the line error count and restarts the silence timer.
-/
def execKeepalive (s : State) : Host.Outcome State Fault Refusal :=
  .next (s.act Chip.hoKeepalive)

/-- INVALID_FRAME (R180): A frame that is not valid raises the line error count, and may take the link DOWN with cause
ERRORS. -/
def execInvalidFrame (bytes : List Byte) (s : State) : Host.Outcome State Fault Refusal :=
  .next (s.act (fun c => c.hoBytes bytes))

/-- TRANSMITTER_FREE (R182): when the head-office transmitter is free, HLC sends the first due frame among HELLO_ACK,
HELLO, resend, new data frame and KEEPALIVE. -/
def execTransmitterFree (s : State) : Host.Outcome State Fault Refusal :=
  .next (s.act Chip.transmitterFree)

/-- KEEPALIVE_TIMER_EXPIRY (R181): KEEPALIVE seconds without a frame sent makes a KEEPALIVE frame due. -/
def execKeepaliveTimerExpiry (s : State) : Host.Outcome State Fault Refusal :=
  .next (s.act Chip.keepaliveTimerExpiry)

/-- SILENCE_TIMER_EXPIRY (R181): three keepalive times without a valid frame received take the link DOWN with cause
SILENCE. -/
def execSilenceTimerExpiry (s : State) : Host.Outcome State Fault Refusal :=
  .next (s.act Chip.silenceTimerExpiry)

/-- ACK (R187): A valid ACK(n) acknowledges outstanding frames up to n, updates the acknowledged count and ends HELD.
-/
def execAck (n : Fin 256) (s : State) : Host.Outcome State Fault Refusal :=
  .next (s.act (fun c => c.hoAck n.val))

/-- NAK (R188): A valid NAK(n) acknowledges the frames before n and starts a go-back from n. -/
def execNak (n : Fin 256) (s : State) : Host.Outcome State Fault Refusal :=
  .next (s.act (fun c => c.hoNak n.val))

/-- ACK_TIMER_EXPIRY (R188): the ack timer expiring with frames outstanding starts a go-back from the oldest frame. -/
def execAckTimerExpiry (s : State) : Host.Outcome State Fault Refusal :=
  .next (s.act Chip.ackTimerExpiry)

/-- HOLD (R191): A HOLD in ACTIVE makes the send HELD and starts the hold timer. -/
def execHold (s : State) : Host.Outcome State Fault Refusal :=
  .next (s.act Chip.hoHold)

/-- HOLD_TIMER_EXPIRY (R191): the hold timer expiring fails the send with HELD. -/
def execHoldTimerExpiry (s : State) : Host.Outcome State Fault Refusal :=
  .next (s.act Chip.holdTimerExpiry)

/-- RESUME_TIMER_EXPIRY (R190): the resume timer expiring in SUSPENDED fails the send with LINK. -/
def execResumeTimerExpiry (s : State) : Host.Outcome State Fault Refusal :=
  .next (s.act Chip.resumeTimerExpiry)

/-- ABORT (R191): an ABORT from head office fails an existing send with ABORTED. -/
def execAbort (_reason : Byte) (s : State) : Host.Outcome State Fault Refusal :=
  .next (s.act Chip.hoAbort)

/-- ACCEPTED (R191): an ACCEPTED in AWAIT_VERDICT hands CU the batch number, makes the day SENT and reports SEND_DONE;
otherwise it is a line error. -/
def execAccepted (batch : Word) (s : State) : Host.Outcome State Fault Refusal :=
  .next (s.act (fun c => c.hoAccepted batch.toNat))

/-- REJECTED (R191): A REJECTED verdict fails the send with REJECTED. -/
def execRejected (_reason : Byte) (s : State) : Host.Outcome State Fault Refusal :=
  .next (s.act Chip.hoRejected)

/-- VERDICT_TIMER_EXPIRY (R191): no verdict within VERDICT_TIME fails the send with NO_VERDICT. -/
def execVerdictTimerExpiry (s : State) : Host.Outcome State Fault Refusal :=
  .next (s.act Chip.verdictTimerExpiry)

/-- RECEIVE_CLOCK_RETURN (R177): A rising edge of RXC after the receive clock was absent makes it present, and with
carrier present a DOWN link goes to CALLING and sends a HELLO. -/
def execReceiveClockReturn (s : State) : Host.Outcome State Fault Refusal :=
  .next (s.act Chip.receiveClockReturn)

end Sys2Proof.Machine
end

