-- ==== Sys2Proof/Machine/PrinterCommands.lean ====
section
/-! DEFINITION. The events of the printers and their Feed Drives (08, 09). -/

namespace Sys2Proof.Machine

/-- BOOK_INSERTED (R140): BOOK becoming present in an EMPTY printer with PRN_PRESENT_n on starts alignment. -/
def execBookInserted (n : Fin 4) (s : State) : Host.Outcome State Fault Refusal :=
  .next (s.act (fun c => c.bookInserted n))

/-- BOOK_REMOVED (R142): BOOK becoming absent empties the printer, ends an eject, or is a BOOK_PULLED shutdown while
feeding or striking. -/
def execBookRemoved (n : Fin 4) (s : State) : Host.Outcome State Fault Refusal :=
  .next (s.act (fun c => c.bookRemoved n))

/-- TOF_EDGE (R159): the TOF edge in ALIGNING zeroes the position, puts the bridge OFF and makes the printer READY. -/
def execTofEdge (n : Fin 4) (s : State) : Host.Outcome State Fault Refusal :=
  .next (s.act (fun c => c.tofEdge n))

/-- REQUEST_TAKE (R141): A READY printer with a queued request takes the head request and feeds toward its target, or
ejects for a page turn. -/
def execRequestTake (n : Fin 4) (s : State) : Host.Outcome State Fault Refusal :=
  .next (s.act (fun c => c.requestTake n))

/-- ENCODER_EDGE (R158): A rising ENC edge advances the prescale counter and may make a position count. -/
def execEncoderEdge (n : Fin 4) (s : State) : Host.Outcome State Fault Refusal :=
  .next (s.act (fun c => c.encoderEdge n))

/-- TARGET_MATCH (R159): A position count reaching the target in FEEDING brakes the bridge and makes the printer
STRIKING. -/
def execTargetMatch (n : Fin 4) (s : State) : Host.Outcome State Fault Refusal :=
  .next (s.act (fun c => c.targetMatch n))

/-- STRIKE_COMPOSE (R143): on STRIKING, PRU reads the line text and the record, renders the amount column, and sends
the STRIKE message or aborts on a store error. -/
def execStrikeCompose (n : Fin 4) (s : State) : Host.Outcome State Fault Refusal :=
  .next (s.act (fun c => c.strikeCompose n))

/-- HEAD_ANSWER (R144): A DONE from the head stamps the record PRINTED and ends the request; a FAULT is a HEAD
shutdown. -/
def execHeadAnswer (n : Fin 4) (char : Byte) (s : State) : Host.Outcome State Fault Refusal :=
  .next (s.act (fun c => c.headAnswer n char))

/-- HEAD_TIMEOUT (R144): no head answer within HEAD_TIMEOUT_n is a HEAD shutdown. -/
def execHeadTimeout (n : Fin 4) (s : State) : Host.Outcome State Fault Refusal :=
  .next (s.act (fun c => c.headTimeout n))

/-- TRAVEL_LIMIT (R159): the travel count reaching ALIGN_TRAVEL_n or EJECT_TRAVEL_n makes a JAM shutdown. -/
def execTravelLimit (n : Fin 4) (s : State) : Host.Outcome State Fault Refusal :=
  .next (s.act (fun c => c.travelLimit n))

/-- STALL_TIMEOUT (R160): STALL_TIME_n without a position count while driven makes a JAM shutdown. -/
def execStallTimeout (n : Fin 4) (s : State) : Host.Outcome State Fault Refusal :=
  .next (s.act (fun c => c.stallTimeout n))

/-- COVER_ACTIVE (R161): the COVER input active is a shutdown cause, or is latched in HALTED. -/
def execCoverActive (n : Fin 4) (s : State) : Host.Outcome State Fault Refusal :=
  .next (s.act (fun c => c.coverActive n))

/-- OVC_ACTIVE (R161): the OVC input active is a shutdown cause, or is latched in HALTED. -/
def execOvcActive (n : Fin 4) (s : State) : Host.Outcome State Fault Refusal :=
  .next (s.act (fun c => c.ovcActive n))

/-- CAUSE_INPUT_INACTIVE (R164): A COVER or OVC input becoming inactive tests the automatic restart conditions. -/
def execCauseInputInactive (n : Fin 4) (ovc : Bool) (s : State) : Host.Outcome State Fault Refusal :=
  .next (s.act (fun c => c.causeInputInactive n ovc))

/-- PERIOD_BOUNDARY (R153): at the end of each modulation period the working duty ramps toward the target duty chosen
by distance. -/
def execPeriodBoundary (n : Fin 4) (s : State) : Host.Outcome State Fault Refusal :=
  .next (s.act (fun c => c.periodBoundary n))

/-- DEAD_BAND_EXPIRY (R155): DEAD_BAND_n steps after one output of a pair turns inactive, the other output waiting to
turn active does so. -/
def execDeadBandExpiry (n : Fin 4) (output : Fin 4) (s : State) : Host.Outcome State Fault Refusal :=
  .next (s.act (fun c => c.deadBandExpiry n output))

/-- STRIKE_MESSAGE_SENT (R144): after the last byte of the STRIKE message, the head exchange moves from sending to
awaiting answer and the HEAD_TIMEOUT_n wait starts. -/
def execStrikeMessageSent (n : Fin 4) (s : State) : Host.Outcome State Fault Refusal :=
  .next (s.act (fun c => c.strikeMessageSent n))

/-- HIGH_SIDE_TURN_OFF (R156): when the step counter reaches the working duty W within a FORWARD or REVERSE period,
the modulated high-side output becomes inactive. -/
def execHighSideTurnOff (n : Fin 4) (s : State) : Host.Outcome State Fault Refusal :=
  .next (s.act (fun c => c.highSideTurnOff n))

end Sys2Proof.Machine
end

