-- ==== Sys2Proof/Machine/RequestCommands.lean ====
section
/-! DEFINITION. The requests: writes of the request word, whose operands stand in the store (02.4). -/

namespace Sys2Proof.Machine

/-- A host write of the request word (R31). -/
def Chip.writeRequest (c : Chip) (m : List Host.Cell) (code : Word) : Chip :=
  c.writeIn m .setup (c.setupAddr 0x100) code allBytes

/-- CLOSE_DAY (R168): the CLOSE_DAY request checks the day state, the drawers, RESERVE and pending prints, then
certifies the closing counts and makes the day CLOSED. -/
def execCloseDay (s : State) : Host.Outcome State Fault Refusal :=
  .next (s.host (fun m c => c.writeRequest m (wd Request.closeDay.code)))

/-- START_SEND (R171): the START_SEND request makes a CLOSED day SENDING and hands HLC a fresh send from frame 0. -/
def execStartSend (s : State) : Host.Outcome State Fault Refusal :=
  .next (s.host (fun m c => c.writeRequest m (wd Request.startSend.code)))

/-- CLEAR_DAY (R174): the CLEAR_DAY request turns a SENT day into NO_DAY, zeroes the drawer records and totals, and
empties the posting slots. -/
def execClearDay (s : State) : Host.Outcome State Fault Refusal :=
  .next (s.host (fun m c => c.writeRequest m (wd Request.clearDay.code)))

/-- LINK_RESET (R193): the LINK_RESET request takes the link DOWN with cause RESET and suspends an ACTIVE or HELD
send. -/
def execLinkReset (s : State) : Host.Outcome State Fault Refusal :=
  .next (s.host (fun m c => c.writeRequest m (wd Request.linkReset.code)))

/-- PRINTER_CLEAR (R148): the PRINTER_CLEAR request cancels the printer's queue, ends the request in service, clears
the latch and ejects, empties or leaves the printer HALTED. -/
def execPrinterClear (s : State) : Host.Outcome State Fault Refusal :=
  .next (s.host (fun m c => c.writeRequest m (wd Request.printerClear.code)))

/-- PRINTER_RESTART (R165): the PRINTER_RESTART request restarts a HALTED printer whose latched COVER and OVC inputs
are inactive. -/
def execPrinterRestart (s : State) : Host.Outcome State Fault Refusal :=
  .next (s.host (fun m c => c.writeRequest m (wd Request.printerRestart.code)))

/-- PRINTER_HALT (R163): the PRINTER_HALT request makes a FORCED shutdown or adds FORCED to the latch. -/
def execPrinterHalt (s : State) : Host.Outcome State Fault Refusal :=
  .next (s.host (fun m c => c.writeRequest m (wd Request.printerHalt.code)))

/-- EJECT (R149): the EJECT request makes a READY printer EJECTING and is refused in any other state. -/
def execEject (s : State) : Host.Outcome State Fault Refusal :=
  .next (s.host (fun m c => c.writeRequest m (wd Request.eject.code)))

/-- SCREEN_MODE (R107): the SCREEN_MODE request sets the mode in force of a screen, or its remembered mode when auto-
blanked. -/
def execScreenMode (s : State) : Host.Outcome State Fault Refusal :=
  .next (s.host (fun m c => c.writeRequest m (wd Request.screenMode.code)))

/-- SCREEN_REFRESH (R108): the SCREEN_REFRESH request marks all 25 rows of a screen dirty and sets its MODE-pending
mark. -/
def execScreenRefresh (s : State) : Host.Outcome State Fault Refusal :=
  .next (s.host (fun m c => c.writeRequest m (wd Request.screenRefresh.code)))

/-- LINE_RESET (R133): the LINE_RESET request restarts a screen line, detaching its terminals, withdrawing releases
and dirtying its screens. -/
def execLineReset (s : State) : Host.Outcome State Fault Refusal :=
  .next (s.host (fun m c => c.writeRequest m (wd Request.lineReset.code)))

/-- DRAWER_RELEASE (R131): the DRAWER_RELEASE request judges day, drawer, terminal and mode and starts or restarts the
drawer release pulse. -/
def execDrawerRelease (s : State) : Host.Outcome State Fault Refusal :=
  .next (s.host (fun m c => c.writeRequest m (wd Request.drawerRelease.code)))

/-- BAD_REQUEST (R31): A host write of the request word with a code that names no request is refused with BAD_REQUEST,
the result area is written and the write is answered ERROR. -/
def execBadRequest (code : Word) (s : State) : Host.Outcome State Fault Refusal :=
  .next (s.host (fun m c => c.writeRequest m code))

end Sys2Proof.Machine
end

