-- ==== Sys2Proof/Machine/ScreenCommands.lean ====
section
/-! DEFINITION. The steps of the Screen Unit and of the screen lines (06, 07). -/

namespace Sys2Proof.Machine

/-- FAN_OUT_START (R115): when the fan-out is idle or its current burst group ends with the start mark set, SCU reads
the master row and copies it into row BCST_ROW of the screens of BCST_SET. -/
def execFanOutStart (s : State) : Host.Outcome State Fault Refusal :=
  .next (s.act Chip.fanOutStart)

/-- SWEEP_START (R100): when a screen has no sweep, an ATTACHED terminal and dirty rows the mode allows, SCU moves
those rows into a new sweep set. -/
def execSweepStart (p : Fin 12) (s : State) : Host.Outcome State Fault Refusal :=
  .next (s.act (fun c => c.sweepStart p))

/-- STATUS_ROW_RENDER (R113): SCU takes a status-row entry from its work list, renders row 24 and writes it when it
differs from the previous rendering. -/
def execStatusRowRender (s : State) : Host.Outcome State Fault Refusal :=
  .next (s.act Chip.statusRowRender)

/-- FLASH_TOGGLE (R112): every 1,000 ms while the attention text is not blank, the flash phase toggles and the status
row is re-rendered. -/
def execFlashToggle (p : Fin 12) (s : State) : Host.Outcome State Fault Refusal :=
  .next (s.act (fun c => c.flashToggle p))

/-- IDLE_TIMER_EXPIRY (R109): after IDLE_BLANK seconds without a key, SCU auto-blanks a screen, remembers its mode and
reports DRAWER_UNATTENDED if the drawer is open. -/
def execIdleTimerExpiry (p : Fin 12) (s : State) : Host.Outcome State Fault Refusal :=
  .next (s.act (fun c => c.idleTimerExpiry p))

/-- LINE_TURN (R124): when the line is free, the controller serves the next drop with something to send and chooses
its frame by precedence, reading a row from the store when a ROW is sent. -/
def execLineTurn (l : Fin 3) (s : State) : Host.Outcome State Fault Refusal :=
  .next (s.act (fun c => c.lineTurn l))

/-- FRAME_SENT (R120): at the stop bit of a frame's last byte the controller turns the line to receive and starts the
reply time. -/
def execFrameSent (l : Fin 3) (s : State) : Host.Outcome State Fault Refusal :=
  .next (s.act (fun c => c.frameSent l))

/-- TERMINAL_ACK (R121): A valid ACK delivers the frame, resets the miss count, and hands on the drawer sensor reading
and keys. -/
def execTerminalAck (l : Fin 3) (sensorOpen : Bool) (keys : List (BitVec 16))
    (s : State) : Host.Outcome State Fault Refusal :=
  .next (s.act (fun c => c.terminalAck l sensorOpen keys))

/-- TERMINAL_NAK (R121): A valid NAK resets the miss count and keeps the frame for a resend, abandoning it after three
sends. -/
def execTerminalNak (l : Fin 3) (s : State) : Host.Outcome State Fault Refusal :=
  .next (s.act (fun c => c.terminalNak l))

/-- TERMINAL_IDENT (R125): A valid IDENT attaches the terminal, stores its capabilities and tells SCU, which dirties
all rows and sets MODE-pending. -/
def execTerminalIdent (l : Fin 3) (colour : Bool) (keyboard revision : Byte)
    (s : State) : Host.Outcome State Fault Refusal :=
  .next (s.act (fun c => c.terminalIdent l colour keyboard revision))

/-- DAMAGED_ANSWER (R121): an answer failing the validity checks counts as a miss. -/
def execDamagedAnswer (l : Fin 3) (bytes : List Byte) (s : State) : Host.Outcome State Fault Refusal :=
  .next (s.act (fun c => c.damagedAnswer l bytes))

/-- ANSWER_PAUSE_TIMEOUT (R120): A pause of more than 2 character times within an answer makes it damaged and ends the
exchange. -/
def execAnswerPauseTimeout (l : Fin 3) (s : State) : Host.Outcome State Fault Refusal :=
  .next (s.act (fun c => c.answerPauseTimeout l))

/-- REPLY_TIMEOUT (R120): when no answer begins within REPLY_TIME_l, the exchange ends in a miss, or detaches an
attaching terminal. -/
def execReplyTimeout (l : Fin 3) (s : State) : Host.Outcome State Fault Refusal :=
  .next (s.act (fun c => c.replyTimeout l))

/-- POLL_INTERVAL_EXPIRY (R124): POLL_INTERVAL after a drop's last exchange, a POLL becomes due and the controller
looks for a turn. -/
def execPollIntervalExpiry (p : Fin 12) (s : State) : Host.Outcome State Fault Refusal :=
  .next (s.act (fun c => c.pollIntervalExpiry p))

/-- ATTACH_ATTEMPT_DUE (R125): when a detached or lost drop's attach attempt falls due, an IDENT_REQ becomes sendable.
-/
def execAttachAttemptDue (p : Fin 12) (s : State) : Host.Outcome State Fault Refusal :=
  .next (s.act (fun c => c.attachAttemptDue p))

/-- OPEN_LONG_EXPIRY (R130): when the open-too-long timer expires, the attention is set and DRAWER_OPEN_LONG is
reported. -/
def execOpenLongExpiry (p : Fin 12) (s : State) : Host.Outcome State Fault Refusal :=
  .next (s.act (fun c => c.openLongExpiry p))

/-- RELEASE_PULSE_END (R132): when RELEASE_TIME has run out, DRWREL_p becomes inactive. -/
def execReleasePulseEnd (p : Fin 12) (s : State) : Host.Outcome State Fault Refusal :=
  .next (s.act (fun c => c.releasePulseEnd p))

/-- LINE_GAP_EXPIRY (R119): when LINE_GAP_l character times have passed since the last byte seen on the line, the
chosen frame starts going out with DIR active. -/
def execLineGapExpiry (l : Fin 3) (s : State) : Host.Outcome State Fault Refusal :=
  .next (s.act (fun c => c.lineGapExpiry l))

end Sys2Proof.Machine
end

