-- ==== Sys2Proof/Machine/Dispatch.lean ====
section
/-! DEFINITION. The dispatch: one arm for each command. -/

namespace Sys2Proof.Machine

/-- The effect of a command on everything but the queue. -/
def exec (i : Instr) (s : State) : Host.Outcome State Fault Refusal :=
  match i with
  | .deviceReset sel => Sys2Proof.Machine.execDeviceReset sel s
  | .loadingEnd => Sys2Proof.Machine.execLoadingEnd s
  | .hostWrite access => Sys2Proof.Machine.execHostWrite access s
  | .arbiterGrant => Sys2Proof.Machine.execArbiterGrant s
  | .storeAnswer okay => Sys2Proof.Machine.execStoreAnswer okay s
  | .settingWrite offset value enables => Sys2Proof.Machine.execSettingWrite offset value enables s
  | .placementWrite window limit value enables => Sys2Proof.Machine.execPlacementWrite window limit value enables s
  | .jnlCapacityWrite value enables => Sys2Proof.Machine.execJnlCapacityWrite value enables s
  | .ceilingWrite p upper value enables => Sys2Proof.Machine.execCeilingWrite p upper value enables s
  | .lineSettingWrite l gap value enables => Sys2Proof.Machine.execLineSettingWrite l gap value enables s
  | .idleBlankWrite value enables => Sys2Proof.Machine.execIdleBlankWrite value enables s
  | .capabilitySettingWrite p colour value enables => Sys2Proof.Machine.execCapabilitySettingWrite p colour value enables s
  | .formatSettingWrite separators value enables => Sys2Proof.Machine.execFormatSettingWrite separators value enables s
  | .prnPresentWrite n value enables => Sys2Proof.Machine.execPrnPresentWrite n value enables s
  | .autoRestartWrite n value enables => Sys2Proof.Machine.execAutoRestartWrite n value enables s
  | .feedSettingWrite n which value enables => Sys2Proof.Machine.execFeedSettingWrite n which value enables s
  | .reportReadIndexWrite value enables => Sys2Proof.Machine.execReportReadIndexWrite value enables s
  | .closeDay => Sys2Proof.Machine.execCloseDay s
  | .startSend => Sys2Proof.Machine.execStartSend s
  | .clearDay => Sys2Proof.Machine.execClearDay s
  | .linkReset => Sys2Proof.Machine.execLinkReset s
  | .printerClear => Sys2Proof.Machine.execPrinterClear s
  | .printerRestart => Sys2Proof.Machine.execPrinterRestart s
  | .printerHalt => Sys2Proof.Machine.execPrinterHalt s
  | .eject => Sys2Proof.Machine.execEject s
  | .screenMode => Sys2Proof.Machine.execScreenMode s
  | .screenRefresh => Sys2Proof.Machine.execScreenRefresh s
  | .lineReset => Sys2Proof.Machine.execLineReset s
  | .drawerRelease => Sys2Proof.Machine.execDrawerRelease s
  | .commit slot => Sys2Proof.Machine.execCommit slot s
  | .applyRecord => Sys2Proof.Machine.execApplyRecord s
  | .markDamaged => Sys2Proof.Machine.execMarkDamaged s
  | .printStateStamp => Sys2Proof.Machine.execPrintStateStamp s
  | .rebuildWalkStep => Sys2Proof.Machine.execRebuildWalkStep s
  | .rebuildEnd => Sys2Proof.Machine.execRebuildEnd s
  | .reportWrite => Sys2Proof.Machine.execReportWrite s
  | .screenRowWrite p word value enables => Sys2Proof.Machine.execScreenRowWrite p word value enables s
  | .masterRowWrite word value enables => Sys2Proof.Machine.execMasterRowWrite word value enables s
  | .fanOutStart => Sys2Proof.Machine.execFanOutStart s
  | .sweepStart p => Sys2Proof.Machine.execSweepStart p s
  | .statusRowRender => Sys2Proof.Machine.execStatusRowRender s
  | .flashToggle p => Sys2Proof.Machine.execFlashToggle p s
  | .idleTimerExpiry p => Sys2Proof.Machine.execIdleTimerExpiry p s
  | .lineTurn l => Sys2Proof.Machine.execLineTurn l s
  | .frameSent l => Sys2Proof.Machine.execFrameSent l s
  | .terminalAck l sensorOpen keys => Sys2Proof.Machine.execTerminalAck l sensorOpen keys s
  | .terminalNak l => Sys2Proof.Machine.execTerminalNak l s
  | .terminalIdent l colour keyboard revision => Sys2Proof.Machine.execTerminalIdent l colour keyboard revision s
  | .damagedAnswer l bytes => Sys2Proof.Machine.execDamagedAnswer l bytes s
  | .answerPauseTimeout l => Sys2Proof.Machine.execAnswerPauseTimeout l s
  | .replyTimeout l => Sys2Proof.Machine.execReplyTimeout l s
  | .pollIntervalExpiry p => Sys2Proof.Machine.execPollIntervalExpiry p s
  | .attachAttemptDue p => Sys2Proof.Machine.execAttachAttemptDue p s
  | .keyReadIndexWrite p value enables => Sys2Proof.Machine.execKeyReadIndexWrite p value enables s
  | .openLongExpiry p => Sys2Proof.Machine.execOpenLongExpiry p s
  | .releasePulseEnd p => Sys2Proof.Machine.execReleasePulseEnd p s
  | .printSlotIdleWrite n slot => Sys2Proof.Machine.execPrintSlotIdleWrite n slot s
  | .submit n slot => Sys2Proof.Machine.execSubmit n slot s
  | .bookInserted n => Sys2Proof.Machine.execBookInserted n s
  | .bookRemoved n => Sys2Proof.Machine.execBookRemoved n s
  | .tofEdge n => Sys2Proof.Machine.execTofEdge n s
  | .requestTake n => Sys2Proof.Machine.execRequestTake n s
  | .encoderEdge n => Sys2Proof.Machine.execEncoderEdge n s
  | .targetMatch n => Sys2Proof.Machine.execTargetMatch n s
  | .strikeCompose n => Sys2Proof.Machine.execStrikeCompose n s
  | .headAnswer n char => Sys2Proof.Machine.execHeadAnswer n char s
  | .headTimeout n => Sys2Proof.Machine.execHeadTimeout n s
  | .travelLimit n => Sys2Proof.Machine.execTravelLimit n s
  | .stallTimeout n => Sys2Proof.Machine.execStallTimeout n s
  | .coverActive n => Sys2Proof.Machine.execCoverActive n s
  | .ovcActive n => Sys2Proof.Machine.execOvcActive n s
  | .causeInputInactive n ovc => Sys2Proof.Machine.execCauseInputInactive n ovc s
  | .periodBoundary n => Sys2Proof.Machine.execPeriodBoundary n s
  | .deadBandExpiry n output => Sys2Proof.Machine.execDeadBandExpiry n output s
  | .carrierChange present => Sys2Proof.Machine.execCarrierChange present s
  | .receiveClockLoss => Sys2Proof.Machine.execReceiveClockLoss s
  | .helloTimerExpiry => Sys2Proof.Machine.execHelloTimerExpiry s
  | .hello => Sys2Proof.Machine.execHello s
  | .helloAck => Sys2Proof.Machine.execHelloAck s
  | .keepalive => Sys2Proof.Machine.execKeepalive s
  | .invalidFrame bytes => Sys2Proof.Machine.execInvalidFrame bytes s
  | .transmitterFree => Sys2Proof.Machine.execTransmitterFree s
  | .keepaliveTimerExpiry => Sys2Proof.Machine.execKeepaliveTimerExpiry s
  | .silenceTimerExpiry => Sys2Proof.Machine.execSilenceTimerExpiry s
  | .ack n => Sys2Proof.Machine.execAck n s
  | .nak n => Sys2Proof.Machine.execNak n s
  | .ackTimerExpiry => Sys2Proof.Machine.execAckTimerExpiry s
  | .hold => Sys2Proof.Machine.execHold s
  | .holdTimerExpiry => Sys2Proof.Machine.execHoldTimerExpiry s
  | .resumeTimerExpiry => Sys2Proof.Machine.execResumeTimerExpiry s
  | .abort reason => Sys2Proof.Machine.execAbort reason s
  | .accepted batch => Sys2Proof.Machine.execAccepted batch s
  | .rejected reason => Sys2Proof.Machine.execRejected reason s
  | .verdictTimerExpiry => Sys2Proof.Machine.execVerdictTimerExpiry s
  | .receiveClockReturn => Sys2Proof.Machine.execReceiveClockReturn s
  | .lineGapExpiry l => Sys2Proof.Machine.execLineGapExpiry l s
  | .strikeMessageSent n => Sys2Proof.Machine.execStrikeMessageSent n s
  | .highSideTurnOff n => Sys2Proof.Machine.execHighSideTurnOff n s
  | .badRequest code => Sys2Proof.Machine.execBadRequest code s

end Sys2Proof.Machine
end

