-- ==== Sys2Proof/Machine/Step.lean ====
section
/-! DEFINITION. The step: the command at the front of the queue, or a CLK period. -/

namespace Sys2Proof.Machine

/-- A CLK period: what a step on an empty queue is (log 1). -/
def State.idleStep (s : State) : State := s.act Chip.tick

/-- Take the command at the front of the queue and run it with the queue's rest; on an empty queue a CLK period passes
(log 1). -/
def step (s : State) : Host.Outcome State Fault Refusal :=
  match s.pending with
  | i :: rest => exec i { s with pending := rest }
  | [] => .next s.idleStep

/-- The state with the command a word spells put at the front of the queue; unchanged where the word spells none. -/
def State.withFetchWord (s : State) (nbits w : Nat) : State :=
  match decodeTableWord nbits w with
  | some i => { s with pending := i :: s.pending }
  | none => s

end Sys2Proof.Machine
end

