-- ==== Sys2Proof/Safety.lean ====
section
/-! DEFINITION. The words the statements are made in: what a safe state is, that a command completes, what it leaves
alone, and when the host's access can be carried to its end. -/

namespace Sys2Proof.Machine

/-! ### Safe states -/

/-- The store is in its canonical form and the arbiter's streak is one the rules allow (R15). -/
def State.Safe (s : State) : Prop := memWf s.mem = true ∧ s.arb.streak ≤ 4

/-! ### Completion -/

/-- A command answers a next state of which `P` holds. -/
def Completes (i : Instr) (s : State) (P : State → Prop) : Prop := ∃ t, exec i s = .next t ∧ P t

/-- A command, then a grant of the store port, then the store's OKAY: a host write taken, or a request served once its
operands have been read. -/
def CompletesStored (i : Instr) (s : State) (P : State → Prop) : Prop :=
  Completes i s fun s₁ => Completes .arbiterGrant s₁ fun s₂ => Completes (.storeAnswer true) s₂ P

/-! ### Frames -/

/-- The parts of the chip, one for each field of `Chip`. -/
inductive Part where
  | ap | own | su | ju | cu | scu | slc | pru | fd | hlc | pins | free
  deriving DecidableEq, Repr

/-- `d` differs from `c` in no part but those listed. -/
structure Chip.Only (ps : List Part) (c d : Chip) : Prop where
  ap : .ap ∉ ps → d.ap = c.ap
  own : .own ∉ ps → d.own = c.own
  su : .su ∉ ps → d.su = c.su
  ju : .ju ∉ ps → d.ju = c.ju
  cu : .cu ∉ ps → d.cu = c.cu
  scu : .scu ∉ ps → d.scu = c.scu
  slc : .slc ∉ ps → d.slc = c.slc
  pru : .pru ∉ ps → d.pru = c.pru
  fd : .fd ∉ ps → d.fd = c.fd
  hlc : .hlc ∉ ps → d.hlc = c.hlc
  pins : .pins ∉ ps → d.pins = c.pins
  free : .free ∉ ps → d.free = c.free

/-- The store, the arbiter, the queue and the store's promptness are unchanged: every byte of the store reads as
before. -/
structure State.KeepsStore (s t : State) : Prop where
  mem : t.mem = s.mem
  arb : t.arb = s.arb
  prompt : t.prompt = s.prompt
  pending : t.pending = s.pending

/-- Nothing changes but the parts listed. -/
structure State.Only (ps : List Part) (s t : State) : Prop where
  store : s.KeepsStore t
  chip : s.chip.Only ps t.chip

/-- Every entry of a vector but one is the same. -/
def SameBut {α : Type} {n : Nat} (i : Fin n) (v w : Vector α n) : Prop := ∀ j : Fin n, j ≠ i → w[j.val] = v[j.val]

/-! ### The host -/

/-- The controller port can carry a host access: LOADING has ended, AP holds none back, and none is in progress; the store answers by
STORE_ANSWER. -/
structure State.HostFree (s : State) : Prop where
  prompt : s.prompt = false
  loaded : s.chip.su.unitState ≠ .loading
  released : s.chip.ap.held = false
  host : s.chip.ap.host = none

/-- No unit waits for the store. -/
def Chip.NoneWaits (c : Chip) : Prop := ∀ u : Fin 9, c.waiting[u.val] = []

/-- A host write that arrives is the next access at the store port: the port is free, and the host's streak is not up or
no unit waits (R15). -/
structure State.HostNext (s : State) : Prop extends s.HostFree where
  port : s.arb.port = .idle
  streak : s.arb.streak < 4 ∨ s.chip.NoneWaits

/-- A request that arrives is served with nothing else at the store port. -/
structure State.Alone (s : State) : Prop extends s.HostFree where
  port : s.arb.port = .idle
  none : ∀ u : Fin 9, s.chip.own[u.val] = []

/-- A word of the SETUP page that the host reaches. -/
def Chip.SetupWord (c : Chip) (off : Nat) : Prop := c.windowOf (wrapAddr (c.setupAddr off)) = some .setup

/-- The setting a command writes, with its word and byte enables. -/
def settingWritten : Instr → Option (Setting × Word × BitVec 4)
  | .settingWrite off v e => (settingAtOffset off.val).map (fun k => (k, v, e))
  | .placementWrite w limit v e => some (.placement w limit, v, e)
  | .jnlCapacityWrite v e => some (.jnlCapacity, v, e)
  | .ceilingWrite p upper v e => some (.ceiling p upper, v, e)
  | .lineSettingWrite l gap v e => some (if gap then .lineGap l else .lineRate l, v, e)
  | .idleBlankWrite v e => some (.idleBlank, v, e)
  | .capabilitySettingWrite p colour v e => some (if colour then .colour p else .capOverride p, v, e)
  | .formatSettingWrite sep v e => some (if sep then .separators else .decimals, v, e)
  | .prnPresentWrite n v e => some (.printer n .present, v, e)
  | .autoRestartWrite n v e => some (.printer n .autoRestart, v, e)
  | .feedSettingWrite n which v e => some (.printer n (feedSettingOf which), v, e)
  | _ => none

/-! ### Words of the statements -/

/-- The words a write in progress at the store port is making. -/
def PortUse.writing : PortUse → Option (Nat × List WriteWord)
  | .host (.write addr ws) => some (addr, ws)
  | .own _ (.write addr ws) _ _ => some (addr, ws)
  | _ => none

/-- A word the host reaches in a window. -/
def Chip.HostReaches (c : Chip) (w : Window) (addr : Nat) : Prop := c.windowOf (wrapAddr addr) = some w

/-- The EXCESS flag of drawer `p` under a ceiling (R42). -/
def Chip.excessUnder (c : Chip) (ceiling : Nat) (p : Fin 12) : Bool :=
  ceiling != 0 && ceiling < cashPosition c.faces (c.drawerOf p).counts

/-- The operand words of a request, as the store holds them. -/
def Chip.OperandsAre (c : Chip) (m : List Host.Cell) (op0 op1 : Word) : Prop :=
  readWord m (c.setupAddr 0x104) = op0 ∧ readWord m (c.setupAddr 0x108) = op1

/-- Operand 1 of a SCREEN_MODE (Table 12-3). -/
def modeOperandOf (m : Mode) (plain : Bool) : Word :=
  wd (m.kind.code + 4 * flagBit plain + 256 * m.first + 65536 * m.last)

/-- SU's write of the result area that ends a request: DONE, or REFUSED with its reason (R32). -/
def resultAsked (c : Chip) (code : Nat) (reason : Option Reason) (detail : Nat) : OwnReq :=
  ⟨.write (c.setupAddr 0x120) (match reason with
    | none => [1, 0, wd detail, wd code]
    | some r => [2, wd r.code, wd detail, wd code]), .result reason.isNone, false⟩

/-- A store ERROR of unit `u` at `addr` is reported, with room for the report, and nothing else of SU changes; after an OKAY
nothing of SU does (R17, R33, Table 2-6). -/
def Chip.Told (c d : Chip) (okay : Bool) (u : Fin 9) (addr : Nat) : Prop :=
  (okay = true → d.su = c.su) ∧ (okay = false → c.su.reports.length < 16 → d.su = { c.su with
    reports := c.su.reports ++ [⟨.storeError, u.val, pageOf addr, c.su.ms⟩] })

/-- The reports made, when there is room for all of them (R33). -/
def Chip.Reports (c d : Chip) (rs : List (ReportKind × Nat × Nat)) : Prop :=
  c.su.reports.length + rs.length ≤ 16 → d.su.reports = c.su.reports ++ rs.map fun r => ⟨r.1, r.2.1, r.2.2, c.su.ms⟩

/-- Burst `b` of eight words. -/
def burstOf (ws : List Word) (b : Nat) : List Word := (ws.drop (8 * b)).take 8

/-- The four writes of mirror `x` asked of CU, `last` following the fourth (R77, Table 12-10). -/
def Chip.mirrorAsked (c : Chip) (x : Fin 13) (last : After) : List OwnReq := (List.range 4).map fun b =>
  ⟨.totals (128 * x.val + 32 * b) (burstOf ((c.drawer x).mirrorWords c.faces) b), .mirror x b (if b = 3 then last else .nothing), false⟩

/-- All thirteen mirrors asked of CU in index order, `last` following the last write (R77). -/
def Chip.mirrorsAsked (c : Chip) (last : After) : List OwnReq :=
  (List.finRange 13).flatMap fun x => c.mirrorAsked x (if x = 12 then last else .nothing)

/-- The two writes of the running part asked of CU, `last` following the second (R79, Table 12-2). -/
def Chip.runningAsked (c : Chip) (last : After) : List OwnReq := (List.range 2).map fun b =>
  ⟨.write (c.setupAddr (0x0C0 + 32 * b)) (burstOf c.cu.day.runningWords b), .running b (if b = 1 then last else .nothing), false⟩

/-- The four writes of the anchor part asked of CU, `last` following the fourth (R79, R169, Table 12-2). -/
def Chip.anchorAsked (c : Chip) (last : After) : List OwnReq := (List.range 4).map fun b =>
  ⟨.write (c.setupAddr (0x040 + 32 * b)) (burstOf c.cu.day.anchorWords b), .anchor b (if b = 3 then last else .nothing), false⟩

/-- The running part asked of CU before an anchor write outside a posting: made if it is stale when its turn comes (R79). -/
def staleAsked : List OwnReq := [⟨.staleRunning 0, .running 0 .nothing, false⟩, ⟨.staleRunning 1, .running 1 .nothing, false⟩]

/-- A request is about to end DONE: with the last own access of a requester, or with the result area asked for (R31). -/
def Chip.Finishes (c : Chip) (u : Fin 9) (code : Nat) : Prop :=
  (∃ r, (c.own[u.val] : List OwnReq).getLast? = some r ∧ r.fin = true) ∨
    (c.own[rSU.val] : List OwnReq).getLast? = some (resultAsked c code none 0)

/-- The code a command writes to the request word. -/
def requestWritten : Instr → Option Nat
  | .closeDay => some 1 | .startSend => some 2 | .clearDay => some 3 | .linkReset => some 4 | .printerClear => some 5
  | .printerRestart => some 6 | .printerHalt => some 7 | .eject => some 8 | .screenMode => some 9
  | .screenRefresh => some 10 | .lineReset => some 11 | .drawerRelease => some 12 | .badRequest code => some code.toNat
  | _ => none

/-- What the restart of line `l` leaves (R133). A frame being sent stops after the byte in progress. -/
structure Chip.LineRestarted (c d : Chip) (l : Fin 3) : Prop where
  line : (d.line l).pointer = 3 ∧ (d.line l).rate = d.setting (.lineRate l) ∧
    (d.line l).gap = d.setting (.lineGap l) ∧ (d.line l).keys = (c.line l).keys
  use : (d.line l).use = match (c.line l).use with
    | .sending _ f left _ =>
      let bit := bitClk (c.line l).rate
      let byte := 10 * bit
      if left % byte = 0 then .free else .stopping (f.bytes.getD ((byte * f.bytes.length - left) / byte) 0) bit (left % byte)
    | .stopping b bit left => .stopping b bit left
    | _ => .free
  drops : ∀ x : Fin 4, d.drop (posOf l x) = { c.drop (posOf l x) with
    terminal := .detached, resend := none, misses := 0, attachIn := 0, pulse := none, sensor := .unknown,
    openTimer := (d.drop (posOf l x)).openTimer }
  timers : ∀ x : Fin 4, (c.drop (posOf l x)).sensor ≠ .unknown → (d.drop (posOf l x)).openTimer = none
  screens : ∀ x : Fin 4, d.screen (posOf l x) = { c.screen (posOf l x) with
    sweeping := false, sweep := noRows, flight := none, dirty := allRows }
  otherLines : SameBut l c.slc.lines d.slc.lines
  others : ∀ p : Fin 12, lineOf p ≠ l → d.drop p = c.drop p ∧ d.screen p = c.screen p

/-- What a mode change, or a change of PLAIN in force, leaves of screen `p` (R104 to R106): a MODE frame is due; the sweep set
keeps the rows the mode now shows, and its others go back into the dirty set; rows newly shown are dirty, and with PLAIN changed
all rows shown, but those still waiting or in flight unread; a sweep that this leaves with no row is complete; the mode word of
a present screen is written, or waits on the work list; a screen that is now BLANKED has its release withdrawn. -/
structure Chip.ModeChanged (c d : Chip) (p : Fin 12) (fin : Bool) : Prop where
  pending : (d.screen p).modePending = true ∧ (d.screen p).flight = (c.screen p).flight
  sweep : ∀ r : Fin 25, hasRow (d.screen p).sweep r = (hasRow (c.screen p).sweep r && (d.screen p).mode.shows r)
  dirty : let a := c.screen p
    let b := d.screen p
    ∀ r : Fin 25, hasRow b.dirty r = (hasRow a.dirty r || (hasRow a.sweep r && !b.mode.shows r) ||
      (b.mode.shows r && !(hasRow a.sweep r || a.flight == some ⟨r, false⟩) && (!a.mode.shows r || b.plain != a.plain)))
  complete : let a := c.screen p
    let ends := a.sweeping = true ∧ a.flight = none ∧ ∀ r : Fin 25, hasRow (d.screen p).sweep r = false
    (ends → (d.screen p).sweeping = false ∧ (d.screen p).sweepCount = (a.sweepCount + 1) % 4294967296) ∧
    (¬ ends → (d.screen p).sweeping = a.sweeping ∧ (d.screen p).sweepCount = a.sweepCount)
  word : c.screenPresent p = true → .mode p fin ∈ d.scu.work ∨
    ⟨.write (c.screenAddr p 4004) [(d.screen p).modeWord], .scuMode, fin⟩ ∈ (d.own[rSCU.val] : List OwnReq)
  release : (d.screen p).mode.kind = .blanked → (d.drop p).pulse = none

/-- Every latched cause is COVER or OVC with its input inactive (R164, but for AUTO_RESTART_n). -/
def Chip.MayRestart (c : Chip) (n : Fin 4) : Prop :=
  let l := (c.feed n).latch
  l.jam = false ∧ l.head = false ∧ l.bookPulled = false ∧ l.forced = false ∧
    (l.cover = true → c.coverIn n = false) ∧ (l.ovc = true → c.ovcIn n = false)

/-- What a restart leaves with COVER and OVC inactive, and its report (R166). -/
structure Chip.Restarted (c d : Chip) (n : Fin 4) : Prop where
  report : ∃ more : List Report, d.su.reports = c.su.reports ++ more ∧
    (c.su.reports.length < 16 → more = [⟨.printerRestarted, n.val, 0, c.su.ms⟩])
  latch : (d.feed n).latch = .empty
  aligning : c.bookIn n = true → d.prn n .present = 1 → (d.printer n).state = .aligning ∧ (d.feed n).mode = .forward ∧
    (d.feed n).travel = 0
  empty : ¬ (c.bookIn n = true ∧ d.prn n .present = 1) → (d.printer n).state = .empty ∧ (d.feed n).mode = .off
  kept : (d.printer n).queue = (c.printer n).queue ∧ (d.printer n).pageTurn = (c.printer n).pageTurn ∧
    (d.printer n).bookPage = (c.printer n).bookPage
  others : SameBut n c.pru.printers d.pru.printers ∧ SameBut n c.fd d.fd

/-- An output is active or waits to be. -/
def Output.engaged (o : Output) : Prop := o.active = true ∨ o.wait ≠ none

/-- A JAM has arisen (R159, R160, Table 9-6). -/
def Chip.JamArisen (c : Chip) (n : Fin 4) : Prop :=
  ((c.printer n).state = .aligning ∧ c.prn n .alignTravel ≤ (c.feed n).travel) ∨
  ((c.printer n).state = .ejecting ∧ c.prn n .ejectTravel ≤ (c.feed n).travel) ∨
  (((c.feed n).mode = .forward ∨ (c.feed n).mode = .reverse) ∧ c.prn n .stallTime ≤ (c.feed n).stallMs)

/-- What a shutdown by the cause of `latch` leaves (R162, R147): a head message stops after the character in progress, and
an active COVER or OVC is latched beside the cause, as is a JAM or the end of the head's wait that has arisen and not yet been
taken (R161), each with a report of its own, the last with the whole latch. -/
structure Chip.ShutDown (c d : Chip) (n : Fin 4) (latch : Latch) : Prop where
  bridge : (d.feed n).mode = .safe ∧ (d.feed n).duty = 0
  latched : let l := (d.feed n).latch
    l.cover = (latch.cover || d.coverIn n) ∧ l.ovc = (latch.ovc || d.ovcIn n) ∧
    (l.jam = true ↔ latch.jam = true ∨ c.JamArisen n) ∧ (l.head = true ↔ latch.head = true ∨ (c.printer n).head = .awaiting 0) ∧
    l.bookPulled = latch.bookPulled ∧ l.forced = latch.forced
  levels : ¬ (d.feed n).aHi.engaged ∧ ¬ (d.feed n).bHi.engaged ∧ ((d.feed n).aLo.engaged ↔ c.prn n .safeA = 1) ∧
    ((d.feed n).bLo.engaged ↔ c.prn n .safeB = 1)
  report : c.su.reports.length < 16 → ∃ more : List Report,
    d.su.reports = c.su.reports ++ ⟨.printerHalted, n.val, latch.code, c.su.ms⟩ :: more ∧
    ((d.coverIn n = true → latch.cover = true) → (d.ovcIn n = true → latch.ovc = true) → (c.JamArisen n → latch.jam = true) →
      ((c.printer n).head = .awaiting 0 → latch.head = true) → more = []) ∧
    (c.su.reports.length ≤ 11 →
      d.su.reports.getLast? = some ⟨.printerHalted, n.val, (d.feed n).latch.code, c.su.ms⟩)
  printer : (d.printer n).state = .halted ∧ (d.printer n).bookPage = none ∧ (d.printer n).head = (c.printer n).head.ended ∧
    (d.printer n).pageTurn = (c.printer n).pageTurn
  idle : (c.printer n).service = none → (d.printer n).service = none ∧ (d.printer n).queue = (c.printer n).queue
  requeued : ∀ v, (c.printer n).service = some v → v.begun = false → (d.printer n).service = none ∧
    (d.printer n).queue = v.entry :: (c.printer n).queue ∧ d.slotStatus n v.entry.slot = .queued
  doubtful : ∀ v, (c.printer n).service = some v → v.begun = true → (d.printer n).queue = (c.printer n).queue ∧
    (d.printer n).service = some
      (if v.doneTaken = true ∨ v.stamp ≠ none then v else { v with stamp := some .doubtful })
  others : SameBut n c.pru.printers d.pru.printers ∧ SameBut n c.fd d.fd

/-- The commands that bring line `l` to look for a turn (R123). -/
def Chip.Turns (c : Chip) (i : Instr) (l : Fin 3) : Prop :=
  i = .lineTurn l ∨
  (∃ p, lineOf p = l ∧ (c.drop p).terminal = .attached ∧ c.setting .pollInterval ≤ (c.drop p).sinceExchange ∧
    i = .pollIntervalExpiry p) ∨
  ∃ p, lineOf p = l ∧ ((c.drop p).terminal = .detached ∨ (c.drop p).terminal = .lost) ∧ (c.drop p).attachIn = 0 ∧
    i = .attachAttemptDue p

/-- The commands that end the exchange of line `l` with drop `d` without a valid answer (R118, R120, R121, R125). -/
def Chip.Missed (c : Chip) (i : Instr) (l : Fin 3) (d : Fin 4) (f : LineFrame) : Prop :=
  ((c.line l).use = .awaiting d f 0 ∧ i = .replyTimeout l) ∨
  ∃ left, (c.line l).use = .awaiting d f left ∧
    (i = .answerPauseTimeout l ∨ (∃ bytes, readAnswer d bytes = .damaged ∧ i = .damagedAnswer l bytes) ∨
      (∃ o keys, (f.kind = .identReq ∨ 4 < keys.length) ∧ i = .terminalAck l o keys) ∨
      (f.kind = .identReq ∧ i = .terminalNak l) ∨
      ∃ col k r, f.kind ≠ .identReq ∧ i = .terminalIdent l col k r)

/-- SCU serves an entry, or its work list is empty or waits for a status row (R113). -/
def Chip.ScuSettled (c : Chip) : Prop :=
  c.scu.serving ≠ none ∨ c.scu.work = [] ∨ ∃ p rest, c.scu.work = .status p :: rest

/-- An output of a Feed Drive: 0 to 3 is A_HI, A_LO, B_HI, B_LO. -/
def Feed.output (f : Feed) (o : Fin 4) : Output :=
  match o with
  | 0 => f.aHi | 1 => f.aLo | 2 => f.bHi | _ => f.bLo

/-- At most one output of each pair of a Feed Drive is active or waits to be (R156). -/
def Feed.Exclusive (f : Feed) : Prop := ¬ (f.aHi.engaged ∧ f.aLo.engaged) ∧ ¬ (f.bHi.engaged ∧ f.bLo.engaged)

/-- No bridge pair has both outputs active, or one about to join the other. -/
def State.BridgesSafe (s : State) : Prop := ∀ n : Fin 4, (s.chip.feed n).Exclusive

/-- The commands that take a link out of CALLING or UP by its line (R177). -/
def Chip.LineLost (c : Chip) (i : Instr) (why : LinkCause) : Prop :=
  (i = .carrierChange false ∧ why = .carrier) ∨ (i = .receiveClockLoss ∧ why = .clock) ∨
  (i = .silenceTimerExpiry ∧ c.hlc.silenceTimer = some 0 ∧ why = .silence)

/-- The commands that fail a send, with the reason (R190, R191). -/
def Chip.Fails (c : Chip) (i : Instr) (x : Send) (why : FailReason) : Prop :=
  (i = .holdTimerExpiry ∧ x.holdTimer = some 0 ∧ why = .held) ∨
  (i = .resumeTimerExpiry ∧ x.resumeTimer = some 0 ∧ why = .link) ∨
  (i = .verdictTimerExpiry ∧ x.verdictTimer = some 0 ∧ why = .noVerdict) ∨
  (∃ r, i = .abort r ∧ c.hlc.link = .up ∧ why = .aborted) ∨
  ∃ r, i = .rejected r ∧ c.hlc.link = .up ∧ x.state ≠ .suspended ∧ why = .rejected

/-- The line errors of R180: bytes that make no valid frame, an ACK or NAK that names no frame outstanding or recently
acknowledged, an ACCEPTED with no send awaiting its verdict. -/
def Chip.LineError (c : Chip) (i : Instr) : Prop :=
  (∃ bytes, bytes ≠ [] ∧ (∀ b ∈ bytes, b ≠ 0x7E) ∧ readHoFrame bytes = .invalid ∧ i = .invalidFrame bytes) ∨
  (∃ n : Fin 256, (∀ x, c.hlc.send = some x → (∀ o ∈ x.out, o.link ≠ n.val) ∧ n.val ∉ x.recent) ∧ (i = .ack n ∨ i = .nak n)) ∨
  ∃ batch, (∀ x, c.hlc.send = some x → x.state ≠ .awaitVerdict) ∧ i = .accepted batch

/-! ### Invariants -/

/-- The own accesses under way and waiting, by what their unit does with the answer. -/
def State.tags (s : State) : List Tag :=
  (match s.arb.port with | .own _ _ tag _ => [tag] | _ => []) ++ s.chip.own.toList.flatMap (·.map (·.tag))

/-- The host access in progress is held for an operation (R12). -/
def Chip.holds (c : Chip) (h : HoldOp) : Prop := ∃ p, c.ap.host = some p ∧ p.phase = .heldOwner h

/-- One hold at a time (R12): a posting, a submission and a request in progress are the operation the host's access is held
for; a posting is under way only in READY and with the day not frozen (R56, R170), a walk only in REBUILDING (R91), a send
only while the day is SENDING (R171, R192); in LOADING the host is held (R13). -/
structure State.OneHold (s : State) : Prop where
  posting : s.chip.ju.posting ≠ none →
    (∃ x, s.chip.holds (.commit x)) ∧ s.chip.su.unitState = .ready ∧ s.chip.cu.day.state.frozen = false
  submission : s.chip.pru.submission ≠ none → ∃ n x, s.chip.holds (.submit n x)
  request : s.chip.su.request ≠ none → ∃ code, s.chip.holds (.request code)
  walk : s.chip.cu.walk ≠ none → s.chip.su.unitState = .rebuilding
  send : s.chip.hlc.send ≠ none → s.chip.su.unitState = .ready ∧ s.chip.cu.day.state = .sending
  loading : s.chip.su.unitState = .loading → s.chip.ap.held = true ∧ ∀ p, s.chip.ap.host = some p → p.phase = .heldLoading
  released : .loadingState ∈ s.tags → s.chip.su.unitState ≠ .loading
  operands : ∀ code, .operands code ∈ s.tags → s.chip.su.unitState = .ready ∨ code ∈ [9, 10, 11]

/-- With the day frozen every drawer is UNUSED or BALANCED and the RESERVE BALANCED (R168, R95). -/
def Chip.Settled (c : Chip) : Prop :=
  (c.su.unitState = .ready ∨ ∃ w, c.cu.walk = some w ∧ w.phase = .finishing) → c.cu.day.state.frozen = true →
    (c.drawer 12).state = .balanced ∧
    ∀ p : Fin 12, (c.drawerOf p).state = .unused ∨ (c.drawerOf p).state = .balanced

/-- A sum is at most 999,999,999,999, and SATURATED exactly there (R44, R45). -/
def Sum.InRange (x : Sum) : Prop := x.value ≤ 999999999999 ∧ (x.saturated = true ↔ x.value = 999999999999)

/-- The sums, the hash total and the branch difference total stand in their ranges (R44 to R47). -/
structure State.CashInRange (s : State) : Prop where
  drawers : ∀ i : Fin 13, ∀ x ∈ [(s.chip.drawer i).cashIn, (s.chip.drawer i).cashOut, (s.chip.drawer i).noncashIn,
    (s.chip.drawer i).noncashOut, (s.chip.drawer i).transferIn, (s.chip.drawer i).transferOut], x.InRange
  day : ∀ x ∈ [s.chip.cu.day.cashIn, s.chip.cu.day.cashOut, s.chip.cu.day.noncashIn, s.chip.cu.day.noncashOut], x.InRange
  hash : s.chip.cu.day.hash < 1000000000000
  difference : -999999999999 ≤ s.chip.cu.day.differenceTotal ∧ s.chip.cu.day.differenceTotal ≤ 999999999999

/-- Whether an own access is one of the posting's, CU's last write of its change among them. -/
def Tag.ofPosting : Tag → Bool
  | .post _ => true
  | .mirror _ _ k => k == .posting
  | .running _ k => k == .posting
  | .anchor _ k => k == .posting
  | .dayCrc k => k == .posting
  | _ => false

/-- The record is one that checks 17 and 18 have passed: applied, it makes no count exceed 65,535 (R41). -/
def Chip.Fits (c : Chip) (r : JRecord) : Prop :=
  ∀ k, recordKindOfCode r.code = some k → limitCheck c.cu k r = none ∧ ∀ d : Fin 10, countAt r.counts d ≤ 65535

/-- Every count is at most 65,535 (R38, R41), and the record of a posting that has passed its checks keeps it so: one access
of the posting is under way or waits at a time, none while it waits to start or to be applied. -/
structure State.CountsBounded (s : State) : Prop extends s.OneHold where
  counts : ∀ (i : Fin 13) (d : Fin 10), countAt (s.chip.drawer i).counts d ≤ 65535
  declared : ∀ (i : Fin 13) (x : Declared), (s.chip.drawer i).declared = some x → ∀ d : Fin 10, countAt x.counts d ≤ 65535
  one : (s.tags.filter Tag.ofPosting).length ≤ 1
  calm : (∀ po, s.chip.ju.posting = some po → po.phase = .waiting ∨ po.phase = .handed) → s.tags.filter Tag.ofPosting = []
  running : ∀ po, s.chip.ju.posting = some po → po.phase = .running → ∀ tag ∈ s.tags, tag.ofPosting = true →
    ∃ st, tag = .post st ∧ (st ∉ [.readA, .readB, .origA, .origB, .refused] → s.chip.Fits po.record)
  handed : ∀ po, s.chip.ju.posting = some po → po.phase = .handed → s.chip.Fits po.record
  applying : ∀ po, s.chip.ju.posting = some po → po.phase = .applying → ∀ st, .post st ∈ s.tags → st = .word0 ∨ st = .outcome

/-- Whether an own access is one of the submission's, JU's record read for it among them. -/
def Tag.ofSubmission : Tag → Bool
  | .subRead => true
  | .subQueued => true
  | .subRefused => true
  | .recordA who _ => who == .submission
  | .recordB who _ _ => who == .submission
  | .originalA who _ _ => who == .submission
  | .originalB who _ _ _ => who == .submission
  | _ => false

/-- The sequence numbers of the print requests that are QUEUED or PRINTING (R139). -/
def Chip.pendingSeqs (c : Chip) : List Nat :=
  c.pru.printers.toList.flatMap fun p => p.queue.map (·.seq) ++ (p.service.map (·.entry.seq)).toList

/-- No sequence number is in two pending print requests (R137), and none is pending with the day frozen (R168, R170): a
submission that has been accepted names a number that is not pending, and the day is OPEN. -/
structure State.PrintsDistinct (s : State) : Prop extends s.OneHold where
  distinct : s.chip.pendingSeqs.Nodup
  frozen : s.chip.cu.day.state.frozen = true ∨ s.chip.su.unitState = .loading → s.chip.pendingSeqs = []
  one : (s.tags.filter Tag.ofSubmission).length ≤ 1
  calm : (∀ b, s.chip.pru.submission = some b → b.waiting = true) → s.tags.filter Tag.ofSubmission = []
  accepted : ∀ b, s.chip.pru.submission = some b → ∀ tag ∈ s.tags, tag.ofSubmission = true → tag ≠ .subRead → tag ≠ .subRefused →
    s.chip.cu.day.state = .dayOpen ∧ (tag = .subQueued → b.entry.seq ∉ s.chip.pendingSeqs)

/-- The outstanding list holds the frames from the acknowledged count to the next index, in order, with their link numbers,
and at most LINK_WINDOW of them (R186, R187); the resend point names one of them (R188), and at most four link numbers
are remembered as acknowledged (R180). LINK_WINDOW stands while there is a send (R22). -/
structure State.SendOrdered (s : State) : Prop extends s.OneHold where
  indices : ∀ x, s.chip.hlc.send = some x → x.acked + x.out.length = x.next ∧ x.next ≤ x.total ∧
    ∀ k o, x.out[k]? = some o → o.index = x.acked + k ∧ o.link = o.index % 256
  window : ∀ x, s.chip.hlc.send = some x → x.out.length ≤ s.chip.linkSet .window
  resend : ∀ x i, s.chip.hlc.send = some x → x.resend = some i → x.acked ≤ i ∧ i < x.next
  recent : ∀ x, s.chip.hlc.send = some x → x.recent.length ≤ 4
  setting : ∀ p v e b, s.chip.ap.host = some p → p.phase = .waiting (.word v e b) → p.window = some .setup →
    p.addr - p.base = 0x580 → s.chip.hlc.send = none

/-- The frame a line has in hand. -/
def LineUse.frame : LineUse → Option (Fin 4 × LineFrame)
  | .gap d f => some (d, f)
  | .sending d f _ _ => some (d, f)
  | .awaiting d f _ => some (d, f)
  | _ => none

/-- DRWREL_p is active only while the unit is READY, the day and the drawer are OPEN, the terminal is ATTACHED and the
screen is not BLANKED (R131, R132); an IDENT_REQ goes only to a terminal that is not ATTACHED, and is never resent
(R124, R125). -/
structure State.ReleasesGated (s : State) : Prop extends s.OneHold where
  active : ∀ p : Fin 12, s.chip.drwrel p = true → s.chip.su.unitState = .ready ∧ s.chip.cu.day.state = .dayOpen ∧
    (s.chip.drawerOf p).state = .drawerOpen ∧ (s.chip.drop p).terminal = .attached ∧ (s.chip.screen p).mode.kind ≠ .blanked
  asking : ∀ (l : Fin 3) (d : Fin 4) (f : LineFrame), (s.chip.line l).use.frame = some (d, f) → f.kind = .identReq →
    (s.chip.drop (posOf l d)).terminal ≠ .attached
  resent : ∀ (p : Fin 12) (f : LineFrame), (s.chip.drop p).resend = some f → f.kind ≠ .identReq

end Sys2Proof.Machine
end

