-- ==== Sys2Proof/Certificates/Slice0/Obligations.lean ====
section
/-! DEFINITION. The statements for the provers. Each command is run with a store that answers by STORE_ANSWER
(`prompt = false`); PromptStoreDrains carries every one of them to a store that answers at once. `Completes i s P` says
that `exec i s` answers a next state of which `P` holds. A clause that says that nothing changes where a command's condition
does not hold is the model's choice (log 28), and so is that a timer runs by ticks (log 1). -/

open Sys2Proof Sys2Proof.Machine

/-! ### The step and reset -/

/-- A step runs the command at the front of the queue with the queue's rest. The queue is the model's (log 1). -/
def Obligations.StepTakesFront : Prop :=
  ∀ (s : State) (i : Instr) (rest : List Instr), s.pending = i :: rest → step s = exec i { s with pending := rest }

/-- On an empty queue a step is a CLK period (log 1's choice): a frame being sent, a head message and the prescale of a Feed
Drive move on by one, a line with no byte on it is quiet for one more. Every 24,000th also makes a millisecond (R30), by which
every timer moves: the idle, flash, open-too-long and pulse times, the time since an exchange and to the next attempt, the reply
time, the head's wait, the stall timer and the timers of the link and the send. With the store not prompt it leaves the store,
the arbiter and the queue, and the units without a clock. -/
def Obligations.IdleStepIsTick : Prop :=
  ∀ s : State, s.pending = [] → s.prompt = false → ∃ t : State, step s = .next t ∧
    s.Only [.su, .scu, .slc, .pru, .fd, .hlc] t ∧
    (∀ l : Fin 3, let a := s.chip.line l
      let b := t.chip.line l
      b.pointer = a.pointer ∧ b.keys = a.keys ∧ b.rate = a.rate ∧ b.gap = a.gap ∧
      (∀ d f left reply, a.use = .sending d f left reply → b.use = .sending d f (left - 1) reply ∧ b.quiet = a.quiet) ∧
      (∀ byte bit left, a.use = .stopping byte bit (left + 2) → b.use = .stopping byte bit (left + 1)) ∧
      (∀ byte bit left, a.use = .stopping byte bit left → left ≤ 1 → b.use = .free ∧ b.quiet = 0) ∧
      (∀ d f, a.use = .free ∨ a.use = .gap d f → b.use = a.use ∧ b.quiet = a.quiet + 1)) ∧
    (∀ n : Fin 4, let a := s.chip.printer n
      let b := t.chip.printer n
      b.state = a.state ∧ b.queue = a.queue ∧ b.service = a.service ∧
      (∀ m left, a.head = .sending m left → b.head = .sending m (left - 1)) ∧
      (∀ char left, a.head = .stopping char left → b.head = if left ≤ 1 then .idle else .stopping char (left - 1))) ∧
    (∀ n : Fin 4, let a := s.chip.feed n
      let b := t.chip.feed n
      b.mode = a.mode ∧ b.duty = a.duty ∧ b.position = a.position ∧ b.travel = a.travel ∧ b.latch = a.latch ∧
      (a.stepClk + 1 < s.chip.prn n .pwmPrescale → b.stepClk = a.stepClk + 1 ∧ b.step = a.step ∧
        ∀ o : Fin 4, b.output o = a.output o) ∧
      (s.chip.prn n .pwmPrescale ≤ a.stepClk + 1 → b.stepClk = 0 ∧
        b.step = min (4 * (s.chip.prn n .pwmPeriod + 1)) (a.step + 1) ∧
        ∀ o : Fin 4, (b.output o).active = (a.output o).active ∧ (b.output o).wait = (a.output o).wait.map (· - 1))) ∧
    (s.chip.su.clk + 1 < 24000 → t.chip.su = { s.chip.su with clk := s.chip.su.clk + 1 } ∧ t.chip.scu = s.chip.scu ∧
      t.chip.slc.drops = s.chip.slc.drops ∧ t.chip.hlc = s.chip.hlc ∧
      ∀ n : Fin 4, (t.chip.feed n).stallMs = (s.chip.feed n).stallMs) ∧
    (24000 ≤ s.chip.su.clk + 1 →
      t.chip.su = { s.chip.su with clk := 0, ms := (s.chip.su.ms + 1) % 4294967296 } ∧
      (∀ p : Fin 12, let a := s.chip.screen p
        t.chip.screen p = { a with idleMs := a.idleMs + 1, flashMs := if a.attention = true then a.flashMs + 1 else a.flashMs }) ∧
      (∀ p : Fin 12, let a := s.chip.drop p
        t.chip.drop p = { a with
          sinceExchange := a.sinceExchange + 1, attachIn := a.attachIn - 1, openTimer := a.openTimer.map (· - 1),
          pulse := a.pulse.map (· - 1) }) ∧
      (∀ l d f left, (s.chip.line l).use = .awaiting d f left → (t.chip.line l).use = .awaiting d f (left - 1)) ∧
      (∀ n left, (s.chip.printer n).head = .awaiting left → (t.chip.printer n).head = .awaiting (left - 1)) ∧
      (∀ n : Fin 4, let a := s.chip.feed n
        (t.chip.feed n).stallMs = if a.mode = .forward ∨ a.mode = .reverse then a.stallMs + 1 else a.stallMs) ∧
      t.chip.hlc = { s.chip.hlc with
        helloTimer := s.chip.hlc.helloTimer.map (· - 1), keepaliveTimer := s.chip.hlc.keepaliveTimer.map (· - 1)
        silenceTimer := s.chip.hlc.silenceTimer.map (· - 1)
        send := s.chip.hlc.send.map fun x => { x with
          ackTimer := x.ackTimer.map (· - 1), holdTimer := x.holdTimer.map (· - 1)
          resumeTimer := x.resumeTimer.map (· - 1), verdictTimer := x.verdictTimer.map (· - 1) } })

/-- Right after device reset: the window table, the arbiter (R18), the unit state (R26), JU (R57), the drawer records (Table
5-10), the screens (Table 6-7), the lines and drops (Table 7-5), the printers (Table 8-7), the feed drives (Table 9-8) and the
link (Table 11-6). Every invariant stated below holds there. -/
def Obligations.ResetValues : Prop :=
  let c := State.reset.chip
  (∀ w : Fin 6, c.placement w = ⟨0xFFFFF, 0⟩) ∧ c.ap.journalUsable = false ∧ c.ap.held = true ∧ c.ap.host = none ∧
  State.reset.arb = { rotation := 8, streak := 0, port := .idle } ∧
  c.su.unitState = .loading ∧ c.su.reports = [] ∧ c.su.overflow = false ∧ c.su.ms = 0 ∧
  c.ju.posting = none ∧ c.ju.stamps = [] ∧ c.ju.unstamped = [] ∧ c.ju.overflowMark = false ∧
  (∀ i : Fin 13, (c.drawer i).state = .unused ∧ (c.drawer i).excess = false ∧ (c.drawer i).declared = none ∧
    (∀ d : Fin 10, countAt (c.drawer i).counts d = 0)) ∧
  (∀ p : Fin 12, (c.screen p).mode = ⟨.normal, 0, 23⟩ ∧ (∀ r : Fin 25, hasRow (c.screen p).dirty r = true) ∧
    (c.screen p).sweepCount = 0 ∧ (c.screen p).rendering = none) ∧
  (∀ p : Fin 12, (c.drop p).terminal = .detached ∧ (c.drop p).sensor = .unknown ∧ c.drwrel p = false) ∧
  (∀ l : Fin 3, (c.line l).pointer = 3 ∧ (c.line l).use = .free) ∧
  (∀ n : Fin 4, (c.printer n).state = .empty ∧ (c.printer n).queue = [] ∧ (c.printer n).service = none ∧
    (c.printer n).bookPage = none ∧ (c.feed n).mode = .off ∧ (c.feed n).position = 0 ∧ (c.feed n).duty = 0 ∧
    (c.feed n).latch = .empty) ∧
  c.hlc.link = .down ∧ c.hlc.errors = 0 ∧ c.hlc.send = none ∧
  State.reset.Safe ∧ State.reset.BridgesSafe ∧ State.reset.OneHold ∧ c.Settled ∧ State.reset.CashInRange ∧
  State.reset.CountsBounded ∧ State.reset.PrintsDistinct ∧ State.reset.SendOrdered ∧ State.reset.ReleasesGated

/-! ### Invariants of every step

Each is kept from every state that has it, by every command and by the tick, with a prompt store and without. -/

/-- Every step keeps the store canonical and the streak at most 4. -/
def Obligations.StepKeepsSafe : Prop := ∀ s t : State, s.Safe → step s = .next t → t.Safe

/-- One hold at a time (R12): every step keeps that a posting, a submission and a request in progress are the operation the
host's access is held for, that a posting is under way only in READY with the day not frozen, a walk only in REBUILDING and a
send only with the day SENDING. -/
def Obligations.StepKeepsOneHold : Prop := ∀ s t : State, s.OneHold → step s = .next t → t.OneHold

/-- A frozen day stands (R168, R170, R95): every step keeps that in a CLOSED, SENDING or SENT day every drawer is UNUSED or
BALANCED and the RESERVE BALANCED, and in READY a step from one such day state to another changes no drawer record. -/
def Obligations.FrozenDayStands : Prop :=
  (∀ s t : State, s.OneHold → s.chip.Settled → step s = .next t → t.chip.Settled) ∧
  ∀ s t : State, s.OneHold → s.chip.su.unitState = .ready → s.chip.cu.day.state.frozen = true → step s = .next t →
    t.chip.cu.day.state.frozen = true → t.chip.cu.drawers = s.chip.cu.drawers

/-- Every step keeps the sums within 999,999,999,999 and marked SATURATED exactly there, the hash total and the difference total
in their ranges (R44 to R47), and every count at most 65,535 (R38, R41). -/
def Obligations.CashStaysBounded : Prop :=
  (∀ s t : State, s.CashInRange → step s = .next t → t.CashInRange) ∧
  ∀ s t : State, s.CountsBounded → step s = .next t → t.CountsBounded

/-- No record is in two pending print requests, and none is pending with the day frozen: kept by every step (R137, R168,
R170). -/
def Obligations.PrintsStayDistinct : Prop := ∀ s t : State, s.PrintsDistinct → step s = .next t → t.PrintsDistinct

/-- The outstanding list of a send stays in order, from the acknowledged count to the next frame, and never longer than
LINK_WINDOW: kept by every step (R186, R187, R188, R191). -/
def Obligations.SendsStayOrdered : Prop := ∀ s t : State, s.SendOrdered → step s = .next t → t.SendOrdered

/-- A drawer is released only while the day and the drawer are OPEN, the terminal is ATTACHED and the screen is not BLANKED:
kept by every step (R131, R132). -/
def Obligations.ReleasesStayGated : Prop := ∀ s t : State, s.ReleasesGated → step s = .next t → t.ReleasesGated

/-- HI and LO of one bridge pair are never active together (R156): every step keeps, for the four Feed Drives, that at most one
output of a pair is active or waiting to be. -/
def Obligations.BridgesNeverShort : Prop := ∀ s t : State, s.BridgesSafe → step s = .next t → t.BridgesSafe

/-! ### The store, formats and arithmetic -/

/-- A store that answers at once (log 5, the model's): a command of the part acts as it does with the store held off, on the
state with its waiting accesses made, and then the accesses it asked for are made. With the store held off, no command but
DEVICE_RESET and the two of the store port touches the store: every byte, the arbiter and the queue stay as they are. -/
def Obligations.PromptStoreDrains : Prop :=
  ∀ (s : State) (i : Instr), i ≠ .arbiterGrant → (∀ b, i ≠ .storeAnswer b) → (∀ x, i ≠ .deviceReset x) →
    (s.prompt = true → ∃ t : State, exec i { s.settle with prompt := false } = .next t ∧
      exec i s = .next ({ t with prompt := true }.settle)) ∧
    (s.prompt = false → ∃ t : State, exec i s = .next t ∧ s.KeepsStore t)

/-- What is written is read. A burst of whole words reads back as written, and every byte outside it reads as before (R4, R7). A
journal record read from the words it is written as is that record (Table 12-6). What stands between two flags of the
head-office line, escaped as R198 says, is read as the frame sent, for every kind, link number and payload of up to 240 bytes,
no escaped frame holds a flag, and bytes received are cut into frames at the flags. A terminal's answer with a drop's address is
read as the answer its type and payload make, and one with another drop's address is damaged (R118). -/
def Obligations.FormatsReadBack : Prop :=
  (∀ (m : List Host.Cell) (a : Nat) (ws : List Word), memWf m = true → ws.length ≤ 8 →
    readWords (writeWords m a (ws.map whole)) a 4 ws.length = ws ∧
    ∀ b : Nat, (∀ k < 4 * ws.length, b ≠ wrapAddr (a + k)) → readByte (writeWords m a (ws.map whole)) b = readByte m b) ∧
  (∀ r : JRecord, r.seq < 2 ^ 32 → r.code < 2 ^ 8 → r.position < 2 ^ 4 → r.target < 2 ^ 16 → r.amount < 2 ^ 64 →
    r.reference < 2 ^ 32 → r.account < 2 ^ 32 → (∀ d : Fin 10, countAt r.counts d < 2 ^ 16) → r.original = none →
    r.words.length = 11 ∧ recordOfWords r.words = r) ∧
  (∀ (kind link : Nat) (payload : List Byte), kind < 256 → link < 256 → payload.length ≤ 240 →
    readHoFrame (stuff (hoFrame kind link none payload)) = hoFrameOf kind link payload ∧
    ∀ b ∈ stuff (hoFrame kind link none payload), b ≠ 0x7E) ∧
  (∀ a b : List Byte, (∀ x ∈ a, x ≠ 0x7E) → cutFlags a = [a] ∧ cutFlags (a ++ 0x7E :: b) = a :: cutFlags b) ∧
  ∀ (d e : Fin 4) (type : Nat) (payload : List Byte), type < 256 → payload.length < 256 →
    readAnswer d (lineBytes e.val type payload) = if d = e then answerOf type payload else .damaged

/-- Table 2-2, row by row: the value in force of every setting for every value written, and that a value brought into range
stays as it is. JNL_CAPACITY and CEILING_p as R23 brings them into range, the capacity lowered to the fit of an enabled
window. -/
def Obligations.SettingRanges : Prop :=
  (∀ v w b, (Setting.placement w b).clamp v = min v 0xFFFFF) ∧
  (∀ base limit v, clampCapacity base limit v = if base ≤ limit
    then min (max 1024 (min 65536 (v / 64 * 64))) ((((limit - base + 1) * 4096 - 1024) / 48) / 64 * 64)
    else max 1024 (min 65536 (v / 64 * 64))) ∧
  (∀ v, clampCeiling v = min v 999999999999) ∧
  (∀ v, Setting.decimals.clamp v = if v = 0 then 0 else if v ≤ 2 then 2 else 3) ∧
  (∀ v, Setting.separators.clamp v = if v ≤ 3 then v else 0) ∧ (∀ v d, (Setting.face d).clamp v = min v 1000000) ∧
  (∀ v, Setting.branchNo.clamp v = min v 999999) ∧
  (∀ v, Setting.idleBlank.clamp v = if v = 0 then 0 else max 10 (min v 3600)) ∧
  (∀ v, Setting.releaseTime.clamp v = max 50 (min v 2000)) ∧
  (∀ v, Setting.openLong.clamp v = if v = 0 then 0 else max 10 (min v 600)) ∧
  (∀ v, Setting.bcstSet.clamp v = v % 4096) ∧ (∀ v, Setting.bcstRow.clamp v = min v 23) ∧
  (∀ v p, (Setting.scanDir p).clamp v = if v = 1 then 1 else 0) ∧
  (∀ v p, (Setting.capOverride p).clamp v = if v = 1 then 1 else 0) ∧
  (∀ v p, (Setting.colour p).clamp v = if v = 0 then 0 else 1) ∧
  (∀ v p, (Setting.remoteRelease p).clamp v = if v = 1 then 1 else 0) ∧
  (∀ v l, (Setting.lineRate l).clamp v = if v = 19200 ∨ v = 76800 ∨ v = 153600 then v else 38400) ∧
  (∀ v l, (Setting.lineGap l).clamp v = max 2 (min v 32)) ∧ (∀ v l, (Setting.replyTime l).clamp v = max 5 (min v 255)) ∧
  (∀ v, Setting.pollInterval.clamp v = max 20 (min v 1000)) ∧
  (∀ v n, ∀ k ∈ [PrnSetting.present, .safeA, .safeB, .autoRestart], (Setting.printer n k).clamp v = if v = 1 then 1 else 0) ∧
  (∀ v n, (Setting.printer n .linesPerPage).clamp v = max 12 (min v 30)) ∧
  (∀ v n, (Setting.printer n .pitch).clamp v = max 2 (min v 255)) ∧
  (∀ v n, (Setting.printer n .topMargin).clamp v = min v 4095) ∧ (∀ v n, (Setting.printer n .amountCol).clamp v = min v 47) ∧
  (∀ v n, ∀ k ∈ [PrnSetting.encPrescale, .pwmPrescale], (Setting.printer n k).clamp v = if v = 1 ∨ v = 4 then v else 16) ∧
  (∀ v n, ∀ k ∈ [PrnSetting.pwmPeriod, .approachDist], (Setting.printer n k).clamp v = max 1 (min v 255)) ∧
  (∀ v n, ∀ k ∈ [PrnSetting.runDuty, .approachDuty], (Setting.printer n k).clamp v = min v 1023) ∧
  (∀ v n, (Setting.printer n .rampStep).clamp v = max 1 (min v 64)) ∧ (∀ v n, (Setting.printer n .deadBand).clamp v = min v 127) ∧
  (∀ v n, (Setting.printer n .stallTime).clamp v = max 10 (min v 1000)) ∧
  (∀ v n, ∀ k ∈ [PrnSetting.alignTravel, .ejectTravel], (Setting.printer n k).clamp v = max 100 (min v 4095)) ∧
  (∀ v n, (Setting.printer n .headTimeout).clamp v = max 100 (min v 5000)) ∧
  (∀ v n, (Setting.printer n .outPolarity).clamp v = if v ≤ 15 then v else 0) ∧
  (∀ v, (Setting.link .window).clamp v = max 1 (min v 4)) ∧ (∀ v, (Setting.link .ackTime).clamp v = max 1 (min v 60)) ∧
  (∀ v, ∀ k ∈ [LinkSetting.frameRetries, .errThreshold], (Setting.link k).clamp v = max 1 (min v 15)) ∧
  (∀ v, (Setting.link .helloTime).clamp v = max 1 (min v 10)) ∧ (∀ v, (Setting.link .keepalive).clamp v = max 5 (min v 120)) ∧
  (∀ v, (Setting.link .resumeTime).clamp v = max 1 (min v 30)) ∧ (∀ v, (Setting.link .verdictTime).clamp v = max 10 (min v 600)) ∧
  ∀ (k : Setting) (v : Nat), k.clamp (k.clamp v) = k.clamp v

/-- The Amount Formatter (R48 to R50), digit by digit: the decimal digits of the integer part, the group character before every
third from the right, the decimal mark and exactly k fraction digits, at the right of 16 characters with a sign column after
them. The passbook's amount column has the sign of R51, none for 0 (R48); the line is the host's 64 characters with the column
replaced (R143), and the STRIKE message is 0x02, the line and its CRC-16 (R144), least significant byte first, as R197 sends a
field of a message. -/
def Obligations.AmountsRendered : Prop :=
  let digit (n : Nat) : Byte := BitVec.ofNat 8 (48 + n % 10)
  (∀ m : Nat, m ≤ 999999999999 → amountText 0 3 m = if m < 10 then [digit m] else amountText 0 3 (m / 10) ++ [digit m]) ∧
  (∀ m sep : Nat, ∀ g : Byte, m ≤ 999999999999 → (sep = 0 ∧ g = 0x2C) ∨ (sep = 1 ∧ g = 0x2E) ∨ (sep = 2 ∧ g = 0x20) →
    amountText 0 sep m = if m < 1000 then amountText 0 3 m
      else amountText 0 sep (m / 1000) ++ [g, digit (m / 100), digit (m / 10), digit m]) ∧
  (∀ m sep : Nat, sep ≤ 3 → let mark : Byte := if sep = 1 ∨ sep = 2 then 0x2C else 0x2E
    amountText 2 sep m = amountText 0 sep (m / 100) ++ [mark, digit (m / 10), digit m] ∧
    amountText 3 sep m = amountText 0 sep (m / 1000) ++ [mark, digit (m / 100), digit (m / 10), digit m]) ∧
  (∀ k ∈ [0, 2, 3], ∀ (sep m : Nat) (minus : Bool), sep ≤ 3 → m ≤ 999999999999 → (amountText k sep m).length ≤ 16 ∧
    amountField k sep m minus = List.replicate (16 - (amountText k sep m).length) 0x20 ++ amountText k sep m
      ++ [if minus = true then 0x2D else 0x20]) ∧
  (∀ (c : Chip) (r : JRecord) (k : RecordKind), recordKindOfCode r.code = some k →
    c.amountColumn r = amountField (c.setting .decimals) (c.setting .separators) r.amount
      (decide (r.amount ≠ 0 ∧ (k = .cashOut ∨ k = .noncashOut ∨
        (k = .void ∧ r.original ≠ some .cashOut ∧ r.original ≠ some .noncashOut))))) ∧
  (∀ (c : Chip) (n : Fin 4) (r : JRecord) (x : Nat), c.setting .decimals ∈ [0, 2, 3] → c.setting .separators ≤ 3 →
    r.amount ≤ 999999999999 → (c.printer n).text.length = 16 → c.prn n .amountCol ≤ 47 → x < 64 →
    let col := c.prn n .amountCol
    (c.composeLine n r)[x]? = (if col ≤ x ∧ x ≤ col + 16 then (c.amountColumn r)[x - col]?
      else (wordsBytes (c.printer n).text)[x]?) ∧ (c.composeLine n r).length = 64) ∧
  ∀ line : List Byte, strikeMessage line =
    [0x02] ++ line ++ [BitVec.ofNat 8 (crc16 line), BitVec.ofNat 8 (crc16 line / 256)]

/-! ### Ports -/

/-- DEVICE_RESET: every unit in its reset state with the loading accesses asked for and the host held, the straps sampled (R1,
R13, R26), the arbiter reset (R18), and the store as it was but for the words of a write in progress (R13; which of them are
made is free, log 12). -/
def Obligations.DeviceResets : Prop :=
  ∀ (s : State) (sel : Fin 16), s.prompt = false → Completes (.deviceReset sel) s fun t =>
    t.chip = .afterReset { s.chip.pins with setupSel := sel } (s.chip.free + 1) ∧ t.arb = .reset ∧
    t.chip.ap.setupPage = 4096 * sel.val ∧ t.chip.su.unitState = .loading ∧ t.chip.ap.host = none ∧ t.chip.ap.held = true ∧
    (∀ u : Fin 9, t.chip.own[u.val] = if u = rSU then loadingAccesses (16777216 * sel.val) else []) ∧
    t.prompt = s.prompt ∧ t.pending = s.pending ∧
    ∀ b : Nat, (∀ addr ws, s.arb.port.writing = some (addr, ws) → ∀ k < 4 * ws.length, b ≠ wrapAddr (addr + k)) →
      readByte t.mem b = readByte s.mem b

/-- LOADING_END, once the loading reads are complete. The outcome, by the first case of R27 that applies (a day state that names
none counts with the day record's CRC; of a CRC word bits 15 to 0 are compared, log 30). LOADED: every setting is the value of
its word brought into range, the capacity by the fit of the loaded placement, a ceiling by its two words; a word that differs is
written back, and a CRC rewrite asked for; the day record is the anchor part as read, its running part 0 and its next number the
first (R27; a failure reason that names none is NONE, log 20). Otherwise every setting has its default, the unassigned words are
0, the whole area is written, and the day is NO_DAY with the numbers 1 (R28). The window table and the usable mark are taken
from the settings (R2, R3; log 21 for the mark), the report ring is empty, RESET and SETUP_DEFAULTED are reported, the result
area is NONE (log 62 for its other words) and the part READY in NO_DAY, JU having the next number, or REBUILDING otherwise, the
walk at the first number (R29, R57, R91); before the reads are complete, nothing (log 28, the model's choice). The host stays
held until SU's write of the unit state word is answered: then the access held is decoded (R13, R29). -/
def Obligations.LoadingEnds : Prop :=
  (∀ s : State, s.prompt = false → s.chip.loadingComplete = false → exec .loadingEnd s = .next s) ∧
  (∀ s : State, s.prompt = false → s.chip.loadingComplete = true →
    Completes .loadingEnd s fun t =>
      let l := s.chip.su.load
      let ws := l.settings
      let dw := l.day
      let word (k : Setting) : Nat := (wordAt ws k.index).toNat
      let o : StartOutcome := if l.failed = true then .defaultedRead
        else if crc16 (wordsBytes (ws.take 255)) ≠ field (wordAt ws 255) 0 16 then .defaultedSettings
        else if crc16 (wordsBytes (dw.take 31)) ≠ field (wordAt dw 31) 0 16 ∨ 4 < (wordAt dw 0).toNat then .defaultedDay
        else .loaded
      let d := t.chip.cu.day
      let asked : List OwnReq := t.chip.own[rSU.val]
      t.chip.su.outcome = some o ∧
      (o = .loaded →
        (∀ k : Setting, k ≠ .jnlCapacity → (∀ p b, k ≠ .ceiling p b) → t.chip.setting k = k.clamp (word k)) ∧
        (let c := max 1024 (min 65536 (word .jnlCapacity / 64 * 64))
         let base := min (word (.placement 0 false)) 0xFFFFF
         let limit := min (word (.placement 0 true)) 0xFFFFF
         t.chip.capacity = if base ≤ limit then min c (journalFit base limit) else c) ∧
        (∀ p : Fin 12,
          t.chip.ceilingOf p = min (word (.ceiling p false) + 4294967296 * word (.ceiling p true)) 999999999999) ∧
        (∀ i : Fin 255, settingAtOffset (0x200 + 4 * i.val) = none → t.chip.su.image[i.val] = wordAt ws i.val) ∧
        (∀ i : Fin 255, t.chip.su.image[i.val] ≠ wordAt ws i.val →
          ⟨.settingWords i.val 1, .plain, false⟩ ∈ asked ∧ ⟨.settingsCrc, .plain, false⟩ ∈ asked) ∧
        d.state.code = (wordAt dw 0).toNat ∧ d.date = (wordAt dw 1).toNat ∧ d.previousDate = (wordAt dw 2).toNat ∧
        d.first = (wordAt dw 3).toNat ∧ d.next = d.first ∧ d.recordCount = 0 ∧ d.hash = 0 ∧ d.differenceTotal = 0 ∧
        (∀ x ∈ [d.cashIn, d.cashOut, d.noncashIn, d.noncashOut], x = .zero) ∧
        (∀ x : Fin 10, countAt d.openCounts x = field (wordAt dw (4 + x.val / 2)) (16 * (x.val % 2)) 16 ∧
          countAt d.closingCounts x = (wordAt dw (9 + x.val)).toNat) ∧
        d.damaged = (flagAt (wordAt dw 19) 0 || (d.state != .noDay && !t.chip.ap.journalUsable)) ∧
        d.openingDiff = flagAt (wordAt dw 19) 1 ∧ d.batch = (wordAt dw 20).toNat ∧
        d.failure.code = if (wordAt dw 21).toNat ≤ 8 then (wordAt dw 21).toNat else 0) ∧
      (o ≠ .loaded →
        (∀ w : Fin 6, t.chip.placementSet w = ⟨0xFFFFF, 0⟩) ∧ (∀ x : Fin 10, t.chip.setting (.face x) = 0) ∧
        (∀ e ∈ [(Setting.jnlCapacity, 16384), (.decimals, 2), (.separators, 0), (.branchNo, 0), (.idleBlank, 300), (.releaseTime, 250),
          (.openLong, 60), (.bcstSet, 0xFFF), (.bcstRow, 0), (.pollInterval, 100), (.link .window, 4), (.link .ackTime, 5),
          (.link .frameRetries, 5), (.link .errThreshold, 3), (.link .helloTime, 2), (.link .keepalive, 30), (.link .resumeTime, 10),
          (.link .verdictTime, 120)], t.chip.setting e.1 = e.2) ∧
        (∀ p : Fin 12, t.chip.ceilingOf p = 0 ∧ t.chip.setting (.scanDir p) = 0 ∧ t.chip.setting (.capOverride p) = 0 ∧
          t.chip.setting (.colour p) = 1 ∧ t.chip.setting (.remoteRelease p) = 0) ∧
        (∀ x : Fin 3, t.chip.setting (.lineRate x) = 38400 ∧ t.chip.setting (.lineGap x) = 4 ∧ t.chip.setting (.replyTime x) = 30) ∧
        (∀ (n : Fin 4), ∀ e ∈ [(PrnSetting.present, 0), (.linesPerPage, 24), (.pitch, 40), (.topMargin, 120), (.amountCol, 44),
          (.encPrescale, 4), (.pwmPrescale, 1), (.pwmPeriod, 239), (.runDuty, 720), (.approachDuty, 300), (.rampStep, 8), (.deadBand, 12),
          (.approachDist, 20), (.stallTime, 200), (.alignTravel, 2000), (.ejectTravel, 1500), (.headTimeout, 2000), (.safeA, 0), (.safeB, 0),
          (.autoRestart, 0), (.outPolarity, 0)], t.chip.prn n e.1 = e.2) ∧
        (∀ i : Fin 255, settingAtOffset (0x200 + 4 * i.val) = none → t.chip.su.image[i.val] = 0) ∧
        (∀ k < 32, ⟨.settingWords (8 * k) 8, .plain, false⟩ ∈ asked) ∧ ⟨.settingsCrc, .plain, false⟩ ∈ asked ∧
        d = { DayRecord.reset with first := 1, next := 1 }) ∧
      (s.chip.su.reports.length < 15 → ∃ more, t.chip.su.reports = s.chip.su.reports ++ [⟨.reset, 0, o.code, s.chip.su.ms⟩]
        ++ (if o = .loaded then [] else [⟨.setupDefaulted, 0, o.code, s.chip.su.ms⟩]) ++ more) ∧
      (d.state = .noDay → t.chip.ju.nextSeq = d.first) ∧
      (d.state ≠ .noDay → (∀ i : Fin 13, t.chip.drawer i = .reset) ∧ t.chip.cu.walk = some
        (if t.chip.ap.journalUsable = true then ⟨d.first, 0, .ready, false, false⟩ else ⟨d.first, 0, .ended, true, true⟩)) ∧
      (∀ w : Fin 6, t.chip.placement w = t.chip.placementSet w) ∧ t.chip.ap.journalUsable = t.chip.usableNow ∧
      t.chip.su.writeIndex = t.chip.su.readIndex ∧ t.chip.su.readIndex ≤ 63 ∧
      ⟨.write (s.chip.setupAddr 0x120) [0, 0, 0, 0], .plain, false⟩ ∈ t.chip.own[rSU.val] ∧
      t.chip.su.unitState = (if t.chip.cu.day.state = .noDay then .ready else .rebuilding) ∧
      ⟨.write (s.chip.setupAddr 0x008) [wd t.chip.su.unitState.code], .loadingState, false⟩ ∈ t.chip.own[rSU.val] ∧
      t.chip.ap.host = s.chip.ap.host ∧ t.chip.ap.held = s.chip.ap.held ∧ s.KeepsStore t) ∧
  ∀ (s : State) (op : StoreOp) (okay : Bool), s.prompt = false → s.arb.port = .own rSU op .loadingState false →
    Completes (.storeAnswer okay) s fun t =>
      let told := if okay = true then s.chip else s.chip.report .storeError 8 0x008
      let freed : Chip := { told with ap := { told.ap with held := false } }
      (s.chip.ap.host = none → t.chip = freed) ∧
      ∀ p, s.chip.ap.host = some p → p.phase = .heldLoading → t.chip = freed.arrive (op.answered s.mem okay) p.access

/-- A host access: held until LOADING has ended (R13); not taken while one is in progress (log 26, the model's choice); a burst
that is not wholly in one window refused whole (R14); a read (the read form of HOST_WRITE, log 19) answered with what the store
holds (R6); a write outside every window made as one burst under its byte enables (R7, R10; log 64), and OKAY at once when it
sets none. -/
def Obligations.HostAccesses : Prop :=
  (∀ (s : State) (a : HostAccess), s.prompt = false → s.chip.ap.host.isSome = true → exec (.hostWrite a) s = .next s) ∧
  (∀ (s : State) (a : HostAccess), s.prompt = false → s.chip.ap.host = none → s.chip.ap.held = true →
    Completes (.hostWrite a) s fun t => s.Only [.ap] t ∧ ∃ p, t.chip.ap.host = some p ∧ p.phase = .heldLoading ∧ p.access = a) ∧
  (∀ (s : State) (addr : Word) (ws : List WriteWord), s.HostFree →
    (∃ k < ws.length, s.chip.windowOf (wrapAddr (addr.toNat + 4 * k)) ≠ s.chip.windowOf addr.toNat) →
    exec (.hostWrite (.write addr ws)) s = .next { s with chip := s.chip.answerHost false [] }) ∧
  (∀ (s : State) (addr : Word) (len : Nat), s.HostNext → CompletesStored (.hostWrite (.read addr len)) s fun t =>
    t.chip.ap.answer = some ⟨true, readWords s.mem addr.toNat 4 len⟩ ∧ t.chip.ap.host = none ∧ t.mem = s.mem ∧
    t.arb.port = .idle ∧ s.chip.Only [.ap] t.chip) ∧
  ∀ (s : State) (addr : Word) (ws : List WriteWord),
    ws ≠ [] → (∀ k < ws.length, s.chip.windowOf (wrapAddr (addr.toNat + 4 * k)) = none) →
    (s.HostFree → (∀ w ∈ ws, w.enables = 0) →
      exec (.hostWrite (.write addr ws)) s = .next { s with chip := s.chip.answerHost true [] }) ∧
    (s.HostNext → (∃ w ∈ ws, w.enables ≠ 0) → CompletesStored (.hostWrite (.write addr ws)) s fun t =>
      t.chip.ap.answer = some ⟨true, []⟩ ∧ t.chip.ap.host = none ∧ t.mem = writeWords s.mem addr.toNat ws ∧
      t.arb.port = .idle ∧ s.chip.Only [.ap] t.chip)

/-- The store port. A grant (R15, R16): nothing for a port in use or with nobody waiting (log 28, the model's choice); the host
when it waits and its streak is below 4 or no unit waits, the streak going up only past a waiting unit; otherwise the first
waiting unit after the rotation position, the streak going to 0; a running part that is no longer stale is passed over (R79). An
answer (R17): a write answered ERROR leaves the store, one answered OKAY is made; the unit that made an own access acts on it
and the port is free; a host access goes on under the same grant or leaves the port free (R15). The two CRC words are computed
as they are granted (R24, R25; log 51). -/
def Obligations.StorePort : Prop :=
  (∀ c : Chip, (∀ u : Fin 9, u ≠ rCU → c.waiting[u.val] = c.own[u.val]) ∧
    (c.cu.runningStale = true → c.waiting[rCU.val] = c.own[rCU.val]) ∧
    (c.cu.runningStale = false → ∃ past, c.own[rCU.val] = past ++ c.waiting[rCU.val] ∧
      (∀ r ∈ past, ∃ half, r.op = .staleRunning half) ∧
      ∀ r half, (c.waiting[rCU.val] : List OwnReq).head? = some r → r.op ≠ .staleRunning half) ∧
    c.resolveOp .settingsCrc = .write (c.setupAddr 0x5FC) [whole (wd (crc16 (wordsBytes c.su.image.toList)))] ∧
    c.resolveOp .dayCrc = .write (c.setupAddr 0x0BC) [whole (wd (crc16 (wordsBytes c.cu.day.anchorWords)))]) ∧
  (∀ s : State, s.prompt = false →
    (s.arb.port ≠ .idle → exec .arbiterGrant s = .next s) ∧
    (s.arb.port = .idle → s.chip.hostWaiting = none → s.chip.NoneWaits → exec .arbiterGrant s = .next s) ∧
    (∀ p op, s.arb.port = .idle → s.chip.hostWaiting = some (p, op) → (s.arb.streak < 4 ∨ s.chip.NoneWaits) →
      ∃ k : Nat, (s.chip.NoneWaits → k = 0) ∧ (¬ s.chip.NoneWaits → k = 1) ∧
        exec .arbiterGrant s = .next
          { s with
            chip := s.chip.setHost { p with granted := true }
            arb := { s.arb with streak := s.arb.streak + k, port := .host op } }) ∧
    (s.arb.port = .idle → ¬ s.chip.NoneWaits → (s.chip.hostWaiting = none ∨ 4 ≤ s.arb.streak) →
      ∃ (u : Fin 9) (k : Nat) (r : OwnReq) (rest : List OwnReq), k < 9 ∧ u.val = (s.arb.rotation.val + 1 + k) % 9 ∧
        (∀ j < k, ∀ v : Fin 9, v.val = (s.arb.rotation.val + 1 + j) % 9 → s.chip.waiting[v.val] = []) ∧
        s.chip.waiting[u.val] = r :: rest ∧
        Completes .arbiterGrant s fun t =>
          t.arb = { rotation := u, streak := 0, port := .own u (s.chip.resolveOp r.op) r.tag r.fin } ∧
          t.chip.own = vput s.chip.waiting u rest ∧ t.mem = s.mem ∧ t.pending = s.pending ∧
          s.chip.Only [.own, .scu] t.chip)) ∧
  ∀ (s : State) (okay : Bool), s.prompt = false →
    (s.arb.port = .idle → exec (.storeAnswer okay) s = .next s) ∧
    (∀ u op tag fin, s.arb.port = .own u op tag fin → Completes (.storeAnswer okay) s fun t =>
      t.mem = (if okay = true then op.effect s.mem else s.mem) ∧ t.arb = { s.arb with port := .idle } ∧
      t.pending = s.pending ∧
      t.chip = (let c := s.chip.ownAnswered t.mem u tag okay op.addr (op.data s.mem)
        if fin = true then c.requestDone else c)) ∧
    ∀ op, s.arb.port = .host op → Completes (.storeAnswer okay) s fun t =>
      t.mem = (if okay = true then op.effect s.mem else s.mem) ∧ t.pending = s.pending ∧
      t.chip = s.chip.hostAnswered t.mem okay (op.data s.mem) ∧ t.arb.rotation = s.arb.rotation ∧
      t.arb.streak = s.arb.streak ∧
      (t.arb.port = .idle ∨
        ∃ p op', t.chip.ap.host = some p ∧ p.granted = true ∧ p.nextOp = some op' ∧ t.arb.port = .host op')

/-! ### Settings -/

/-- A written setting, by the commands of all eleven setting rows (R21). Where each setting stands in the SETUP page (Table
12-4) and its freeze group (Table 2-2; `never` for the settings of no group and of LINE, which is never frozen, R22), and when
each group is frozen (R22). One of a frozen group is refused: ERROR, and neither the store nor a value in force changes (R22,
R8); so is a word of the area that is no setting's, the CRC word among them. Otherwise the word stored and the value in force
are the value of Table 2-2, whatever was written; the other words of the image stand, but for a capacity lowered (R23); a CRC
rewrite is asked for (R24); the host has OKAY. A partial write is merged with the store's word before it is judged (R10), and
one without a byte enable does nothing and has OKAY. For the values of JNL_CAPACITY and CEILING_p see CapacityAndPlacements. -/
def Obligations.SettingsJudged : Prop :=
  (let stands (k : Setting) (off : Nat) (g : FreezeGroup) : Prop := 0x200 + 4 * k.index = off ∧ k.group = g
   (∀ (w : Fin 6) (limit : Bool), stands (.placement w limit) (0x200 + 8 * w.val + 4 * flagBit limit) .day) ∧
   stands .jnlCapacity 0x230 .day ∧ stands .decimals 0x234 .day ∧ stands .separators 0x238 .day ∧ stands .branchNo 0x23C .day ∧
   (∀ d : Fin 10, stands (.face d) (0x240 + 4 * d.val) .day) ∧
   (∀ (p : Fin 12) (upper : Bool), stands (.ceiling p upper) (0x280 + 8 * p.val + 4 * flagBit upper) .never) ∧
   stands .idleBlank 0x2E0 .never ∧ stands .releaseTime 0x2E4 .never ∧ stands .openLong 0x2E8 .never ∧
   stands .bcstSet 0x2EC .never ∧ stands .bcstRow 0x2F0 .never ∧ stands .pollInterval 0x2F4 .never ∧
   (∀ p : Fin 12, stands (.scanDir p) (0x300 + 4 * p.val) .never ∧ stands (.capOverride p) (0x330 + 4 * p.val) .never ∧
     stands (.colour p) (0x360 + 4 * p.val) .never ∧ stands (.remoteRelease p) (0x390 + 4 * p.val) .never) ∧
   (∀ l : Fin 3, stands (.lineRate l) (0x3C0 + 16 * l.val) .never ∧ stands (.lineGap l) (0x3C4 + 16 * l.val) .never ∧
     stands (.replyTime l) (0x3C8 + 16 * l.val) .never) ∧
   (∀ (n : Fin 4) (i : Nat) (k : PrnSetting), [PrnSetting.present, .linesPerPage, .pitch, .topMargin, .amountCol, .encPrescale,
       .pwmPrescale, .pwmPeriod, .runDuty, .approachDuty, .rampStep, .deadBand, .approachDist, .stallTime, .alignTravel, .ejectTravel,
       .headTimeout, .safeA, .safeB, .autoRestart, .outPolarity][i]? = some k →
     stands (.printer n k) (0x400 + 96 * n.val + 4 * i) (if k ∈ [.present, .headTimeout, .autoRestart] then .never else .printer n)) ∧
   ∀ (i : Nat) (k : LinkSetting), [LinkSetting.window, .ackTime, .frameRetries, .errThreshold, .helloTime, .keepalive, .resumeTime,
     .verdictTime][i]? = some k → stands (.link k) (0x580 + 4 * i) .link) ∧
  (∀ c : Chip, (c.frozen .day = true ↔ c.cu.day.state ≠ .noDay) ∧ (c.frozen .link = true ↔ c.cu.day.state = .sending) ∧
    c.frozen .never = false ∧
    ∀ n : Fin 4, c.frozen (.printer n) = true ↔ (c.printer n).state ≠ .empty ∨ (c.printer n).queue ≠ []) ∧
  (∀ (s : State) (i : Instr) (k : Setting) (v : Word), s.HostFree → settingWritten i = some (k, v, allBytes) →
    s.chip.SetupWord (0x200 + 4 * k.index) → s.chip.frozen k.group = true →
    exec i s = .next { s with chip := s.chip.answerHost false [] }) ∧
  ((∀ k : Setting, settingAtOffset (0x200 + 4 * k.index) = some k) ∧
    (∀ j < 256, settingAtOffset (0x200 + 4 * j) = none ↔ (26 ≤ j ∧ j < 32) ∨ j = 62 ∨ j = 63 ∨ j = 115 ∨ j = 119 ∨
      (123 ≤ j ∧ j < 128) ∨ (128 ≤ j ∧ j < 224 ∧ 21 ≤ (j - 128) % 24) ∨ 232 ≤ j) ∧
    ∀ (s : State) (off : Fin 4096) (v : Word) (e : BitVec 4), s.HostFree → s.chip.SetupWord off.val → 0x200 ≤ off.val →
      off.val % 4 = 0 → settingAtOffset off.val = none → e ≠ 0 →
      exec (.settingWrite off v e) s = .next { s with chip := s.chip.answerHost false [] }) ∧
  (∀ (s : State) (i : Instr) (k : Setting) (v : Word), s.HostNext → settingWritten i = some (k, v, allBytes) →
    k ≠ .jnlCapacity → (∀ p u, k ≠ .ceiling p u) →
    s.chip.SetupWord (0x200 + 4 * k.index) → s.chip.frozen k.group = false →
    CompletesStored i s fun t =>
      t.mem = writeWord s.mem (wrapAddr (s.chip.setupAddr (0x200 + 4 * k.index))) (whole (wd (k.clamp v.toNat))) ∧
      t.chip.setting k = k.clamp v.toNat ∧
      (∀ j : Fin 255, j.val ≠ k.index → j.val ≠ 12 → t.chip.su.image[j.val] = s.chip.su.image[j.val]) ∧
      ⟨.settingsCrc, .plain, false⟩ ∈ t.chip.own[rSU.val] ∧ t.chip.ap.answer = some ⟨true, []⟩ ∧ t.chip.ap.host = none) ∧
  ∀ (s : State) (i : Instr) (k : Setting) (v : Word) (e : BitVec 4), s.HostNext → settingWritten i = some (k, v, e) →
    s.chip.SetupWord (0x200 + 4 * k.index) →
    (e = 0 → exec i s = .next { s with chip := s.chip.answerHost true [] }) ∧
    (e ≠ 0 → e ≠ allBytes →
      let addr := wrapAddr (s.chip.setupAddr (0x200 + 4 * k.index))
      let merged := mergeWord (readWord s.mem addr) v e
      CompletesStored i s fun t => t.mem = s.mem ∧ s.chip.Only [.ap] t.chip ∧
        match s.chip.judgeSetting s.mem k merged with
        | .refuse => t.chip.ap.host = none ∧ t.chip.ap.answer = some ⟨false, []⟩ ∧ t.arb.port = .idle
        | .pass => t.arb.port = .host (.write addr [⟨merged, e⟩])
        | .substitute w => t.arb.port = .host (.write addr [⟨w, allBytes⟩]))

/-- JNL_CAPACITY rounded, clamped and lowered to the fit, CEILING_p judged as a 64-bit value with the other half as the store
holds it (log 29), and the EXCESS flag of drawer p judged on a change (R23, R42). A placement write: the table entry of that
window becomes what the settings hold, every other entry stands (R2), the capacity is lowered to the JOURNAL's fit (R23), and
REPORT's ring is emptied at the read index with its overflow flag clear (R35). The usable mark: the JOURNAL enabled, its fit and
the capacity in force at least 1,024 (R3; log 21, the model's reading). -/
def Obligations.CapacityAndPlacements : Prop :=
  (∀ c : Chip, c.usableNow = true ↔ (c.placement 0).base ≤ (c.placement 0).limit ∧
    1024 ≤ journalFit (c.placement 0).base (c.placement 0).limit ∧ 1024 ≤ c.capacity) ∧
  (∀ (s : State) (v : Word), s.HostNext → s.chip.SetupWord 0x230 → s.chip.frozen .day = false →
    CompletesStored (.jnlCapacityWrite v allBytes) s fun t =>
      let j := s.chip.placementSet 0
      let c := max 1024 (min 65536 (v.toNat / 64 * 64))
      t.chip.capacity = (if j.base ≤ j.limit then min c (journalFit j.base j.limit) else c) ∧
      t.chip.ap.journalUsable = t.chip.usableNow ∧ t.chip.ap.answer = some ⟨true, []⟩) ∧
  (∀ (s : State) (p : Fin 12) (upper : Bool) (v : Word), s.HostNext → s.chip.SetupWord (0x280 + 8 * p.val + 4 * flagBit upper) →
    CompletesStored (.ceilingWrite p upper v allBytes) s fun t =>
      let other := (readWord s.mem (s.chip.setupAddr (0x280 + 8 * p.val + 4 * flagBit (!upper)))).toNat
      let both := if upper = true then other + 4294967296 * v.toNat else v.toNat + 4294967296 * other
      t.chip.ceilingOf p = min both 999999999999 ∧ t.chip.ap.answer = some ⟨true, []⟩ ∧
      (∀ q : Fin 12, q ≠ p → t.chip.ceilingOf q = s.chip.ceilingOf q) ∧
      (s.chip.su.unitState = .ready → s.chip.cu.day.state.frozen = false → t.chip.ceilingOf p ≠ s.chip.ceilingOf p →
        (t.chip.drawerOf p).excess = s.chip.excessUnder (t.chip.ceilingOf p) p)) ∧
  ∀ (s : State) (w : Fin 6) (limit : Bool) (v : Word), s.HostNext → s.chip.SetupWord (0x200 + 8 * w.val + 4 * flagBit limit) →
    s.chip.frozen .day = false → CompletesStored (.placementWrite w limit v allBytes) s fun t =>
      (let n := min v.toNat 0xFFFFF
       let old := s.chip.placementSet w
       t.chip.placement w = if limit = true then ⟨old.base, n⟩ else ⟨n, old.limit⟩) ∧
      (∀ x : Fin 6, x ≠ w → t.chip.placement x = s.chip.placement x) ∧
      (t.chip.ap.journalUsable = if w = 0 then t.chip.usableNow else s.chip.ap.journalUsable) ∧
      (let j := t.chip.placement 0
       t.chip.capacity = if w = 0 ∧ j.base ≤ j.limit then min s.chip.capacity (journalFit j.base j.limit)
         else s.chip.capacity) ∧
      (w = 5 → t.chip.su.writeIndex = s.chip.su.readIndex ∧ t.chip.su.overflow = false) ∧
      t.chip.su.readIndex = s.chip.su.readIndex ∧ t.chip.ap.answer = some ⟨true, []⟩

/-- What an accepted placement write does beyond the table entry (CapacityAndPlacements). JOURNAL, and JNL_CAPACITY: the posting
slots are resolved at the new place while the window is usable, beside a resolution under way (log 55, the model's choice), and
otherwise JU's accesses of a resolution still to be granted are not made (R57, R3). TOTALS, when its value changes: all thirteen
mirrors are written, or with TOTALS disabled those still to be granted are not made (R77). SCREENS, when its value changes:
every sweep is abandoned with its count as it was, all rows are dirty, no rendering is held, a status row is to be rendered for
each screen, the count and mode words of each present screen are written at the new place (R103, R117), its key ring is set
afresh by its key read index (R134), row reads stop, and nothing of the fan-out, the control words or the key rings is written
to an absent screen (R5). PRINT, when its value changes and it is enabled: the 32 slots are read at the new place (R150; as four
reads of eight words 128 bytes apart, log 14), after those of a scan under way (log 73, the model's choice). Then the answers: a
key read index above 31 is taken as 0 and written back, the ring is empty, and the key write index, terminal state and sensor
words are written (R134); a burst of slots is taken as read, one found QUEUED or PRINTING becomes CANCELLED with RESET and is
written so where it was read (log 73), an ERROR leaves them IDLE, and after the last burst a waiting submission starts, or at
start-up the printers that are EMPTY, present and have a book in align (R150). -/
def Obligations.PlacementsMove : Prop :=
  (∀ (s : State) (i : Instr) (k : Setting) (v : Word), s.HostNext → settingWritten i = some (k, v, allBytes) →
    k ∈ [.placement 0 false, .placement 0 true, .jnlCapacity] → s.chip.SetupWord (0x200 + 4 * k.index) → s.chip.frozen .day = false →
    CompletesStored i s fun t =>
      let base := 4096 * (t.chip.placement 0).base
      let q : List OwnReq := s.chip.own[rJU.val]
      (t.chip.ap.journalUsable = true → t.chip.ju = { s.chip.ju with resolving := s.chip.ju.resolving + 1 } ∧
        t.chip.own[rJU.val] = q ++ [⟨.read (base + 44) 4 1, .slotRead 0 base, false⟩]) ∧
      (t.chip.ap.journalUsable = false →
        t.chip.ju = { s.chip.ju with resolving := s.chip.ju.resolving - (q.filter fun r => r.tag.resolves).length } ∧
        t.chip.own[rJU.val] = q.filter fun r => !r.tag.resolves)) ∧
  (∀ (s : State) (limit : Bool) (v : Word), s.HostNext → s.chip.SetupWord (0x208 + 4 * flagBit limit) → s.chip.frozen .day = false →
    CompletesStored (.placementWrite 1 limit v allBytes) s fun t =>
      let c := s.chip
      let q : List OwnReq := c.own[rCU.val]
      let changed := min v.toNat 0xFFFFF ≠ c.setting (.placement 1 limit)
      let enabled := (t.chip.placement 1).base ≤ (t.chip.placement 1).limit
      (¬ changed → t.chip.own[rCU.val] = q) ∧
      (changed → enabled → t.chip.own[rCU.val] = q ++ c.mirrorsAsked .nothing ∧ t.chip.cu = c.cu) ∧
      (changed → ¬ enabled → (∀ r ∈ (t.chip.own[rCU.val] : List OwnReq), r.tag.mirrors = false) ∧
        ∀ r ∈ q, r.tag.mirrors = false → r ∈ (t.chip.own[rCU.val] : List OwnReq))) ∧
  (∀ (s : State) (limit : Bool) (v : Word), s.HostNext → s.chip.SetupWord (0x210 + 4 * flagBit limit) → s.chip.frozen .day = false →
    min v.toNat 0xFFFFF ≠ s.chip.setting (.placement 2 limit) → CompletesStored (.placementWrite 2 limit v allBytes) s fun t =>
      let c := t.chip
      (∀ p : Fin 12,
        c.screen p = { s.chip.screen p with
          sweeping := false, sweep := noRows, flight := none, dirty := allRows, rendering := none
          flash := (c.screen p).flash, attention := (c.screen p).attention, flashMs := (c.screen p).flashMs } ∧
        .status p ∈ c.scu.work ∧
        (c.screenPresent p = true →
          (.count p ∈ c.scu.work ∨
            ⟨.write (c.screenAddr p 4000) [wd (c.screen p).sweepCount], .scuCount, false⟩ ∈ (c.own[rSCU.val] : List OwnReq)) ∧
          (.mode p false ∈ c.scu.work ∨
            ⟨.write (c.screenAddr p 4004) [(c.screen p).modeWord], .scuMode, false⟩ ∈ (c.own[rSCU.val] : List OwnReq)) ∧
          ⟨.read (c.screenAddr p 4020) 4 1, .keyInit p (c.drop p).keyEpoch, false⟩ ∈ (c.own[(rSLC (lineOf p)).val] : List OwnReq)) ∧
        (c.screenPresent p = false → (∀ r ∈ (c.own[rSCU.val] : List OwnReq), ∀ b, r.tag ≠ .fanWrite p b) ∧
          ∀ l : Fin 3, ∀ r ∈ (c.own[(rSLC l).val] : List OwnReq), r.tag ≠ .screenWord p ∧ ∀ e, r.tag ≠ .keyInit p e) ∧
        c.drop p = { s.chip.drop p with keyEpoch := (s.chip.drop p).keyEpoch + 1, overflow := (c.drop p).overflow }) ∧
      (∀ l : Fin 3, ∀ d r, (s.chip.line l).use = .reading d r → (c.line l).use = .free)) ∧
  (∀ (s : State) (limit : Bool) (v : Word), s.HostNext → s.chip.SetupWord (0x220 + 4 * flagBit limit) → s.chip.frozen .day = false →
    CompletesStored (.placementWrite 4 limit v allBytes) s fun t =>
      let scans := min v.toNat 0xFFFFF ≠ s.chip.setting (.placement 4 limit) ∧ (t.chip.placement 4).base ≤ (t.chip.placement 4).limit
      t.chip.pru = { s.chip.pru with scanning := s.chip.pru.scanning + if scans then 4 else 0 } ∧
      t.chip.own[rPRU.val] = s.chip.own[rPRU.val] ++ if scans then (List.finRange 4).map fun n =>
        ⟨.read (4096 * (t.chip.placement 4).base + 1024 * n.val) 128 8, .slotScan n, false⟩ else []) ∧
  (∀ (s : State) (p : Fin 12) (addr : Nat) (okay : Bool), s.prompt = false →
    s.arb.port = .own (rSLC (lineOf p)) (.read addr 4 1) (.keyInit p (s.chip.drop p).keyEpoch) false →
    (s.chip.line (lineOf p)).keys = [] → s.chip.screenPresent p = true → Completes (.storeAnswer okay) s fun t =>
      let v := if okay = true then (readWord s.mem addr).toNat else 0
      let index := if v ≤ 31 then v else 0
      let b := t.chip.drop p
      b = { s.chip.drop p with writeIndex := index, readIndex := index, overflow := false } ∧
      t.chip.own = vupd s.chip.own (rSLC (lineOf p)) (· ++
        (if v ≤ 31 then [] else [⟨.write (s.chip.screenAddr p 4020) [0], .screenWord p, false⟩]) ++
        [⟨.keyWord p (s.chip.screenAddr p 4016), .plain, false⟩,
         ⟨.write (s.chip.screenAddr p 4008) [b.terminalWord], .screenWord p, false⟩,
         ⟨.write (s.chip.screenAddr p 4012) [wd b.sensor.code], .screenWord p, false⟩])) ∧
  ∀ (s : State) (n : Fin 4) (addr : Nat) (okay : Bool), s.prompt = false →
    s.arb.port = .own rPRU (.read addr 128 8) (.slotScan n) false → Completes (.storeAnswer okay) s fun t =>
      let c := s.chip
      let word (x : Fin 8) : Word := if okay = true then readWord s.mem (addr + 128 * x.val) else 0
      let cancels (x : Fin 8) : Prop := field (word x) 0 8 = 2 ∨ field (word x) 0 8 = 3
      let status (x : Fin 8) : SlotStatus :=
        let r := field (word x) 8 8
        if cancels x then .cancelled Reason.reset.code
        else match field (word x) 0 8 with
          | 4 => .done | 5 => .refused r | 6 => .cancelled r | 7 => .aborted r | 8 => .doubtful | _ => .idle
      let writes := ((List.finRange 8).filter fun x => decide (cancels x)).map fun x =>
        (⟨.write (addr + 128 * x.val) [(SlotStatus.cancelled Reason.reset.code).word], .plain, false⟩ : OwnReq)
      (∀ x : Fin 8, t.chip.slotStatus n x = status x) ∧ t.chip.pru.scanning = c.pru.scanning - 1 ∧
      (1 < c.pru.scanning → t.chip.own[rPRU.val] = c.own[rPRU.val] ++ writes ∧
        t.chip.printer n = { c.printer n with slots := (t.chip.printer n).slots } ∧ SameBut n c.pru.printers t.chip.pru.printers) ∧
      (∀ b, c.pru.scanning ≤ 1 → c.pru.submission = some b → t.chip.own[rPRU.val] = c.own[rPRU.val] ++ writes ++
        if b.waiting = true then [⟨.read (c.printAddr b.printer b.slot 1) 4 2, .subRead, false⟩] else []) ∧
      (c.pru.scanning ≤ 1 → ∀ m : Fin 4, (t.chip.printer m).state =
        if c.pru.startUp = true ∧ (c.printer m).state = .empty ∧ c.bookIn m = true ∧ c.prn m .present = 1 then .aligning
        else (c.printer m).state)

/-- A change of IDLE_BLANK restarts all twelve idle timers (R109); a change of CAP_OVERRIDE_p or COLOUR_p decides PLAIN in force
afresh, and where it changes a MODE frame is due and the rows shown are dirty (R105, R106); a change of DECIMALS or SEPARATORS
puts every screen's status row on the work list (R113). A feed setting's change restarts the step counter or clears the prescale
counter (R152, R158), and the pins stand at the levels of the polarity in force (R157). A write of the value in force does
nothing to them (R21). PRN_PRESENT_n turned on with an EMPTY printer: a book that is in starts ALIGNING (R140) unless an input
stops it (R161). AUTO_RESTART_n turned on: a HALTED printer restarts when the conditions of R164 hold together, and otherwise
stays as it was. -/
def Obligations.ScreenAndFeedSettings : Prop :=
  (∀ (s : State) (v : Word), s.HostNext → s.chip.SetupWord 0x2E0 →
    CompletesStored (.idleBlankWrite v allBytes) s fun t => ∀ p : Fin 12,
      t.chip.screen p = if Setting.idleBlank.clamp v.toNat = s.chip.setting .idleBlank then s.chip.screen p
        else { s.chip.screen p with idleMs := 0, idleExpired := false }) ∧
  (∀ (s : State) (p : Fin 12) (colour : Bool) (v : Word), s.HostNext →
    let k : Setting := if colour then .colour p else .capOverride p
    s.chip.SetupWord (0x200 + 4 * k.index) → k.clamp v.toNat ≠ s.chip.setting k →
    CompletesStored (.capabilitySettingWrite p colour v allBytes) s fun t =>
      let a := s.chip.screen p
      let b := t.chip.screen p
      b.plain = (a.askedPlain || !(if t.chip.setting (.capOverride p) = 1 then t.chip.setting (.colour p) == 1
        else (s.chip.drop p).colour)) ∧ b.mode = a.mode ∧
      (b.plain = a.plain → b = a) ∧
      (b.plain ≠ a.plain → b.modePending = true ∧
        ∀ r : Fin 25, a.mode.shows r = true → a.marks r = true → hasRow b.dirty r = true) ∧
      SameBut p s.chip.scu.screens t.chip.scu.screens) ∧
  (∀ (s : State) (sep : Bool) (v : Word), s.HostNext →
    let k : Setting := if sep then .separators else .decimals
    s.chip.SetupWord (0x200 + 4 * k.index) → s.chip.frozen .day = false → k.clamp v.toNat ≠ s.chip.setting k →
    CompletesStored (.formatSettingWrite sep v allBytes) s fun t => ∀ p : Fin 12, .status p ∈ t.chip.scu.work) ∧
  (∀ (s : State) (n : Fin 4) (which : FeedSetting) (v : Word), s.HostNext →
    s.chip.SetupWord (0x200 + 4 * (Setting.printer n (feedSettingOf which)).index) → s.chip.frozen (.printer n) = false →
    CompletesStored (.feedSettingWrite n which v allBytes) s fun t => (∀ m : Fin 4, m ≠ n → t.chip.feed m = s.chip.feed m) ∧
      (t.chip.feed n =
        if (feedSettingOf which).clamp v.toNat = s.chip.prn n (feedSettingOf which) then s.chip.feed n
        else match which with
          | .pwmPrescale => { s.chip.feed n with step := 0, stepClk := 0 }
          | .pwmPeriod => { s.chip.feed n with step := 0, stepClk := 0 }
          | .encPrescale => { s.chip.feed n with prescale := 0 }
          | .outPolarity => s.chip.feed n) ∧
      (s.chip.su.unitState ≠ .loading → ∀ o : Fin 4, t.chip.bridgePin n o =
        some (t.chip.outputActive n o != (t.chip.prn n .outPolarity / 2 ^ o.val % 2 == 1)))) ∧
  (∀ (s : State) (n : Fin 4) (v : Word), s.HostNext → s.chip.SetupWord (0x400 + 96 * n.val) →
    v.toNat = 1 → s.chip.prn n .present ≠ 1 → (s.chip.printer n).state = .empty →
    s.chip.coverIn n = false → s.chip.ovcIn n = false →
    CompletesStored (.prnPresentWrite n v allBytes) s fun t =>
      t.chip.prn n .present = 1 ∧
      (s.chip.bookIn n = false → t.chip.pru = s.chip.pru ∧ t.chip.fd = s.chip.fd) ∧
      (s.chip.bookIn n = true → (t.chip.printer n).state = .aligning ∧ (t.chip.feed n).mode = .forward ∧
        (t.chip.feed n).duty = 0 ∧ (t.chip.feed n).travel = 0 ∧
        ((s.chip.printer n).pageTurn = none → (t.chip.printer n).bookPage = none))) ∧
  ∀ (s : State) (n : Fin 4) (v : Word), s.HostNext → s.chip.SetupWord (0x44C + 96 * n.val) →
    v.toNat = 1 → s.chip.prn n .autoRestart ≠ 1 →
    CompletesStored (.autoRestartWrite n v allBytes) s fun t =>
      t.chip.prn n .autoRestart = 1 ∧
      ((s.chip.printer n).state ≠ .halted ∨ ¬ s.chip.MayRestart n → t.chip.pru = s.chip.pru ∧ t.chip.fd = s.chip.fd) ∧
      ((s.chip.printer n).state = .halted → s.chip.MayRestart n → s.chip.coverIn n = false → s.chip.ovcIn n = false →
        s.chip.Restarted t.chip n)

/-- The restart of a screen line (R133), by LINE_RESET and by an accepted change of LINE_RATE_l or LINE_GAP_l: what it leaves
the line, its drops and its screens in, a frame being sent stopping after the byte in progress (log 65); the other lines, drops
and screens stand. -/
def Obligations.LinesRestart : Prop :=
  (∀ (s : State) (l : Fin 3) (gap : Bool) (v : Word), s.HostNext →
    let k : Setting := if gap then .lineGap l else .lineRate l
    s.chip.SetupWord (0x200 + 4 * k.index) → k.clamp v.toNat ≠ s.chip.setting k →
    CompletesStored (.lineSettingWrite l gap v allBytes) s fun t => s.chip.LineRestarted t.chip l) ∧
  ∀ (s : State) (l : Fin 3), s.Alone → s.chip.SetupWord 0x100 → s.chip.OperandsAre s.mem (wd l.val) 0 →
    CompletesStored .lineReset s fun t => s.chip.LineRestarted t.chip l ∧ t.mem = s.mem ∧ t.chip.Finishes (rSLC l) 11

/-! ### Host writes with an action -/

/-- The report read index (R35) and a screen's key read index (R129): a value in range is taken, the overflow flag is clear
after it and, where it was set, its word is written; a value above is refused and nothing changes. A host write of a row's word
is stored under its byte enables and marks that row of that screen dirty, unless the row waits in the sweep set or is in flight
unread (R99); a write of the master row sets the start mark (R115); either without byte enables does nothing (R10). IDLE written
to a print slot is refused while the slot is QUEUED or PRINTING, taken otherwise (R136). -/
def Obligations.HostWordsTaken : Prop :=
  (∀ (s : State) (v : Word), s.HostNext → s.chip.SetupWord 0x148 →
    (63 < v.toNat → exec (.reportReadIndexWrite v allBytes) s = .next { s with chip := s.chip.answerHost false [] }) ∧
    (v.toNat ≤ 63 → CompletesStored (.reportReadIndexWrite v allBytes) s fun t =>
      t.chip.su = { s.chip.su with readIndex := v.toNat, overflow := false } ∧ t.chip.ap.answer = some ⟨true, []⟩ ∧
      t.mem = writeWord s.mem (wrapAddr (s.chip.setupAddr 0x148)) (whole v) ∧
      t.chip.own = (if s.chip.su.overflow = true then
        vupd s.chip.own rSU (· ++ [⟨.write (s.chip.setupAddr 0x144) [0], .silent, false⟩]) else s.chip.own) ∧
      s.chip.Only [.ap, .su, .own] t.chip)) ∧
  (∀ (s : State) (p : Fin 12) (v : Word), s.HostNext → s.chip.HostReaches .screens (s.chip.screenAddr p 4020) →
    (31 < v.toNat → exec (.keyReadIndexWrite p v allBytes) s = .next { s with chip := s.chip.answerHost false [] }) ∧
    (v.toNat ≤ 31 → CompletesStored (.keyReadIndexWrite p v allBytes) s fun t =>
      t.chip.drop p = { s.chip.drop p with readIndex := v.toNat, overflow := false } ∧ t.chip.ap.answer = some ⟨true, []⟩ ∧
      t.mem = writeWord s.mem (wrapAddr (s.chip.screenAddr p 4020)) (whole v) ∧
      (t.chip.drop p).keyWord = wd (s.chip.drop p).writeIndex ∧
      ((s.chip.drop p).overflow = false → t.chip.own = s.chip.own) ∧
      ((s.chip.drop p).overflow = true → s.chip.screenPresent p = true → t.chip.own =
        vupd s.chip.own (rSLC (lineOf p)) (· ++ [⟨.keyWord p (s.chip.screenAddr p 4016), .plain, false⟩])) ∧
      SameBut p s.chip.slc.drops t.chip.slc.drops ∧ t.chip.slc.lines = s.chip.slc.lines ∧
      s.chip.Only [.ap, .slc, .own] t.chip)) ∧
  (∀ (s : State) (p : Fin 12) (word : Fin 960) (v : Word) (e : BitVec 4), s.HostNext →
    s.chip.HostReaches .screens (s.chip.screenAddr p (4 * word.val)) →
    (e = 0 → exec (.screenRowWrite p word v e) s = .next { s with chip := s.chip.answerHost true [] }) ∧
    (e ≠ 0 → CompletesStored (.screenRowWrite p word v e) s fun t =>
      t.mem = writeWord s.mem (wrapAddr (s.chip.screenAddr p (4 * word.val))) ⟨v, e⟩ ∧
      (let a := s.chip.screen p
       let b := t.chip.screen p
       b = { a with dirty := b.dirty } ∧ ∀ r : Fin 25, hasRow b.dirty r = (hasRow a.dirty r || (r.val == word.val / 40 &&
         !(hasRow a.sweep r || a.flight == some ⟨r, false⟩)))) ∧
      SameBut p s.chip.scu.screens t.chip.scu.screens ∧ t.chip.ap.answer = some ⟨true, []⟩ ∧ s.chip.Only [.ap, .scu] t.chip)) ∧
  (∀ (s : State) (word : Fin 40) (v : Word) (e : BitVec 4), s.HostNext →
    s.chip.HostReaches .broadcast (s.chip.windowBase .broadcast + 4 * word.val) →
    (e = 0 → exec (.masterRowWrite word v e) s = .next { s with chip := s.chip.answerHost true [] }) ∧
    (e ≠ 0 → CompletesStored (.masterRowWrite word v e) s fun t =>
      t.mem = writeWord s.mem (wrapAddr (s.chip.windowBase .broadcast + 4 * word.val)) ⟨v, e⟩ ∧
      t.chip.scu = { s.chip.scu with fan := { s.chip.scu.fan with start := true } } ∧ t.chip.ap.answer = some ⟨true, []⟩ ∧
      s.chip.Only [.ap, .scu] t.chip)) ∧
  ∀ (s : State) (n : Fin 4) (x : Fin 8), s.HostNext → s.chip.HostReaches .print (s.chip.printAddr n x 0) →
    ((s.chip.slotStatus n x = .queued ∨ s.chip.slotStatus n x = .printing) →
      exec (.printSlotIdleWrite n x) s = .next { s with chip := s.chip.answerHost false [] }) ∧
    (s.chip.slotStatus n x ≠ .queued → s.chip.slotStatus n x ≠ .printing →
      CompletesStored (.printSlotIdleWrite n x) s fun t => t.mem = writeWord s.mem (wrapAddr (s.chip.printAddr n x 0)) (whole 0) ∧
        t.chip.printer n = { s.chip.printer n with slots := vput (s.chip.printer n).slots x .idle } ∧
        SameBut n s.chip.pru.printers t.chip.pru.printers ∧ t.chip.ap.answer = some ⟨true, []⟩ ∧
        s.chip.Only [.ap, .pru] t.chip)

/-- Host writes inside one window, word by word. What each owner answers for every word of its window (R5, R19, R31, R35, R55,
R77, R98, R129, R136; the settings: SettingsJudged), and which words are watched (R10). A burst inside one window: words without
a byte enable are passed over, and with none left the host has OKAY; the first other word is refused with ERROR, passed or
substituted to the store, or, if it is the last, held; a word whose operation would be held is refused when words follow it
(R11, R12); a partial write of a watched word first reads the store's word, and the merged word is judged (R10), the partial
write of a COMMIT, SUBMIT or request among them. The answer to a stored word: an ERROR ends the burst with ERROR, the words
after it not written; after an OKAY the word's owner acts and the next word is judged in the same way, under the same grant
(R11, R15). A passed word without an action of its own (operand words, posting slot words 0 to 10, the tails of windows, print
slot words 1 to 31) is stored under its byte enables, and nothing else changes. -/
def Obligations.HostWordsJudged : Prop :=
  (∀ (c : Chip) (m : List Host.Cell) (off : Nat) (v : Word), off % 4 = 0 →
    let answer (w : Window) := c.ownerAnswer m w off v
    let frozen := c.cu.day.state = .closed ∨ c.cu.day.state = .sending ∨ c.cu.day.state = .sent
    (off < 0x100 ∨ (0x10C ≤ off ∧ off < 0x148) ∨ (0x14C ≤ off ∧ off < 0x200) ∨ 0x5FC ≤ off → answer .setup = .refuse) ∧
    (off = 0x100 → answer .setup = .hold (.request v)) ∧ (off = 0x104 ∨ off = 0x108 → answer .setup = .pass) ∧
    (off = 0x148 → answer .setup = if v.toNat ≤ 63 then .pass else .refuse) ∧
    (624 ≤ off ∨ c.su.unitState = .rebuilding ∨ frozen → answer .journal = .refuse) ∧
    (off < 624 → c.su.unitState ≠ .rebuilding → ¬ frozen → (off % 48 ≠ 44 → answer .journal = .pass) ∧
      ∀ x : Fin 13, off = 48 * x.val + 44 → answer .journal = if v = 0x0F000000 then .hold (.commit x) else .refuse) ∧
    answer .totals = .refuse ∧ answer .report = .refuse ∧ answer .broadcast = .pass ∧
    answer .screens = (if 49152 ≤ off ∨ off % 4096 < 3840 ∨ (off % 4096 = 4020 ∧ v.toNat ≤ 31) then .pass else .refuse) ∧
    (4096 ≤ off → answer .print = .pass) ∧
    (∀ (n : Fin 4) (x : Fin 8) (k : Fin 32), off = 1024 * n.val + 128 * x.val + 4 * k.val → answer .print =
      if c.slotStatus n x = .queued ∨ c.slotStatus n x = .printing then .refuse
      else if k ≠ 0 ∨ v = 0 then .pass else if v = 1 then .hold (.submit n x) else .refuse) ∧
    (watched .setup off = true ↔ off = 0x100 ∨ off = 0x148 ∨ settingAtOffset off ≠ none) ∧
    (watched .journal off = true ↔ off < 624 ∧ off % 48 = 44) ∧ (watched .screens off = true ↔ off < 49152 ∧ off % 4096 = 4020) ∧
    (watched .print off = true ↔ off < 4096 ∧ off % 128 = 0) ∧
    watched .totals off = false ∧ watched .broadcast off = false ∧ watched .report off = false) ∧
  (∀ (s : State) (w : Window) (addr : Word) (skipped more : List WriteWord) (x : WriteWord), s.HostFree →
    let c := s.chip
    (∀ k < skipped.length + 1 + more.length, c.windowOf (wrapAddr (addr.toNat + 4 * k)) = some w) →
    (∀ z ∈ skipped, z.enables = 0) →
    let i : Instr := .hostWrite (.write addr (skipped ++ x :: more))
    let ends (okay : Bool) := exec i s = .next { s with chip := c.answerHost okay [] }
    let p : HostProg := ⟨.write addr (skipped ++ x :: more), wrapAddr (addr.toNat + 4 * skipped.length), x :: more, some w, c.windowBase w,
      false, .waiting .merge⟩
    let goesOn (next : HostNext) := Completes i s fun t => s.Only [.ap] t ∧ t.chip.ap.host = some { p with phase := .waiting next }
    let partly := watched w (p.addr - p.base) = true ∧ x.enables ≠ allBytes
    ((∀ z ∈ x :: more, z.enables = 0) → ends true) ∧
    (x.enables ≠ 0 → partly → goesOn .merge) ∧
    (x.enables ≠ 0 → ¬ partly → match c.ownerAnswer s.mem w (p.addr - p.base) x.value with
      | .refuse => ends false
      | .pass => goesOn (.word x.value x.enables false)
      | .substitute u => goesOn (.word u allBytes true)
      | .hold h => if more = [] then Completes i s fun t => t.chip.holds h else ends false)) ∧
  (∀ (s : State) (p : HostProg) (op : StoreOp) (w : Window) (v : Word) (e : BitVec 4) (subst : Bool), s.prompt = false →
    s.arb.port = .host op → s.chip.ap.host = some p → p.granted = true → p.window = some w → p.phase = .waiting (.word v e subst) →
    let m := op.effect s.mem
    let c := s.chip.ownerAction m w (p.addr - p.base) v subst
    let ends (okay : Bool) := Completes (.storeAnswer true) s fun t => t.mem = m ∧ t.arb.port = .idle ∧ t.chip = c.answerHost okay []
    (Completes (.storeAnswer false) s fun t =>
      t.mem = s.mem ∧ t.arb.port = .idle ∧ t.chip = s.chip.answerHost false []) ∧
    ((∀ z ∈ p.rest.drop 1, z.enables = 0) → ends true) ∧
    ∀ (skipped more : List WriteWord) (x : WriteWord), p.rest.drop 1 = skipped ++ x :: more → (∀ z ∈ skipped, z.enables = 0) →
      x.enables ≠ 0 →
      let addr := wrapAddr (p.addr + 4 * (skipped.length + 1))
      let goesOn (next : HostNext) (op' : StoreOp) := Completes (.storeAnswer true) s fun t => t.mem = m ∧
        t.arb.port = .host op' ∧ t.chip = c.setHost { p with addr := addr, rest := x :: more, phase := .waiting next }
      if watched w (addr - p.base) = true ∧ x.enables ≠ allBytes then goesOn .merge (.read addr 4 1)
      else match c.ownerAnswer m w (addr - p.base) x.value with
        | .refuse => ends false
        | .pass => goesOn (.word x.value x.enables false) (.write addr [x])
        | .substitute u => goesOn (.word u allBytes true) (.write addr [⟨u, allBytes⟩])
        | .hold h => if more = [] then Completes (.storeAnswer true) s fun t => t.mem = m ∧ t.arb.port = .idle ∧ t.chip.holds h
          else ends false) ∧
  (∀ (s : State) (w : Window) (addr v : Word) (e : BitVec 4), s.HostNext → s.chip.windowOf addr.toNat = some w →
    let off := addr.toNat - s.chip.windowBase w
    let merged := mergeWord (readWord s.mem addr.toNat) v e
    watched w off = true → e ≠ 0 → e ≠ allBytes → CompletesStored (.hostWrite (.write addr [⟨v, e⟩])) s fun t => t.mem = s.mem ∧
      match s.chip.ownerAnswer s.mem w off merged with
      | .refuse => s.chip.Only [.ap] t.chip ∧ t.chip.ap.answer = some ⟨false, []⟩ ∧ t.chip.ap.host = none ∧ t.arb.port = .idle
      | .pass => s.chip.Only [.ap] t.chip ∧ t.arb.port = .host (.write addr.toNat [⟨merged, e⟩])
      | .substitute u => s.chip.Only [.ap] t.chip ∧ t.arb.port = .host (.write addr.toNat [⟨u, allBytes⟩])
      | .hold h => t.chip.holds h ∧ t.arb.port = .idle) ∧
  ∀ (s : State) (w : Window) (addr v : Word) (e : BitVec 4), s.HostNext → s.chip.windowOf addr.toNat = some w → addr.toNat % 4 = 0 →
    let off := addr.toNat - s.chip.windowBase w
    let plain := match w with
      | .setup => off = 0x104 ∨ off = 0x108
      | .journal => off < 624 ∧ off % 48 ≠ 44 ∧ s.chip.su.unitState ≠ .rebuilding ∧ s.chip.cu.day.state.frozen = false
      | .screens => 49152 ≤ off
      | .broadcast => 160 ≤ off
      | .print => 4096 ≤ off ∨ (off % 128 ≠ 0 ∧ ∀ (n : Fin 4) (x : Fin 8), n.val = off / 1024 → x.val = off / 128 % 8 →
          s.chip.slotStatus n x ≠ .queued ∧ s.chip.slotStatus n x ≠ .printing)
      | _ => False
    plain → e ≠ 0 → CompletesStored (.hostWrite (.write addr [⟨v, e⟩])) s fun t =>
      t.mem = writeWord s.mem addr.toNat ⟨v, e⟩ ∧ t.chip.ap.answer = some ⟨true, []⟩ ∧ t.chip.ap.host = none ∧
      t.arb.port = .idle ∧ s.chip.Only [.ap] t.chip

/-- COMMIT and SUBMIT are held and their operation starts with its first read, or waits for a slot resolution under way (R12,
R56, R57, R137, R150); the word itself is not stored. COMMIT in REBUILDING or in a frozen day, and SUBMIT of a slot that is
QUEUED or PRINTING, are refused at once (R56, R136). A submission, when words 1 and 2 of its slot are read: the first of checks
1 to 5 of Table 8-3 that fails refuses it (a number 0 is not in the day: log 16), and otherwise JU reads the record (R137, R74),
its second burst, and for a VOID its original. The record read decides checks 6 to 10, in order: NOT_BOOK; VOIDED by the stamp,
by the unstamped list or, under the overflow mark, by its kind (R73); ALREADY_PRINTED unless REPRINT; DUPLICATE; STORE_ERROR for
a read that failed or found another record or a FREE stamp (logs 38 and 39, the model's readings). A refusal writes word 0
REFUSED with its reason, an acceptance writes it QUEUED; when that write is answered, either way, the submission ends: the
accepted entry joins the tail of its printer's queue and the host has OKAY, the refused one ERROR (R138). -/
def Obligations.CommitAndSubmitHeld : Prop :=
  (∀ (s : State) (x : Fin 13), s.HostFree → s.chip.HostReaches .journal (s.chip.slotAddr x.val 11) →
    (s.chip.su.unitState = .rebuilding ∨ s.chip.cu.day.state.frozen = true →
      exec (.commit x) s = .next { s with chip := s.chip.answerHost false [] }) ∧
    (s.chip.su.unitState ≠ .rebuilding → s.chip.cu.day.state.frozen = false → Completes (.commit x) s fun t =>
      s.Only [.ap, .ju, .own] t ∧ (∃ p, t.chip.ap.host = some p ∧ p.phase = .heldOwner (.commit x)) ∧
      (∃ po, t.chip.ju.posting = some po ∧ po.slot = x ∧ po.phase = if s.chip.ju.resolving = 0 then .running else .waiting) ∧
      t.chip.own = (if s.chip.ju.resolving = 0 then
        vupd s.chip.own rJU (· ++ [⟨.read (s.chip.slotAddr x.val 0) 4 8, .post .readA, false⟩]) else s.chip.own))) ∧
  (∀ (s : State) (n : Fin 4) (x : Fin 8), s.HostFree → s.chip.HostReaches .print (s.chip.printAddr n x 0) →
    ((s.chip.slotStatus n x = .queued ∨ s.chip.slotStatus n x = .printing) →
      exec (.submit n x) s = .next { s with chip := s.chip.answerHost false [] }) ∧
    (s.chip.slotStatus n x ≠ .queued → s.chip.slotStatus n x ≠ .printing → Completes (.submit n x) s fun t =>
      s.Only [.ap, .pru, .own] t ∧ (∃ p, t.chip.ap.host = some p ∧ p.phase = .heldOwner (.submit n x)) ∧
      (∃ b, t.chip.pru.submission = some b ∧ b.printer = n ∧ b.slot = x ∧ b.waiting = decide (s.chip.pru.scanning ≠ 0)) ∧
      t.chip.pru.printers = s.chip.pru.printers ∧
      t.chip.own = (if s.chip.pru.scanning = 0 then
        vupd s.chip.own rPRU (· ++ [⟨.read (s.chip.printAddr n x 1) 4 2, .subRead, false⟩]) else s.chip.own))) ∧
  (∀ (s : State) (b : Submission) (addr : Nat) (op : StoreOp) (seq ref : Nat) (front vws : List Word), s.prompt = false →
    s.chip.pru.submission = some b →
    let c := s.chip
    let asks (u : Fin 9) (o : OwnOp) (tag : Tag) (t : State) : Prop := t.chip.own = vupd c.own u (· ++ [⟨o, tag, false⟩])
    let outcome (st : SlotStatus) (tag : Tag) (t : State) : Prop := t.mem = s.mem ∧ t.chip.slotStatus b.printer b.slot = st ∧
      SameBut b.printer c.pru.printers t.chip.pru.printers ∧ asks rPRU (.write (c.printAddr b.printer b.slot 0) [st.word]) tag t
    let refused (r : Reason) := outcome (.refused r.code) .subRefused
    let failed : State → Prop := if b.entry.seq ∈ c.pendingSeqs then refused .duplicate else refused .storeError
    let judged (seq : Nat) (code : Nat) (stamp : Word) : State → Prop :=
      if stampPrint stamp = .notBook then refused .notBook
      else if stampStatus stamp = .voided ∨ seq ∈ c.ju.unstamped ∨ (c.ju.overflowMark = true ∧ 3 ≤ code ∧ code ≤ 7) then refused .voided
      else if (stampPrint stamp = .printed ∨ stampPrint stamp = .doubtful) ∧ b.entry.reprint = false then refused .alreadyPrinted
      else if b.entry.seq ∈ c.pendingSeqs then refused .duplicate else outcome .queued .subQueued
    let ws := front ++ readWords s.mem addr 4 4
    let r := recordOfWords ws
    (s.arb.port = .own rPRU op .subRead false → Completes (.storeAnswer false) s (refused .storeError)) ∧
    (s.arb.port = .own rPRU (.read addr 4 2) .subRead false → Completes (.storeAnswer true) s fun t =>
      let n := (readWord s.mem addr).toNat
      let w := readWord s.mem (addr + 4)
      let line := field w 0 8
      let page := field w 8 8
      t.chip.pru.submission = some { b with entry := ⟨b.slot, n, line, page, flagAt w 16, flagAt w 17⟩ } ∧
      if c.su.unitState = .rebuilding then refused .notReady t
      else if c.cu.day.state ≠ .dayOpen then refused .dayState t
      else if c.prn b.printer .present ≠ 1 then refused .noPrinter t
      else if line = 0 ∨ c.prn b.printer .linesPerPage < line ∨ page = 0 then refused .lineRange t
      else if n = 0 ∨ seqDistance c.cu.day.first c.ju.nextSeq ≤ seqDistance c.cu.day.first n then refused .notInDay t
      else t.chip.pru.printers = c.pru.printers ∧ asks rJU (.read (c.ringAddr n 0) 4 8) (.recordA .submission n) t) ∧
    (∀ tag, s.arb.port = .own rJU op tag false → tag ∈ [.recordA .submission seq, .recordB .submission seq front,
      .originalA .submission vws ref, .originalB .submission vws ref front] → Completes (.storeAnswer false) s failed) ∧
    (s.arb.port = .own rJU (.read addr 4 8) (.recordA .submission seq) false → Completes (.storeAnswer true) s
      (asks rJU (.read (addr + 32) 4 4) (.recordB .submission seq (readWords s.mem addr 4 8)))) ∧
    (s.arb.port = .own rJU (.read addr 4 8) (.originalA .submission vws ref) false → Completes (.storeAnswer true) s
      (asks rJU (.read (addr + 32) 4 4) (.originalB .submission vws ref (readWords s.mem addr 4 8)))) ∧
    (s.arb.port = .own rJU (.read addr 4 4) (.recordB .submission seq front) false → Completes (.storeAnswer true) s
      (if r.seq ≠ seq ∨ stampStatus (wordAt ws 11) = .free then failed
      else if r.code = 8 then asks rJU (.read (c.ringAddr r.reference 0) 4 8) (.originalA .submission ws r.reference)
      else judged seq r.code (wordAt ws 11))) ∧
    (s.arb.port = .own rJU (.read addr 4 4) (.originalB .submission vws ref front) false → Completes (.storeAnswer true) s
      (if r.seq ≠ ref ∨ stampStatus (wordAt ws 11) = .free then failed
      else judged (recordOfWords vws).seq (recordOfWords vws).code (wordAt vws 11)))) ∧
  ∀ (s : State) (b : Submission) (op : StoreOp) (okay : Bool), s.prompt = false → s.chip.pru.submission = some b →
    let ended (t : State) (accepted : Bool) : Prop := t.chip.pru.submission = none ∧ t.chip.ap.host = none ∧
      t.chip.ap.answer = some ⟨accepted, []⟩ ∧ (okay = true → t.chip.su = s.chip.su) ∧
      (okay = false → s.chip.su.reports.length < 16 → t.chip.su = { s.chip.su with
        reports := s.chip.su.reports ++ [⟨.storeError, rPRU.val, pageOf op.addr, s.chip.su.ms⟩] })
    (s.arb.port = .own rPRU op .subQueued false → Completes (.storeAnswer okay) s fun t => ended t true ∧
      t.chip.printer b.printer = { s.chip.printer b.printer with queue := (s.chip.printer b.printer).queue ++ [b.entry] } ∧
      SameBut b.printer s.chip.pru.printers t.chip.pru.printers) ∧
    (s.arb.port = .own rPRU op .subRefused false → Completes (.storeAnswer okay) s fun t => ended t false ∧
      t.chip.pru.printers = s.chip.pru.printers)

/-! ### Postings -/

/-- The checks of a posting in the order of Table 4-4: its slot's words 0 to 10 are read as bursts of 8 and 3, and the first
check that fails refuses it with its reason and detail (R59); with none failing it is accepted (see PostingSteps), or, a VOID of
one of the day's numbers, its original is read first as bursts of 8 and 4 (R71) and the checks go on with the values copied from
it (R72). Checks 2 to 5 (R60, R58, R69), 6 to 9 (R39, R40; see AmountStages), 10 to 13 (R60 to R62), 14 to 18 (R71, R72, R41). A
DAMAGED marking asked for and not yet made counts as made (R73; log 50). That 0 is never one of the day's numbers is log 16's
reading. The number after the last is 1, the distance to the number `k` steps on is `k`, and the ring has a slot of its own for
each of a capacity of consecutive numbers (R64, R69). -/
def Obligations.PostingsJudged : Prop :=
  (seqAfter 4294967295 = 1 ∧
    (∀ n k : Nat, 0 < n → n ≤ 4294967295 → k < 4294967295 → seqPlus n (k + 1) = seqAfter (seqPlus n k) ∧
      seqDistance n (seqPlus n k) = k) ∧
    ∀ n j k cap : Nat, 0 < n → n + cap ≤ 4294967296 → j < k → k < cap → ringSlot (n + j) cap ≠ ringSlot (n + k) cap) ∧
  ∀ (s : State) (po : Posting) (addr : Nat), s.prompt = false → s.chip.ju.posting = some po →
    s.chip.cu.day.state.frozen = false →
    let c := s.chip
    let slot := po.slot
    let day := c.cu.day
    let number (x : Nat) := x ≠ 0 ∧ seqDistance day.first x < seqDistance day.first c.ju.nextSeq
    let notIn (i : Nat) (ok : List DrawerState) : Prop := ∀ x : Fin 13, x.val = i → (c.drawer x).state ∉ ok
    let each (f : Fin 10 → Prop) (why : Reason) : List (Prop × Reason × Nat) := (List.finRange 10).map fun d => (f d, why, d.val)
    let reads (po' : Posting) : Chip := c.onJu fun j => { j with posting := some po' }
    -- the first check that fails refuses the posting; with none failing, the part is as in `passed`
    let ends (po' : Posting) (checks : List (Prop × Reason × Nat)) (passed : Chip) : Prop :=
      (∀ (n : Nat) (bad : Prop) (why : Reason) (detail : Nat), checks[n]? = some (bad, why, detail) → bad →
        (∀ m < n, ∀ e, checks[m]? = some e → ¬ e.1) → Completes (.storeAnswer true) s fun t => t.mem = s.mem ∧
          t.chip = (reads po').push rJU (.write (c.slotAddr slot.val 11) [outcomeRefused why detail]) (.post .refused)) ∧
      ((∀ e ∈ checks, ¬ e.1) → Completes (.storeAnswer true) s fun t => t.mem = s.mem ∧ t.chip = passed)
    let asks (po' : Posting) (o : OwnOp) (next : PostStep) : Prop := ends po' [] ((reads po').push rJU o (.post next))
    (s.arb.port = .own rJU (.read addr 4 8) (.post .readA) false → asks { po with words := readWords s.mem addr 4 8 }
      (.read (c.slotAddr slot.val 8) 4 3) .readB) ∧
    (s.arb.port = .own rJU (.read addr 4 3) (.post .readB) false →
      let ws := po.words ++ readWords s.mem addr 4 3
      let po' := { po with words := ws }
      let r := recordOfWords ws
      let some' := ∃ d : Fin 10, countAt r.counts d ≠ 0
      let sum := ((List.finRange 10).map fun d => countAt r.counts d * countAt c.faces d).sum
      let v := r.reference
      ends po'
        ([(c.su.unitState = .rebuilding, .notReady, 0),
          (if day.state = .noDay then r.code ≠ 1 else r.code = 1 ∨ day.damaged = true ∨ c.cu.damage ≠ [], .dayState, 0),
          (r.code = 0 ∨ 12 < r.code, .badKind, 0),
          ((r.code ∈ [1, 10, 11] ∧ slot ≠ 12) ∨ (r.code = 2 ∧ slot = 12), .wrongSlot, 0),
          (day.recordCount = c.capacity ∨ ∃ k < seqDistance day.first c.ju.nextSeq,
            (c.ju.nextSeq - 1) % c.capacity = (seqPlus day.first k - 1) % c.capacity, .journalFull, 0),
          (r.code ≠ 8 ∧ 999999999999 < r.amount, .amountRange, 0)]
        ++ each (fun d => r.code ≠ 8 ∧ countAt c.faces d = 0 ∧ countAt r.counts d ≠ 0) .unusedDenom
        ++ [((r.code ∈ [5, 6] ∧ some') ∨ (r.code ∈ [2, 10, 11, 12] ∧ (some' ∨ r.amount ≠ 0)), .countsNotAllowed, 0),
          (r.code ∈ [1, 3, 4, 7, 9] ∧ sum ≠ r.amount, .denomMismatch, 0),
          ((r.code = 7 ∧ (12 < r.target ∨ r.target = slot.val)) ∨ (r.code = 10 ∧ 12 < r.target) ∨ (r.code = 11 ∧ 11 < r.target),
            .badTarget, r.target),
          (r.code = 2 ∧ notIn slot.val [.unused], .drawerState, slot.val),
          (r.code ∈ [3, 4, 5, 6, 7] ∧ notIn slot.val [.drawerOpen], .drawerState, slot.val),
          (r.code = 7 ∧ notIn r.target [.drawerOpen], .drawerState, r.target),
          (r.code = 9 ∧ notIn slot.val [.drawerOpen, .difference], .drawerState, slot.val),
          (r.code = 10 ∧ notIn r.target [.difference], .drawerState, r.target),
          (r.code = 11 ∧ notIn r.target [.balanced], .drawerState, r.target),
          (r.code = 1 ∧ ¬ (1 ≤ v / 10000 ∧ v / 10000 ≤ 9999 ∧ 1 ≤ v / 100 % 100 ∧ v / 100 % 100 ≤ 12 ∧ 1 ≤ v % 100 ∧
            v % 100 ≤ 31), .badDate, 0),
          (r.code = 1 ∧ day.previousDate ≠ 0 ∧ v ≤ day.previousDate, .dateNotAfter, 0),
          (r.code = 8 ∧ ¬ number v, .voidRef, 0)]
        ++ each (fun d => r.code ∈ [4, 7] ∧ countAt (c.drawer slot).counts d < countAt r.counts d) .shortDenom
        ++ each (fun d => r.code ∈ [3, 7] ∧ ∃ x : Fin 13, x.val = (if r.code = 7 then r.target else slot.val) ∧
            65535 < countAt (c.drawer x).counts d + countAt r.counts d) .countLimit)
        (match recordKindOfCode r.code with
          | none => c
          | some .void => (reads po').push rJU (.read (c.ringAddr v 0) 4 8) (.post .origA)
          | some k => (reads po').acceptPosting po' k r)) ∧
    (s.arb.port = .own rJU (.read addr 4 8) (.post .origA) false → asks { po with orig := readWords s.mem addr 4 8 }
      (.read (c.ringAddr (recordOfWords po.words).reference 8) 4 4) .origB) ∧
    (s.arb.port = .own rJU (.read addr 4 4) (.post .origB) false →
      let orig := po.orig ++ readWords s.mem addr 4 4
      let po' := { po with orig := orig }
      let r := recordOfWords po.words
      let o := recordOfWords orig
      let v := r.reference
      ends po'
        ([(o.seq ≠ v ∨ recordCrc orig ≠ stampCrc (wordAt orig 11) ∨ stampStatus (wordAt orig 11) ≠ .posted ∨
            v ∈ c.ju.unstamped ∨ o.code ∉ [3, 4, 5, 6, 7] ∨ o.position ≠ slot.val, .voidRef, 0),
          (∃ n : Fin 4, (∃ e ∈ (c.printer n).queue, e.seq = v) ∨ ∃ x, (c.printer n).service = some x ∧ x.entry.seq = v,
            .printPending, 0),
          (notIn slot.val [.drawerOpen], .drawerState, slot.val),
          (o.code = 7 ∧ notIn o.target [.drawerOpen], .drawerState, o.target)]
        ++ each (fun d => o.code ∈ [3, 7] ∧ ∃ x : Fin 13, x.val = (if o.code = 7 then o.target else slot.val) ∧
            countAt (c.drawer x).counts d < countAt o.counts d) .shortDenom
        ++ each (fun d => o.code ∈ [4, 7] ∧ 65535 < countAt (c.drawer slot).counts d + countAt o.counts d) .countLimit)
        ((reads po').acceptPosting po' .void
          { r with
            target := o.target, book := o.book, amount := o.amount, counts := o.counts
            original := recordKindOfCode o.code }))

/-- The accesses of a posting answered OKAY, in the order of Table 4-6: each asks for the next, the stamp's answer moves the
next sequence number on, and the last ends the posting with OKAY (R64). A record that has passed its checks takes the next
sequence number; a DAY_OPEN with no previous day's date first clears word 11 of every ring slot of the capacity (R67). A store
ERROR before the commit point refuses the posting with STORE_ERROR, detail 0, the store, the counts and the next sequence number
standing as they were (R65, R59); the refusal's own answer ends the hold with ERROR (R63). One after it is reported and changes
nothing of what follows: the posting ends OKAY (R65). A VOIDED stamp that cannot be written joins the unstamped list, or the
overflow mark is set and DAMAGED is asked for (R73). The ring is cleared from slot 0 up (log 76), and an original's print-state
code above 3 is written NOT_BOOK in its VOIDED stamp (log 82): the model's choices. -/
def Obligations.PostingSteps : Prop :=
  (∀ (c : Chip) (po : Posting) (k : RecordKind) (r : JRecord),
    let d := c.acceptPosting po k r
    (∃ q, d.ju.posting = some q ∧ q.slot = po.slot ∧ q.record = { r with
      seq := c.ju.nextSeq, position := po.slot.val
      target := if k = .transfer ∨ k = .acceptDifference ∨ k = .reopen ∨ k = .void then r.target else 0 }) ∧
    d.own = vupd c.own rJU (· ++ [if k = .dayOpen ∧ c.cu.day.previousDate = 0
      then ⟨.write (c.journalAddr (1024 + 44)) [0], .post (.clear 0), false⟩
      else ⟨.write (c.slotAddr po.slot.val 11) [outcomeInPosting c.ju.nextSeq], .post .inPosting, false⟩])) ∧
  ∀ (s : State) (po : Posting) (op : StoreOp) (st : PostStep), s.prompt = false → s.chip.ju.posting = some po →
    s.arb.port = .own rJU op (.post st) false →
    let c := s.chip
    let seq := po.record.seq
    let asks (o : OwnOp) (next : PostStep) : Prop := Completes (.storeAnswer true) s fun t =>
      t.mem = op.effect s.mem ∧ t.chip = c.push rJU o (.post next)
    (∀ k, st = .clear k → k + 1 < c.capacity →
      asks (.write (c.journalAddr (1024 + 48 * (k + 1) + 44)) [0]) (.clear (k + 1))) ∧
    (∀ k, st = .clear k → c.capacity ≤ k + 1 → asks (.write (c.slotAddr po.slot.val 11) [outcomeInPosting seq]) .inPosting) ∧
    (st = .inPosting → asks (.write (c.ringAddr seq 11) [0]) .free) ∧
    (st = .free → asks (.write (c.ringAddr seq 0) (po.record.words.take 8)) .recA) ∧
    (st = .recA → asks (.write (c.ringAddr seq 8) (po.record.words.drop 8)) .recB) ∧
    (st = .recB → asks (.write (c.ringAddr seq 11)
      [stampWord (recordCrc po.record.words) (if po.record.book = true then .notPrinted else .notBook) .posted]) .stamp) ∧
    (st = .stamp → po.record.code ≠ 8 → Completes (.storeAnswer true) s fun t =>
      t.mem = op.effect s.mem ∧ t.chip.ju = { c.ju with nextSeq := seqAfter seq, posting := some { po with phase := .handed } } ∧
      c.Only [.ju] t.chip) ∧
    (st = .stamp → po.record.code = 8 → Completes (.storeAnswer true) s fun t =>
      t.mem = op.effect s.mem ∧ t.chip.ju = { c.ju with nextSeq := seqAfter seq } ∧
      t.chip.own = vupd c.own rJU (· ++ [⟨.write (c.ringAddr po.record.reference 11)
        [stampWord (stampCrc (wordAt po.orig 11)) (stampPrint (wordAt po.orig 11)) .voided], .post .voided, false⟩])) ∧
    (st = .voided → Completes (.storeAnswer true) s fun t =>
      t.chip.ju = { c.ju with posting := some { po with phase := .handed } } ∧ c.Only [.ju] t.chip) ∧
    (st = .voided → Completes (.storeAnswer false) s fun t =>
      let room := c.ju.unstamped.length < 8
      t.mem = s.mem ∧ c.Told t.chip false rJU op.addr ∧ t.chip.ju = { c.ju with
        posting := some { po with phase := .handed }
        unstamped := if room then c.ju.unstamped ++ [po.record.reference] else c.ju.unstamped
        overflowMark := c.ju.overflowMark || !decide room } ∧
      t.chip.cu = { c.cu with damage := if room then c.cu.damage else c.cu.damage ++ [po.record.reference] }) ∧
    (st = .word0 → asks (.write (c.slotAddr po.slot.val 11) [outcomePosted seq]) .outcome) ∧
    (st = .outcome → Completes (.storeAnswer true) s fun t =>
      t.mem = op.effect s.mem ∧ t.chip.ju = { c.ju with posting := none } ∧ t.chip.ap.answer = some ⟨true, []⟩ ∧
      t.chip.ap.host = none ∧ c.Only [.ap, .ju] t.chip) ∧
    (st = .word0 → Completes (.storeAnswer false) s fun t => t.mem = s.mem ∧ c.Told t.chip false rJU op.addr ∧
      t.chip.ju = c.ju ∧ t.chip.ap = c.ap ∧ t.chip.own[rJU.val] = c.own[rJU.val] ++
        [⟨.write (c.slotAddr po.slot.val 11) [outcomePosted seq], .post .outcome, false⟩]) ∧
    (st = .outcome → Completes (.storeAnswer false) s fun t => t.mem = s.mem ∧ c.Told t.chip false rJU op.addr ∧
      t.chip.ju = { c.ju with posting := none } ∧ t.chip.cu = c.cu ∧ t.chip.ap.answer = some ⟨true, []⟩ ∧ t.chip.ap.host = none) ∧
    (st ∈ [.readA, .readB, .origA, .origB, .inPosting, .free, .recA, .recB, .stamp] ∨ (∃ k, st = .clear k) →
      Completes (.storeAnswer false) s fun t => t.mem = s.mem ∧ t.chip =
        s.chip.push rJU (.write (s.chip.slotAddr po.slot.val 11) [outcomeRefused .storeError 0]) (.post .refused)) ∧
    (st = .refused → ∀ okay : Bool, Completes (.storeAnswer okay) s fun t =>
      c.Told t.chip okay rJU op.addr ∧ t.chip.ap.answer = some ⟨false, []⟩ ∧ t.chip.ap.host = none ∧
      t.chip.ju = { s.chip.ju with posting := none } ∧ t.chip.cu = s.chip.cu)

/-- Checks 6 to 9 of a posting, stages 1 to 4 (R39, R40): which amounts and counts a record of each kind may carry, and the
reason and detail of the first stage that fails, the lowest denomination for UNUSED_DENOM. The amount of a cash-carrying record
is the sum of its counts times their faces. A VOID's copied values pass where those of its original's kind do. -/
def Obligations.AmountStages : Prop :=
  ∀ (faces : Vector Nat 10) (k : RecordKind) (r : JRecord),
    let inRange := r.amount ≤ 999999999999
    let used := ∀ d : Fin 10, countAt faces d = 0 → countAt r.counts d = 0
    let sum := ((List.finRange 10).map fun d => countAt r.counts d * countAt faces d).sum
    let empty := ∀ d : Fin 10, countAt r.counts d = 0
    let allowed := (k ∈ [.noncashIn, .noncashOut] → empty) ∧
      (k ∈ [.openDrawer, .note, .reopen, .acceptDifference] → empty ∧ r.amount = 0)
    let matched := k ∈ [.dayOpen, .cashIn, .cashOut, .transfer, .declare] → sum = r.amount
    (amountChecks faces k r = none ↔ inRange ∧ used ∧ allowed ∧ matched) ∧
    (¬ inRange → amountChecks faces k r = some (.amountRange, 0)) ∧
    (∀ d : Fin 10, inRange → countAt faces d = 0 → countAt r.counts d ≠ 0 →
      (∀ e : Fin 10, e < d → countAt faces e = 0 → countAt r.counts e = 0) →
      amountChecks faces k r = some (.unusedDenom, d.val)) ∧
    (inRange → used → ¬ allowed → amountChecks faces k r = some (.countsNotAllowed, 0)) ∧
    (inRange → used → allowed → ¬ matched → amountChecks faces k r = some (.denomMismatch, 0)) ∧
    (amountChecks faces k r = none → amountChecks faces .void r = none)

/-! ### Requests -/

/-- The day's requests. CLOSE_DAY (R168, R169): the first check that fails refuses it and nothing else changes; a close
certifies the summed counts, makes the day CLOSED, withdraws every release (R132) and asks for the anchor writes. The last of
them answered OKAY, none having failed, asks for the day-record CRC write, whose answer ends the request DONE; after a failed
one there is no CRC write and the request ends at once (log 52, the model's reading). START_SEND (R171, R185) and CLEAR_DAY
(R174, Table 10-5): refused with DAY_STATE in another day state; a send is handed to HLC from frame 0, ACTIVE when the link is
UP; a cleared day's record and drawers are those of Table 10-5, with no DAMAGED request still waiting (log 50), each EXCESS flag
that was set is reported cleared, positions 0 to 11 in order (log 78, the model's choice), and every status row is to be
rendered. CLEAR_DAY's writes (R175): the anchor part, the CRC, the running part, the mirrors with TOTALS enabled, and EMPTY in
word 11 of the thirteen posting slots, from slot 0 on (log 77, the model's choice), with the journal usable; the last answered,
either way, the request is DONE. After a failed anchor burst: RecordsWritten. -/
def Obligations.DayRequestsServed : Prop :=
  (∀ s : State, s.HostFree → s.chip.SetupWord 0x100 → s.chip.su.unitState = .ready →
    let c := s.chip
    let bad (p : Fin 12) := (c.drawerOf p).state = .drawerOpen ∨ (c.drawerOf p).state = .difference
    let busy (n : Fin 4) := (c.printer n).queue ≠ [] ∨ (c.printer n).service ≠ none
    let refused (r : Reason) (d : Nat) := Completes .closeDay s fun t =>
      s.Only [.ap, .su, .own] t ∧ t.chip.own = vupd c.own rSU (· ++ [resultAsked c 1 (some r) d])
    (c.cu.day.state ≠ .dayOpen → refused .dayState 0) ∧
    (∀ p : Fin 12, c.cu.day.state = .dayOpen → bad p → (∀ q < p, ¬ bad q) → refused .drawerNotBalanced p.val) ∧
    (c.cu.day.state = .dayOpen → (∀ p, ¬ bad p) → (c.drawer 12).state ≠ .balanced → refused .reserveNotBalanced 12) ∧
    (∀ n : Fin 4, c.cu.day.state = .dayOpen → (∀ p, ¬ bad p) → (c.drawer 12).state = .balanced → busy n →
      (∀ m < n, ¬ busy m) → refused .printPending n.val) ∧
    (c.cu.day.state = .dayOpen → (∀ p, ¬ bad p) → (c.drawer 12).state = .balanced → (∀ n, ¬ busy n) →
      Completes .closeDay s fun t =>
        t.chip.cu = { c.cu with day := { c.cu.day with state := .closed, closingCounts := t.chip.cu.day.closingCounts } } ∧
        (∀ d : Fin 10, countAt t.chip.cu.day.closingCounts d =
          ((List.finRange 13).map fun i => countAt (c.drawer i).counts d).sum) ∧
        (∀ p : Fin 12, t.chip.drop p = { c.drop p with pulse := none }) ∧
        (∃ front r, t.chip.own[rCU.val] = c.own[rCU.val] ++ front ++ [r] ∧ r.tag = .anchor 3 .request) ∧
        s.Only [.ap, .su, .cu, .scu, .slc, .own] t)) ∧
  (∀ (s : State) (op : StoreOp) (code : Nat), s.prompt = false → s.chip.su.request = some code →
    (s.arb.port = .own rCU op (.anchor 3 .request) false → ∀ okay : Bool, Completes (.storeAnswer okay) s fun t =>
      t.chip.cu.day = s.chip.cu.day ∧
      (t.chip.own[rSU.val] : List OwnReq).getLast? = some
        (if okay = true ∧ s.chip.cu.anchorBad = false then ⟨.dayCrc, .dayCrc .request, false⟩
         else resultAsked s.chip code none 0)) ∧
    (s.arb.port = .own rSU op (.dayCrc .request) false → ∀ okay : Bool, Completes (.storeAnswer okay) s fun t =>
      t.chip.cu = s.chip.cu ∧ (t.chip.own[rSU.val] : List OwnReq).getLast? = some (resultAsked s.chip code none 0))) ∧
  (∀ s : State, s.HostFree → s.chip.SetupWord 0x100 → s.chip.su.unitState = .ready →
    (s.chip.cu.day.state ≠ .closed → Completes .startSend s fun t => s.Only [.ap, .su, .own] t ∧
      t.chip.own = vupd s.chip.own rSU (· ++ [resultAsked s.chip 2 (some .dayState) 0])) ∧
    (s.chip.cu.day.state = .closed → Completes .startSend s fun t =>
      t.chip.cu = { s.chip.cu with day := { s.chip.cu.day with state := .sending } } ∧
      (∃ x, t.chip.hlc.send = some x ∧ x.next = 0 ∧ x.out = [] ∧ x.acked = 0 ∧ x.recent = [] ∧ x.resend = none ∧
        x.total = (s.chip.cu.day.recordCount + 4) / 5 + 7 ∧
        x.state = (if s.chip.hlc.link = .up then .active else .suspended) ∧
        x.resumeTimer = (if s.chip.hlc.link = .up then none else some (s.chip.linkSet .resumeTime * 60000))) ∧
      t.chip.scu.ackedFrames = 0 ∧ t.chip.hlc.link = s.chip.hlc.link ∧
      s.Only [.ap, .su, .cu, .scu, .slc, .hlc, .own] t)) ∧
  (∀ (s : State) (u : Fin 9) (op : StoreOp) (tag : Tag) (code : Nat) (okay : Bool), s.prompt = false → s.chip.su.request = some code →
    s.arb.port = .own u op tag false →
    let c := s.chip
    let totals := c.windowEnabled .totals = true
    let done (t : State) : Prop := (t.chip.own[rSU.val] : List OwnReq).getLast? = some (resultAsked c code none 0)
    (u = rSU → tag = .dayCrc .clearStore → Completes (.storeAnswer okay) s fun t => c.Told t.chip okay rSU op.addr ∧
      t.chip.cu = c.cu ∧ t.chip.own[rCU.val] = c.own[rCU.val] ++
        if totals then c.runningAsked .nothing ++ c.mirrorsAsked .clearSlots else c.runningAsked .clearSlots) ∧
    (u = rCU → tag = .mirror 12 3 .clearSlots ∨ tag = .running 1 .clearSlots → Completes (.storeAnswer okay) s fun t =>
      if c.ap.journalUsable = true then c.Told t.chip okay rCU op.addr ∧ t.chip.own[rJU.val] = c.own[rJU.val] ++
        (List.range 13).map fun k => ⟨.write (c.slotAddr k 11) [0], .slotEmpty (k == 12), false⟩
      else done t) ∧
    ∀ last, u = rJU → tag = .slotEmpty last → Completes (.storeAnswer okay) s fun t => c.Told t.chip okay rJU op.addr ∧
      t.chip.ju = c.ju ∧ (last = false → t.chip.own[rJU.val] = c.own[rJU.val] ∧ (okay = true → t.chip.own = c.own)) ∧
      (last = true → done t)) ∧
  ∀ s : State, s.HostFree → s.chip.SetupWord 0x100 → s.chip.su.unitState = .ready →
    (s.chip.cu.day.state ≠ .sent → Completes .clearDay s fun t => s.Only [.ap, .su, .own] t ∧
      t.chip.own = vupd s.chip.own rSU (· ++ [resultAsked s.chip 3 (some .dayState) 0])) ∧
    (s.chip.cu.day.state = .sent → s.chip.cu.damage = [] → Completes .clearDay s fun t =>
      s.chip.Reports t.chip (((List.finRange 12).filter fun p => (s.chip.drawerOf p).excess).map fun p => (.excessCleared, p.val, 0)) ∧
      (∀ p : Fin 12, .status p ∈ t.chip.scu.work) ∧
      t.chip.own[rCU.val] = s.chip.own[rCU.val] ++ staleAsked ++ t.chip.anchorAsked .clearStore ∧
      (let d := s.chip.cu.day
       t.chip.cu.day = { DayRecord.reset with
         previousDate := d.date, first := d.next, next := d.next, closingCounts := d.closingCounts, batch := d.batch,
         failure := d.failure }) ∧
      (∀ p : Fin 12, t.chip.drawerOf p = .reset) ∧ t.chip.drawer 12 = { Drawer.reset with excess := (s.chip.drawer 12).excess } ∧
      t.chip.ju = { s.chip.ju with nearFull := false, overflowMark := false, unstamped := [] } ∧
      s.Only [.ap, .su, .ju, .cu, .scu, .slc, .own] t)

/-- LINK_RESET (R193, R178): the link is DOWN, or CALLING at once when the line is ready, the error count 0, an ACTIVE or HELD
send SUSPENDED, and the request DONE. A code that names no request is refused with BAD_REQUEST, and a request that REBUILDING
does not serve with NOT_READY; an ERROR of the read of the operands refuses with STORE_ERROR; an operand that is out of Table
2-5's range, an operand or field that Table 12-3 does not assign and that is not 0, and a mode code that names no mode refuse
with BAD_OPERAND (R31). The answer to the write of the result area ends the hold, the host having OKAY for DONE and ERROR for
REFUSED; its own ERROR is reported and changes neither (R32). -/
def Obligations.LinkResetAndBadRequests : Prop :=
  (∀ s : State, s.HostFree → s.chip.SetupWord 0x100 → s.chip.su.unitState = .ready → Completes .linkReset s fun t =>
    t.chip.hlc.link = (if s.chip.lineReady = true then .calling else .down) ∧
    t.chip.hlc.errors = 0 ∧
    t.chip.hlc.send = (if s.chip.hlc.link = .down then s.chip.hlc.send
      else s.chip.hlc.send.map fun x => if x.state = .active ∨ x.state = .held then
        { x with state := .suspended, resend := none, ackTimer := none, holdTimer := none,
                 resumeTimer := some (s.chip.linkSet .resumeTime * 60000) } else x) ∧
    (t.chip.own[rSU.val] : List OwnReq).getLast? = some (resultAsked s.chip 4 none 0) ∧
    s.Only [.ap, .su, .hlc, .own] t) ∧
  (∀ (s : State) (code : Word), s.HostFree → s.chip.SetupWord 0x100 → (code = 0 ∨ 12 < code.toNat) →
    Completes (.badRequest code) s fun t => s.Only [.ap, .su, .own] t ∧
      t.chip.own = vupd s.chip.own rSU (· ++ [resultAsked s.chip code.toNat (some .badRequest) 0]) ∧
      t.chip.su = { s.chip.su with request := some code.toNat }) ∧
  (∀ (s : State) (i : Instr) (code : Nat), s.HostFree → s.chip.SetupWord 0x100 → s.chip.su.unitState = .rebuilding →
    requestWritten i = some code → code ∉ [9, 10, 11] → 1 ≤ code → code ≤ 12 →
    Completes i s fun t => s.Only [.ap, .su, .own] t ∧
      t.chip.own = vupd s.chip.own rSU (· ++ [resultAsked s.chip code (some .notReady) 0])) ∧
  (∀ (s : State) (op : StoreOp) (addr code : Nat), s.prompt = false → s.chip.su.request = some code → 5 ≤ code → code ≤ 12 →
    let op0 := readWord s.mem addr
    let op1 := readWord s.mem (addr + 4)
    let refused (okay : Bool) (why : Reason) : Prop := Completes (.storeAnswer okay) s fun t => t.mem = s.mem ∧
      t.chip = { s.chip with own := vupd s.chip.own rSU (· ++ [resultAsked s.chip code (some why) 0]) }
    (s.arb.port = .own rSU op (.operands code) false → refused false .storeError) ∧
    (s.arb.port = .own rSU (.read addr 4 2) (.operands code) false →
      (code ≤ 8 ∧ (3 < op0.toNat ∨ op1 ≠ 0)) ∨
      (code = 9 ∧ (11 < op0.toNat ∨ op1 &&& 0x001F1F07 ≠ op1 ∨ field op1 0 2 = 3)) ∨
      (code = 11 ∧ (2 < op0.toNat ∨ op1 ≠ 0)) ∨ (code ∈ [10, 12] ∧ (11 < op0.toNat ∨ op1 ≠ 0)) → refused true .badOperand)) ∧
  ∀ (s : State) (op : StoreOp) (code : Nat) (done okay : Bool), s.prompt = false → s.chip.su.request = some code →
    s.arb.port = .own rSU op (.result done) false → Completes (.storeAnswer okay) s fun t =>
      t.chip.ap.host = none ∧ t.chip.ap.answer = some ⟨done, []⟩ ∧ t.chip.su.request = none ∧
      s.chip.Reports t.chip (if okay = true then [] else [(.storeError, rSU.val, pageOf op.addr)]) ∧
      (okay = true → s.chip.Only [.ap, .su] t.chip ∧ t.chip.su = { s.chip.su with request := none })

/-- The printer requests. EJECT (R149, R146): a READY printer becomes EJECTING, its book page unknown unless a page turn waits
for one, its queue and page-turn flag kept, the motor started in REVERSE; in any other state the request is refused and the
printer stands. PRINTER_RESTART (R165, R166): refused unless HALTED, and while a latched COVER or OVC input still reads active;
then the latch is empty, the printer ALIGNING or EMPTY, and PRINTER_RESTARTED reported. PRINTER_HALT (R163, R161, R162): a
shutdown with cause FORCED, beside the causes that have arisen untaken (log 83), or FORCED added to the latch. PRINTER_CLEAR
(R148). With no strike begun: the queue and the request in service are cancelled, the page-turn flag is clear, the latch keeps
only COVER and OVC inputs that read active; with none left the printer is EJECTING with a book in and EMPTY without one, and
with one left it stays as it was; DONE. With a strike begun the queue is cancelled, also with DONE taken and its stamp
unanswered (log 79, the model's choice), and the request in service waited for, its record to be stamped DOUBTFUL unless a stamp
is already asked for; when JU has answered the stamp, the request ends DONE or DOUBTFUL and the clear goes on. -/
def Obligations.PrinterRequestsServed : Prop :=
  (∀ (s : State) (n : Fin 4), s.Alone → s.chip.su.unitState = .ready → s.chip.SetupWord 0x100 →
    s.chip.OperandsAre s.mem (wd n.val) 0 →
    let a := s.chip.printer n
    (a.state = .ready → CompletesStored .eject s fun t => t.mem = s.mem ∧
      t.chip.printer n = { a with state := .ejecting, bookPage := if a.pageTurn = none then none else a.bookPage } ∧
      (t.chip.feed n).mode = .reverse ∧ (t.chip.feed n).duty = 0 ∧ (t.chip.feed n).travel = 0 ∧
      SameBut n s.chip.pru.printers t.chip.pru.printers ∧ SameBut n s.chip.fd t.chip.fd ∧
      t.chip.own[rSU.val] = [resultAsked s.chip 8 none 0] ∧ s.chip.Only [.ap, .su, .pru, .fd, .own] t.chip) ∧
    (a.state ≠ .ready → CompletesStored .eject s fun t => t.mem = s.mem ∧
      t.chip.own[rSU.val] = [resultAsked s.chip 8 (some .printerState) n.val] ∧ s.chip.Only [.ap, .su, .own] t.chip)) ∧
  (∀ (s : State) (n : Fin 4), s.Alone → s.chip.su.unitState = .ready → s.chip.SetupWord 0x100 →
    s.chip.OperandsAre s.mem (wd n.val) 0 →
    let l := (s.chip.feed n).latch
    let held := (l.cover = true ∧ s.chip.coverIn n = true) ∨ (l.ovc = true ∧ s.chip.ovcIn n = true)
    ((s.chip.printer n).state ≠ .halted → CompletesStored .printerRestart s fun t =>
      t.chip.own[rSU.val] = [resultAsked s.chip 6 (some .printerState) n.val] ∧ s.chip.Only [.ap, .su, .own] t.chip) ∧
    ((s.chip.printer n).state = .halted → held → CompletesStored .printerRestart s fun t =>
      t.chip.own[rSU.val] = [resultAsked s.chip 6 (some .causeActive) n.val] ∧ s.chip.Only [.ap, .su, .own] t.chip) ∧
    ((s.chip.printer n).state = .halted → ¬ held → s.chip.coverIn n = false → s.chip.ovcIn n = false →
      CompletesStored .printerRestart s fun t => s.chip.Restarted t.chip n ∧
        (t.chip.own[rSU.val] : List OwnReq).getLast? = some (resultAsked s.chip 6 none 0))) ∧
  (∀ (s : State) (n : Fin 4), s.Alone → s.chip.su.unitState = .ready → s.chip.SetupWord 0x100 →
    s.chip.OperandsAre s.mem (wd n.val) 0 → CompletesStored .printerHalt s fun t =>
      ((s.chip.printer n).state ≠ .halted → s.chip.ShutDown t.chip n { Latch.empty with forced := true }) ∧
      ((s.chip.printer n).state = .halted → t.chip.pru = s.chip.pru ∧
        t.chip.feed n = { s.chip.feed n with latch := { (s.chip.feed n).latch with forced := true } } ∧
        ((s.chip.feed n).latch.forced = true → t.chip.su.reports = s.chip.su.reports) ∧
        ((s.chip.feed n).latch.forced = false → s.chip.su.reports.length < 16 → t.chip.su.reports = s.chip.su.reports ++
          [⟨.printerHalted, n.val, { (s.chip.feed n).latch with forced := true }.code, s.chip.su.ms⟩])) ∧
      t.chip.Finishes rPRU 7) ∧
  (∀ (s : State) (n : Fin 4), s.Alone → s.chip.su.unitState = .ready → s.chip.SetupWord 0x100 →
    s.chip.OperandsAre s.mem (wd n.val) 0 → (∀ v, (s.chip.printer n).service = some v → v.begun = false) →
    CompletesStored .printerClear s fun t =>
      let a := s.chip.printer n
      let b := t.chip.printer n
      let kept : Latch := { Latch.empty with
        cover := (s.chip.feed n).latch.cover && s.chip.coverIn n, ovc := (s.chip.feed n).latch.ovc && s.chip.ovcIn n }
      b.queue = [] ∧ b.service = none ∧ b.pageTurn = none ∧ b.head = a.head.ended ∧
      (∀ e ∈ a.queue, b.slots[e.slot.val] = .cancelled Reason.cleared.code) ∧
      (∀ v, a.service = some v → b.slots[v.entry.slot.val] = .cancelled Reason.cleared.code) ∧
      (kept ≠ .empty → b.state = a.state ∧ (t.chip.feed n).latch = kept) ∧
      (kept = .empty → s.chip.coverIn n = false → s.chip.ovcIn n = false → (t.chip.feed n).latch = .empty ∧
        b.state = (if s.chip.bookIn n = true then .ejecting else .empty) ∧
        (t.chip.feed n).mode = (if a.state = .ejecting ∧ s.chip.bookIn n = true then (s.chip.feed n).mode
          else if s.chip.bookIn n = true then .reverse else .off)) ∧
      t.chip.Finishes rPRU 5) ∧
  (∀ (s : State) (n : Fin 4) (v : Service), s.Alone → s.chip.su.unitState = .ready → s.chip.SetupWord 0x100 →
    s.chip.OperandsAre s.mem (wd n.val) 0 → (s.chip.printer n).service = some v → v.begun = true →
    CompletesStored .printerClear s fun t =>
      let a := s.chip.printer n
      let b := t.chip.printer n
      let asked := v.doneTaken = false ∧ v.stamp = none
      b.queue = [] ∧ b.clearing = true ∧ b.state = a.state ∧ b.head = a.head.ended ∧ b.pageTurn = a.pageTurn ∧
      (∀ e ∈ a.queue, b.slots[e.slot.val] = .cancelled Reason.cleared.code) ∧
      b.service = some (if asked then { v with stamp := some .doubtful } else v) ∧
      t.chip.ju = { s.chip.ju with stamps := s.chip.ju.stamps ++ if asked then [⟨n, v.entry.seq, .doubtful⟩] else [] } ∧
      t.chip.fd = s.chip.fd ∧ t.chip.own[rSU.val] = [] ∧ (∀ r ∈ (t.chip.own[rPRU.val] : List OwnReq), r.fin = false)) ∧
  ∀ (s : State) (op : StoreOp) (r : StampReq) (rest : List StampReq) (v : Service) (st : PrintState), s.prompt = false →
    s.arb.port = .own rJU op .stampWrite false → s.chip.ju.stamps = r :: rest →
    (s.chip.printer r.printer).service = some v → v.stamp = some st → (s.chip.printer r.printer).clearing = true →
    s.chip.coverIn r.printer = false → s.chip.ovcIn r.printer = false →
    Completes (.storeAnswer true) s fun t =>
      let b := t.chip.printer r.printer
      b.service = none ∧ b.clearing = false ∧ b.pageTurn = none ∧
      b.slots[v.entry.slot.val] = (if st = .printed then .done else .doubtful) ∧
      b.state = (if s.chip.bookIn r.printer = true then .ejecting else .empty) ∧
      (t.chip.feed r.printer).latch = .empty ∧
      (∃ q, (t.chip.own[rPRU.val] : List OwnReq).getLast? = some q ∧ q.fin = true) ∧
      SameBut r.printer s.chip.pru.printers t.chip.pru.printers

/-- SCREEN_MODE sets the mode asked for, the remembered one on an auto-blanked screen, with nothing to do when it is in force
already; a change has the effects of R106 on the sweep set, the dirty rows and the mode word, PLAIN being decided afresh where
what is asked of it changes (R105); NORMAL and BLANKED are held as rows 0 to 23 whatever their first and last operands, and a
PARTIAL whose rows do not rise to at most 23 is refused with BAD_OPERAND (R107, R31). SCREEN_REFRESH marks all rows dirty but
those waiting to be read, and a MODE frame is due (R108). Both are served in READY and in REBUILDING. -/
def Obligations.ScreenRequestsServed : Prop :=
  (∀ (s : State) (p : Fin 12) (kind : ModeKind) (first last : Fin 32) (plain : Bool), s.Alone → s.chip.SetupWord 0x100 →
    s.chip.OperandsAre s.mem (wd p.val) (wd (kind.code + 4 * flagBit plain + 256 * first.val + 65536 * last.val)) →
    let m : Mode := if kind = .partialRows then ⟨kind, first.val, last.val⟩ else ⟨kind, 0, 23⟩
    (m.last < m.first ∨ 23 < m.last → CompletesStored .screenMode s fun t => s.chip.Only [.ap, .su, .own] t.chip ∧
      t.chip.own[rSU.val] = [resultAsked s.chip 9 (some .badOperand) 0]) ∧
    (m.first ≤ m.last → m.last ≤ 23 → CompletesStored .screenMode s fun t =>
      let a := s.chip.screen p
      let b := t.chip.screen p
      (a.autoBlanked = false → b.mode = m) ∧
      (a.autoBlanked = true → b.remembered = some m ∧ b.mode = a.mode) ∧
      b.askedPlain = plain ∧ b.autoBlanked = a.autoBlanked ∧
      (a.autoBlanked = false → a.mode = m → a.askedPlain = plain → s.chip.Only [.ap, .su, .own] t.chip ∧
        t.chip.own[rSU.val] = [resultAsked s.chip 9 none 0]) ∧
      b.plain = (if a.askedPlain = plain then a.plain else plain || !(if s.chip.setting (.capOverride p) = 1
        then s.chip.setting (.colour p) == 1 else (s.chip.drop p).colour)) ∧
      (a.autoBlanked = false → a.mode ≠ m ∨ a.askedPlain ≠ plain → s.chip.ModeChanged t.chip p true) ∧
      (a.autoBlanked = true → b.plain ≠ a.plain → s.chip.ModeChanged t.chip p true) ∧
      (a.autoBlanked = true → b.plain = a.plain → b = { a with remembered := some m, askedPlain := plain } ∧
        (s.chip.screenPresent p = true → .mode p true ∈ t.chip.scu.work ∨
          ⟨.write (s.chip.screenAddr p 4004) [b.modeWord], .scuMode, true⟩ ∈ (t.chip.own[rSCU.val] : List OwnReq))) ∧
      SameBut p s.chip.scu.screens t.chip.scu.screens)) ∧
  ∀ (s : State) (p : Fin 12), s.Alone → s.chip.SetupWord 0x100 → s.chip.OperandsAre s.mem (wd p.val) 0 →
    CompletesStored .screenRefresh s fun t =>
      (let a := s.chip.screen p
       let b := t.chip.screen p
       b = { a with modePending := true, dirty := b.dirty } ∧
       ∀ r : Fin 25, hasRow b.dirty r = (hasRow a.dirty r || !(hasRow a.sweep r || a.flight == some ⟨r, false⟩))) ∧
      SameBut p s.chip.scu.screens t.chip.scu.screens ∧ t.chip.own[rSU.val] = [resultAsked s.chip 10 none 0] ∧
      s.chip.Only [.ap, .su, .scu, .own] t.chip

/-- A drawer release (R131). A DRAWER_RELEASE is judged against four conditions: the first that fails refuses it with its reason
and detail p; with all four the output is active for RELEASE_TIME milliseconds from now, whether it was active or not. A DRAWER
key that is a release request (R127) has the same effect in READY with all four, and is dropped without a report otherwise, in
REBUILDING too. That the day is DAMAGED plays no part. -/
def Obligations.DrawerReleaseServed : Prop :=
  (∀ (s : State) (p : Fin 12), s.Alone → s.chip.su.unitState = .ready → s.chip.SetupWord 0x100 →
    s.chip.OperandsAre s.mem (wd p.val) 0 →
    let c := s.chip
    let day := c.cu.day.state = .dayOpen
    let drawer := (c.drawerOf p).state = .drawerOpen
    let terminal := (c.drop p).terminal = .attached
    let shown := (c.screen p).mode.kind ≠ .blanked
    let refused (r : Reason) := CompletesStored .drawerRelease s fun t =>
      t.chip.own[rSU.val] = [resultAsked c 12 (some r) p.val] ∧ c.Only [.ap, .su, .own] t.chip
    (¬ day → refused .dayState) ∧ (day → ¬ drawer → refused .drawerState) ∧
    (day → drawer → ¬ terminal → refused .noTerminal) ∧ (day → drawer → terminal → ¬ shown → refused .blanked) ∧
    (day → drawer → terminal → shown → CompletesStored .drawerRelease s fun t =>
      t.chip.drwrel p = true ∧ t.chip.drop p = { c.drop p with pulse := some (c.setting .releaseTime) } ∧
      SameBut p c.slc.drops t.chip.slc.drops ∧ t.chip.own[rSU.val] = [resultAsked c 12 none 0] ∧
      c.Only [.ap, .su, .slc, .own] t.chip)) ∧
  ∀ (s : State) (l : Fin 3) (d : Fin 4) (f : LineFrame) (left : Nat) (isOpen : Bool), s.prompt = false →
    (s.chip.line l).use = .awaiting d f left → f.kind ≠ .identReq →
    let c := s.chip
    let p := posOf l d
    (c.screen p).autoBlanked = false → c.screenPresent p = true → c.setting (.remoteRelease p) = 1 →
    Completes (.terminalAck l isOpen [0xFFFF]) s fun t => ((c.line l).keys = [] → t.chip.su = c.su) ∧
      (t.chip.drop p).pulse = if c.su.unitState = .ready ∧ c.cu.day.state = .dayOpen ∧ (c.drawerOf p).state = .drawerOpen ∧
          (c.drop p).terminal = .attached ∧ (c.screen p).mode.kind ≠ .blanked then some (c.setting .releaseTime)
        else (c.drop p).pulse

/-! ### The day -/

/-- APPLY_RECORD: every kind counts in its slot's drawer and in the day, and moves the hash total and the next sequence number
(R43, R46, R69); each of the twelve kinds, a VOID by the kind of its original, has its effect on the drawers it names and on the
branch sums (R43 to R45, R80 to R85), and no other drawer changes; a DAY_OPEN opens the day (R88, R89); a drawer whose counts
change has its EXCESS flag judged, and a change of it is reported, the slot's drawer first (R42); a DECLARE that leaves a
difference and an opening difference are reported (R83, R89); a difference and an EXCESS flag set ring the position's bell
(R114); the readers of the drawers touched, and of the day state, are told: the status row is to be rendered, and a drawer no
longer OPEN is released no more (R90, R113, R132); the posting then waits for CU's writes (R79). -/
def Obligations.RecordsApplied : Prop :=
  ∀ (s : State) (po : Posting) (k : RecordKind) (i j : Fin 13), s.prompt = false → s.chip.ju.posting = some po →
    po.phase = .handed → recordKindOfCode po.record.code = some k → po.record.position = i.val →
    po.record.target = j.val →
    let r := po.record
    let c := s.chip
    let a := c.drawer i
    let b := c.drawer j
    let targets := k ∈ [.transfer, .acceptDifference, .reopen] ∨ (k = .void ∧ r.original = some .transfer)
    let posted (d : Drawer) : Drawer := { d with recordCount := a.recordCount + 1, lastSeq := r.seq }
    Completes .applyRecord s fun t =>
      let day := t.chip.cu.day
      -- a drawer whose counts change has its flag judged; RESERVE has none
      let judged (x : Fin 13) (d : Drawer) : Drawer :=
        { d with excess := match finOf 12 x.val with
            | some p => t.chip.ceilingOf p != 0 && t.chip.ceilingOf p < cashPosition c.faces d.counts
            | none => d.excess }
      t.chip.ju.posting = some { po with phase := .applying } ∧
      day.recordCount = c.cu.day.recordCount + 1 ∧ day.hash = (c.cu.day.hash + r.amount) % 1000000000000 ∧
      day.next = seqAfter r.seq ∧ day.sumsSaturated = (c.cu.day.sumsSaturated || t.chip.cu.anySaturated) ∧
      (∀ x : Fin 13, x ≠ i → (x ≠ j ∨ ¬ targets) → (k ≠ .dayOpen ∨ x ≠ 12) → t.chip.drawer x = c.drawer x) ∧
      (k = .note → t.chip.drawer i = posted a) ∧
      (k = .dayOpen → i = 12 → t.chip.drawer 12 = posted { a with state := .drawerOpen, counts := r.counts }) ∧
      (k = .dayOpen → day.state = .dayOpen ∧ day.date = r.reference ∧ day.first = r.seq ∧ day.openCounts = r.counts ∧
        day.batch = 0 ∧ day.failure = .none ∧ day.previousDate = c.cu.day.previousDate ∧
        (day.openingDiff = true ↔ c.cu.day.previousDate ≠ 0 ∧
          ∃ d : Fin 10, countAt r.counts d ≠ countAt c.cu.day.closingCounts d)) ∧
      (k = .openDrawer → t.chip.drawer i = posted { a with state := .drawerOpen }) ∧
      (k = .cashIn → t.chip.drawer i =
          judged i (posted { a with counts := addCounts a.counts r.counts, cashIn := a.cashIn.add r.amount }) ∧
        day.cashIn = c.cu.day.cashIn.add r.amount) ∧
      (k = .cashOut → t.chip.drawer i =
          judged i (posted { a with counts := subCounts a.counts r.counts, cashOut := a.cashOut.add r.amount }) ∧
        day.cashOut = c.cu.day.cashOut.add r.amount) ∧
      (k = .noncashIn → t.chip.drawer i = posted { a with noncashIn := a.noncashIn.add r.amount } ∧
        day.noncashIn = c.cu.day.noncashIn.add r.amount) ∧
      (k = .noncashOut → t.chip.drawer i = posted { a with noncashOut := a.noncashOut.add r.amount } ∧
        day.noncashOut = c.cu.day.noncashOut.add r.amount) ∧
      (k = .transfer → i ≠ j → t.chip.drawer i =
          judged i (posted { a with counts := subCounts a.counts r.counts, transferOut := a.transferOut.add r.amount }) ∧
        t.chip.drawer j = judged j
          { b with counts := addCounts b.counts r.counts, transferIn := b.transferIn.add r.amount, lastSeq := r.seq }) ∧
      (k = .declare → t.chip.drawer i = posted
        (if ∀ d : Fin 10, countAt r.counts d = countAt a.counts d then { a with state := .balanced, declared := none }
         else { a with
           state := .difference
           declared := some ⟨r.counts, (cashPosition c.faces r.counts : Int) - cashPosition c.faces a.counts⟩ })) ∧
      (∀ x, k = .acceptDifference → b.declared = some x →
        day.differenceTotal = diffTotalAdd c.cu.day.differenceTotal x.difference ∧
        (i ≠ j → t.chip.drawer i = posted a ∧ t.chip.drawer j =
          judged j { b with counts := x.counts, declared := none, state := .balanced, lastSeq := r.seq }) ∧
        (i = j → t.chip.drawer i = judged i (posted { a with counts := x.counts, declared := none, state := .balanced }))) ∧
      (k = .reopen → i ≠ j → t.chip.drawer i = posted a ∧ t.chip.drawer j = { b with state := .drawerOpen, lastSeq := r.seq }) ∧
      (k = .void → r.original = some .cashIn → t.chip.drawer i =
          judged i (posted { a with counts := subCounts a.counts r.counts, cashIn := a.cashIn.lower r.amount }) ∧
        day.cashIn = c.cu.day.cashIn.lower r.amount) ∧
      (k = .void → r.original = some .cashOut → t.chip.drawer i =
          judged i (posted { a with counts := addCounts a.counts r.counts, cashOut := a.cashOut.lower r.amount }) ∧
        day.cashOut = c.cu.day.cashOut.lower r.amount) ∧
      (k = .void → r.original = some .noncashIn → t.chip.drawer i = posted { a with noncashIn := a.noncashIn.lower r.amount } ∧
        day.noncashIn = c.cu.day.noncashIn.lower r.amount) ∧
      (k = .void → r.original = some .noncashOut →
        t.chip.drawer i = posted { a with noncashOut := a.noncashOut.lower r.amount } ∧
        day.noncashOut = c.cu.day.noncashOut.lower r.amount) ∧
      (k = .void → r.original = some .transfer → i ≠ j → t.chip.drawer i =
          judged i (posted { a with counts := addCounts a.counts r.counts, transferOut := a.transferOut.lower r.amount }) ∧
        t.chip.drawer j = judged j
          { b with counts := subCounts b.counts r.counts, transferIn := b.transferIn.lower r.amount, lastSeq := r.seq }) ∧
      (k ≠ .dayOpen → day.state = c.cu.day.state ∧ day.first = c.cu.day.first ∧ day.date = c.cu.day.date) ∧
      -- the reports, the bells and the readers
      (let flag (x : Fin 13) : List (ReportKind × Nat × Nat) := if (t.chip.drawer x).excess = (c.drawer x).excess then []
         else [(if (t.chip.drawer x).excess = true then .excessSet else .excessCleared, x.val, r.seq)]
       let differs := k = .declare ∧ (t.chip.drawer i).state = .difference
       c.Reports t.chip (if differs then [(.difference, i.val, r.seq)]
         else if k = .dayOpen ∧ day.openingDiff = true then [(.openingDiff, 12, r.seq)]
         else flag i ++ if j = i then [] else flag j) ∧
       ∀ p : Fin 12, let x : Fin 13 := ⟨p.val, by omega⟩
         let told := x = i ∨ (targets ∧ x = j) ∨ k = .dayOpen
         (t.chip.screen p).bell = ((c.screen p).bell || (decide differs && x == i) ||
           ((t.chip.drawer x).excess && !(c.drawer x).excess)) ∧
         (told → .status p ∈ t.chip.scu.work) ∧
         ((x = i ∨ (targets ∧ x = j)) → (t.chip.drawer x).state ≠ .drawerOpen → (t.chip.drop p).pulse = none))

/-- What CU writes after a record. Word by word, a mirror (Table 12-10), the running part and the anchor part (Table 12-2).
After APPLY_RECORD (R79, stage 2), with TOTALS enabled, the mirrors of the drawers the record touches and the stale ones, each
whole as four bursts, in index order (R77), then the running part as two bursts, then, of a DAY_OPEN, the anchor part as bursts
of 8, 8, 8 and 7, all four asked for together (log 71, the model's choice). A burst answered ERROR is reported and marks its
mirror or the running part stale; a whole write answered OKAY clears the mark. After the last burst of an anchor part with none
failed SU is asked for the CRC write; with one failed it is not, and what would have followed it follows at once: nothing, a
posting's word 0, CLEAR_DAY's running part and mirrors, or the way to READY (log 52, the model's reading; of a request:
DayRequestsServed), but in a DEFAULTED start-up it is asked for all the same (R28). When the last write of a posting is answered
JU goes on with word 0, and the near-full report is made, once, by a record count of nine tenths of the capacity (R64, R69). -/
def Obligations.RecordsWritten : Prop :=
  (∀ (faces : Vector Nat 10) (d : Drawer), d.recordCount < 2 ^ 32 → d.lastSeq < 2 ^ 32 → cashPosition faces d.counts < 2 ^ 64 →
    let ws := d.mirrorWords faces
    let sums := [d.cashIn, d.cashOut, d.noncashIn, d.noncashOut, d.transferIn, d.transferOut]
    ws.length = 32 ∧ field (wordAt ws 0) 0 8 = d.state.code ∧ flagAt (wordAt ws 0) 8 = d.excess ∧
    flagAt (wordAt ws 0) 9 = d.declared.isSome ∧ (wordAt ws 1).toNat = d.recordCount ∧ (wordAt ws 2).toNat = d.lastSeq ∧
    (∀ k x, sums[k]? = some x → flagAt (wordAt ws 0) (16 + k) = x.saturated ∧
      (x.value < 2 ^ 64 → nat64 (wordAt ws (11 + 2 * k)) (wordAt ws (12 + 2 * k)) = x.value)) ∧
    nat64 (wordAt ws 9) (wordAt ws 10) = cashPosition faces d.counts ∧
    (∀ x : Fin 10, countAt d.counts x < 65536 → field (wordAt ws (4 + x.val / 2)) (16 * (x.val % 2)) 16 = countAt d.counts x) ∧
    (d.declared = none → ∀ k, 23 ≤ k → k ≤ 29 → wordAt ws k = 0) ∧
    ∀ p, d.declared = some p →
      (∀ x : Fin 10, countAt p.counts x < 65536 → field (wordAt ws (23 + x.val / 2)) (16 * (x.val % 2)) 16 = countAt p.counts x) ∧
      (0 ≤ p.difference → p.difference < 2 ^ 63 → (nat64 (wordAt ws 28) (wordAt ws 29) : Int) = p.difference) ∧
      (p.difference < 0 → -2 ^ 63 ≤ p.difference → (nat64 (wordAt ws 28) (wordAt ws 29) : Int) = 2 ^ 64 + p.difference)) ∧
  (∀ day : DayRecord, day.next < 2 ^ 32 → day.recordCount < 2 ^ 32 → day.hash < 2 ^ 64 → day.date < 2 ^ 32 → day.previousDate < 2 ^ 32 →
    day.first < 2 ^ 32 → day.batch < 2 ^ 32 →
    let ws := day.runningWords
    let an := day.anchorWords
    let sums := [day.cashIn, day.cashOut, day.noncashIn, day.noncashOut]
    ws.length = 16 ∧ (wordAt ws 0).toNat = day.next ∧ (wordAt ws 1).toNat = day.recordCount ∧
    nat64 (wordAt ws 2) (wordAt ws 3) = day.hash ∧
    (∀ k x, sums[k]? = some x → flagAt (wordAt ws 14) k = x.saturated ∧
      (x.value < 2 ^ 64 → nat64 (wordAt ws (4 + 2 * k)) (wordAt ws (5 + 2 * k)) = x.value)) ∧
    (0 ≤ day.differenceTotal → day.differenceTotal < 2 ^ 63 → (nat64 (wordAt ws 12) (wordAt ws 13) : Int) = day.differenceTotal) ∧
    (day.differenceTotal < 0 → -2 ^ 63 ≤ day.differenceTotal →
      (nat64 (wordAt ws 12) (wordAt ws 13) : Int) = 2 ^ 64 + day.differenceTotal) ∧
    flagAt (wordAt ws 14) 4 = day.sumsSaturated ∧ an.length = 31 ∧ (wordAt an 0).toNat = day.state.code ∧
    (wordAt an 1).toNat = day.date ∧ (wordAt an 2).toNat = day.previousDate ∧ (wordAt an 3).toNat = day.first ∧
    (∀ x : Fin 10, countAt day.openCounts x < 65536 →
      field (wordAt an (4 + x.val / 2)) (16 * (x.val % 2)) 16 = countAt day.openCounts x) ∧
    (∀ x : Fin 10, countAt day.closingCounts x < 2 ^ 32 → (wordAt an (9 + x.val)).toNat = countAt day.closingCounts x) ∧
    flagAt (wordAt an 19) 0 = day.damaged ∧ flagAt (wordAt an 19) 1 = day.openingDiff ∧ (wordAt an 20).toNat = day.batch ∧
    (wordAt an 21).toNat = day.failure.code ∧ ∀ k, 22 ≤ k → wordAt an k = 0) ∧
  (∀ (s : State) (po : Posting) (k : RecordKind) (i j : Fin 13), s.prompt = false → s.chip.ju.posting = some po →
    po.phase = .handed → recordKindOfCode po.record.code = some k → po.record.position = i.val → po.record.target = j.val →
    Completes .applyRecord s fun t =>
      let c := s.chip
      let targets := k ∈ [.transfer, .acceptDifference, .reopen] ∨ (k = .void ∧ po.record.original = some .transfer)
      t.chip.own[rCU.val] = c.own[rCU.val]
        ++ (if c.windowEnabled .totals = true then
            ((List.finRange 13).filter fun x => x == i || (x == j && decide targets) || c.cu.stale[x.val]).flatMap
              (t.chip.mirrorAsked · .nothing) else [])
        ++ t.chip.runningAsked (if k = .dayOpen then .nothing else .posting)
        ++ if k = .dayOpen then t.chip.anchorAsked .posting else []) ∧
  (∀ (s : State) (op : StoreOp) (okay : Bool), s.prompt = false →
    let c := s.chip
    let told (t : State) : Prop := c.Told t.chip okay rCU op.addr
    let totals := c.windowEnabled .totals = true
    (∀ (i : Fin 13) (b : Nat), s.arb.port = .own rCU op (.mirror i b .nothing) false → Completes (.storeAnswer okay) s fun t =>
      let failed := !okay || (b != 0 && c.cu.bad[i.val])
      t.chip.cu = { c.cu with
        bad := vput c.cu.bad i failed, stale := vput c.cu.stale i (if b = 3 then failed else c.cu.stale[i.val] || !okay) } ∧ told t) ∧
    (∀ b, s.arb.port = .own rCU op (.running b .nothing) false → Completes (.storeAnswer okay) s fun t =>
      let failed := !okay || (b != 0 && c.cu.runningBad)
      t.chip.cu = { c.cu with
        runningBad := failed, runningStale := if b = 1 then failed else c.cu.runningStale || !okay } ∧ told t) ∧
    ∀ after, after ≠ .request → s.arb.port = .own rCU op (.anchor 3 after) false → Completes (.storeAnswer okay) s fun t =>
      let fails := (okay = false ∨ c.cu.anchorBad = true) ∧ after ≠ .defaults
      let asks (u : Fin 9) (rs : List OwnReq) : Prop := t.chip.own = vupd c.own u (· ++ rs)
      let room (n : Nat) := c.su.reports.length + n ≤ 16
      t.chip.cu.day = c.cu.day ∧
      (¬ fails → told t ∧ (room 1 → asks rSU [⟨.dayCrc, .dayCrc after, false⟩])) ∧
      (fails → after = .nothing → told t ∧ (room 1 → t.chip.own = c.own)) ∧
      (fails → after = .clearStore → told t ∧ (room 1 → asks rCU
        (if totals then c.runningAsked .nothing ++ c.mirrorsAsked .clearSlots else c.runningAsked .clearSlots))) ∧
      (∀ po, fails → after = .posting → c.ju.posting = some po → room 2 → asks rJU
        [⟨.write (c.slotAddr po.slot.val 0) [wd po.record.seq], .post .word0, false⟩]) ∧
      ∀ w, fails → after = .rebuild → c.cu.walk = some w → w.phase = .finishing → room 2 →
        t.chip.su.unitState = .ready ∧ t.chip.cu.walk = none ∧ t.chip.ju.nextSeq = c.cu.day.next ∧
        (c.ScuSettled → t.chip.own[rSU.val] = c.own[rSU.val] ++ [⟨.write (c.setupAddr 0x008) [2], .statusWord 0x008, false⟩])) ∧
  ∀ (s : State) (po : Posting) (u : Fin 9) (op : StoreOp) (tag : Tag), s.prompt = false → s.chip.ju.posting = some po →
    s.arb.port = .own u op tag false → tag ∈ [.running 1 .posting, .dayCrc .posting] →
    ∀ okay : Bool, Completes (.storeAnswer okay) s fun t =>
      let c := s.chip
      let near := c.ju.nearFull = false ∧ c.capacity * 9 ≤ c.cu.day.recordCount * 10
      t.chip.ju = { c.ju with nearFull := c.ju.nearFull || decide near } ∧
      (t.chip.own[rJU.val] : List OwnReq).getLast? =
        some ⟨.write (c.slotAddr po.slot.val 0) [wd po.record.seq], .post .word0, false⟩ ∧
      (okay = true → ¬ near → t.chip.su = c.su) ∧
      (okay = true → near → c.su.reports.length < 16 → t.chip.su = { c.su with
        reports := c.su.reports ++ [⟨.journalNearFull, 0, po.record.seq, c.su.ms⟩] })

/-- MARK_DAMAGED takes JU's request: a clear flag is set, reported, and the anchor part written; a set one stays and nothing is
written (R87). PRINT_STATE_STAMP takes the oldest request and reads the ring slot's word 0; the stamp read then decides: with
the day OPEN, the number in word 0 and the stamp not NOT_BOOK the new print state is written, and otherwise, or after a store
ERROR, the request ends NOT_STAMPED with nothing written (R74). -/
def Obligations.DamageAndStamps : Prop :=
  (∀ (s : State) (detail : Nat) (rest : List Nat), s.prompt = false → s.chip.cu.damage = detail :: rest →
    Completes .markDamaged s fun t =>
      t.chip.cu.damage = rest ∧ t.chip.cu.day = { s.chip.cu.day with damaged := true } ∧
      t.chip.cu.drawers = s.chip.cu.drawers ∧ s.Only [.su, .cu, .own] t ∧
      (s.chip.cu.day.damaged = true → s.Only [.cu] t) ∧
      (s.chip.cu.day.damaged = false → s.chip.su.reports.length < 16 →
        t.chip.su = { s.chip.su with reports := s.chip.su.reports ++ [⟨.dayDamaged, 0, detail, s.chip.su.ms⟩] } ∧
        (s.chip.cu.walk = none → ∃ front r, t.chip.own[rCU.val] = s.chip.own[rCU.val] ++ front ++ [r] ∧
          r.tag = .anchor 3 .nothing))) ∧
  (∀ (s : State) (r : StampReq) (rest : List StampReq), s.prompt = false → s.chip.ju.stamping = false →
    s.chip.ju.stamps = r :: rest → exec .printStateStamp s = .next
      { s with chip := (s.chip.onJu fun j => { j with stamping := true }).push rJU
                  (.read (s.chip.ringAddr r.seq 0) 4 1) .stampWord0 }) ∧
  (∀ (s : State) (r : StampReq) (rest : List StampReq) (addr : Nat), s.prompt = false →
    s.chip.ju.stamps = r :: rest → s.arb.port = .own rJU (.read addr 4 1) .stampWord0 false →
    Completes (.storeAnswer true) s fun t => t.mem = s.mem ∧ t.chip = s.chip.push rJU (.read (s.chip.ringAddr r.seq 11) 4 1)
      (.stampRead (decide ((readWord s.mem addr).toNat = r.seq)))) ∧
  (∀ (s : State) (r : StampReq) (rest : List StampReq) (addr : Nat) (held : Bool), s.prompt = false →
    s.chip.ju.stamps = r :: rest → s.arb.port = .own rJU (.read addr 4 1) (.stampRead held) false →
    let stamp := readWord s.mem addr
    let writes := s.chip.cu.day.state = .dayOpen ∧ held = true ∧ stampPrint stamp ≠ .notBook
    (writes → Completes (.storeAnswer true) s fun t => t.mem = s.mem ∧ t.chip.ju = s.chip.ju ∧
      t.chip.own = vupd s.chip.own rJU (· ++ [⟨.write (s.chip.ringAddr r.seq 11)
        [stampWord (stampCrc stamp) r.state (stampStatus stamp)], .stampWrite, false⟩])) ∧
    (¬ writes → Completes (.storeAnswer true) s fun t => t.mem = s.mem ∧
      t.chip.ju = { s.chip.ju with stamps := rest, stamping := false } ∧ t.chip.own[rJU.val] = s.chip.own[rJU.val])) ∧
  ∀ (s : State) (r : StampReq) (rest : List StampReq) (op : StoreOp) (tag : Tag), s.prompt = false →
    s.chip.ju.stamps = r :: rest → s.arb.port = .own rJU op tag false →
    (tag = .stampWord0 ∨ tag = .stampWrite ∨ ∃ held, tag = .stampRead held) → Completes (.storeAnswer false) s fun t =>
      t.mem = s.mem ∧ t.chip.ju = { s.chip.ju with stamps := rest, stamping := false } ∧
      t.chip.own[rJU.val] = s.chip.own[rJU.val]

/-- REBUILD_WALK_STEP and the reads it makes, by Table 5-8: at a full count the journal ends (case 1), otherwise the slot of the
expected number is read; a FREE stamp or another number ends the journal (case 3); a read error (case 2), a wrong record CRC
(case 4), a first record that is not the DAY_OPEN of the day's date (case 5), a record whose kind, slot or checks fail (case 6)
stop the walk DAMAGED, which is reported (R94); any other record is applied, its drawers' EXCESS flags judged without a report,
and the walk moves on (case 7, R92, R42). A VOID has its original read first: it must be the day's, intact, voidable and of the
same slot, and a POSTED original's stamp is rewritten VOIDED, a print-state code above 3 as NOT_BOOK (log 82, the model's
choice), or its number joins the unstamped list where that fails, or finds the list full (R93). Two of the conditions are the
model's reading, not R93's words: a VOID whose drawer states or counts do not admit the reversal (`reapplyFails c.cu .void`)
stops the walk DAMAGED (log 31), and reference 0 is never in the day (log 16). -/
def Obligations.RebuildWalks : Prop :=
  (∀ (s : State) (w : Walk), s.prompt = false → s.chip.cu.walk = some w → w.phase = .ready → Completes .rebuildWalkStep s fun t =>
    (w.count = s.chip.capacity → t.chip.cu = { s.chip.cu with walk := some { w with phase := .ended } } ∧ s.Only [.cu] t) ∧
    (w.count ≠ s.chip.capacity → t.chip.cu = { s.chip.cu with walk := some { w with phase := .reading } } ∧
      t.chip.own = vupd s.chip.own rCU (· ++ [⟨.read (s.chip.ringAddr w.expected 0) 4 8, .walkA, false⟩]) ∧
      s.Only [.cu, .own] t)) ∧
  ∀ (s : State) (w : Walk) (addr : Nat) (front ws' : List Word), s.prompt = false → s.chip.cu.walk = some w →
    w.phase = .reading →
    let c := s.chip
    let last := readWords s.mem addr 4 4
    let damaged (t : State) : Prop := c.Reports t.chip [(.dayDamaged, 0, w.expected)] ∧ t.chip.cu.day.damaged = true ∧ t.chip.cu.day.next = w.expected ∧
      t.chip.cu.drawers = c.cu.drawers ∧
      t.chip.cu.walk = some { w with phase := .ended, stopped := true, anchorChanged := true }
    -- the record applied, and the flags of its drawers judged; then the walk stands at `next`
    let applied (t : State) (k : RecordKind) (r : JRecord) (next : WalkPhase) : Prop :=
      let cu := c.cu.applyRecord c.faces k r
      t.chip.cu.day = cu.day ∧ t.chip.su = c.su ∧
      t.chip.cu.walk = some { w with expected := seqAfter w.expected, count := w.count + 1, phase := next } ∧
      ∀ x : Fin 13, { t.chip.drawer x with excess := false } = { cu.drawers[x.val] with excess := false } ∧
        (t.chip.drawer x).excess = match finOf 12 x.val with
          | some p => if x.val ∈ countsChanged k r then t.chip.excessUnder (c.ceilingOf p) p else (c.drawer x).excess
          | none => (c.drawer x).excess
    (∀ op tag, s.arb.port = .own rCU op tag false → tag ∈ [.walkA, .walkB front, .walkOrigA ws', .walkOrigB ws' front] →
      Completes (.storeAnswer false) s damaged) ∧
    (s.arb.port = .own rCU (.read addr 4 8) .walkA false → Completes (.storeAnswer true) s fun t =>
      t.chip = c.push rCU (.read (addr + 32) 4 4) (.walkB (readWords s.mem addr 4 8))) ∧
    (s.arb.port = .own rCU (.read addr 4 8) (.walkOrigA ws') false → Completes (.storeAnswer true) s fun t =>
      t.chip = c.push rCU (.read (addr + 32) 4 4) (.walkOrigB ws' (readWords s.mem addr 4 8))) ∧
    (∀ op ref, s.arb.port = .own rCU op (.walkRepair ref) false → ∀ okay : Bool, Completes (.storeAnswer okay) s fun t =>
      t.chip.cu.walk = some { w with phase := .ready } ∧ t.chip.cu.drawers = c.cu.drawers ∧ c.Told t.chip okay rCU op.addr ∧
      (t.chip.ju.overflowMark = true ↔ c.ju.overflowMark = true ∨ (okay = false ∧ 8 ≤ c.ju.unstamped.length)) ∧
      t.chip.cu.damage = c.cu.damage ++ (if okay = false ∧ 8 ≤ c.ju.unstamped.length then [ref] else []) ∧
      t.chip.ju.unstamped = if okay = false ∧ c.ju.unstamped.length < 8 then c.ju.unstamped ++ [ref] else c.ju.unstamped) ∧
    (s.arb.port = .own rCU (.read addr 4 4) (.walkB front) false →
      let ws := front ++ last
      let r := recordOfWords ws
      let ends := stampStatus (wordAt ws 11) = .free ∨ r.seq ≠ w.expected
      let first := w.expected = c.cu.day.first
      let inDay := r.reference ≠ 0 ∧ seqDistance c.cu.day.first r.reference < seqDistance c.cu.day.first w.expected
      let bad := recordCrc ws ≠ stampCrc (wordAt ws 11) ∨ (first ∧ ¬ (r.code = 1 ∧ r.reference = c.cu.day.date)) ∨
        ∀ k, recordKindOfCode r.code = some k → slotAllows k r.position = false ∨ (k = .dayOpen ∧ ¬ first) ∨
          (k = .void ∧ ¬ inDay) ∨ (k ≠ .void ∧ reapplyFails c.cu k r = true)
      (ends → Completes (.storeAnswer true) s fun t =>
        t.chip.cu = { c.cu with walk := some { w with phase := .ended } } ∧ t.chip.su = c.su) ∧
      (¬ ends → bad → Completes (.storeAnswer true) s damaged) ∧
      (∀ k, ¬ ends → ¬ bad → recordKindOfCode r.code = some k → k ≠ .void →
        Completes (.storeAnswer true) s fun t => applied t k r .ready) ∧
      (¬ ends → ¬ bad → r.code = 8 → Completes (.storeAnswer true) s fun t => t.chip.cu = c.cu ∧
        t.chip.own = vupd c.own rCU (· ++ [⟨.read (c.ringAddr r.reference 0) 4 8, .walkOrigA ws, false⟩]))) ∧
    (s.arb.port = .own rCU (.read addr 4 4) (.walkOrigB ws' front) false →
      let orig := front ++ last
      let o := recordOfWords orig
      let stamp := wordAt orig 11
      let r := recordOfWords ws'
      let fits (k : RecordKind) := o.seq = r.reference ∧ recordCrc orig = stampCrc stamp ∧ o.position = r.position ∧
        k ∈ [.cashIn, .cashOut, .noncashIn, .noncashOut, .transfer] ∧
        reapplyFails c.cu .void { r with original := some k } = false
      ((∀ k, recordKindOfCode o.code = some k → ¬ fits k) → Completes (.storeAnswer true) s damaged) ∧
      ∀ k, recordKindOfCode o.code = some k → fits k → Completes (.storeAnswer true) s fun t =>
        (stampStatus stamp ≠ .posted → applied t .void { r with original := some k } .ready ∧ t.chip.own = c.own) ∧
        (stampStatus stamp = .posted → applied t .void { r with original := some k } .reading ∧
          t.chip.own = vupd c.own rCU (· ++ [⟨.write (c.ringAddr r.reference 11)
            [stampWord (stampCrc stamp) (stampPrint stamp) .voided], .walkRepair r.reference, false⟩])))

/-- REBUILD_END with no damage request waiting: a frozen day whose walk does not reproduce the closing counts with every drawer
balanced is DAMAGED, its OPEN and DIFFERENCE drawers BALANCED without a declared part, an UNUSED drawer staying so but for the
RESERVE (R95); any other day stands; the slot resolution begins with slot 0 when the journal is usable (R96). After the last
slot a SENDING day is CLOSED with reason RESET, and everything is written: the thirteen mirrors with TOTALS enabled, the running
part and, changed, the anchor part (R97). When the last of CU's writes is answered, either way, or the CRC write after an anchor
part, JU has the next sequence number, REBUILD_DONE is reported and the part is READY, its status word and every status row to
be written (R97, steps 4 and 5). A frozen day marked DAMAGED is reported (R87). The readers of every drawer record that changes
here, and of the day state, are told (R90): the status row is on SCU's work list (R113), and a drawer no longer OPEN is released
no more (R132). -/
def Obligations.RebuildEnds : Prop :=
  (∀ (s : State) (w : Walk), s.prompt = false → s.chip.cu.walk = some w → w.phase = .ended → s.chip.ap.journalUsable = true →
    s.chip.cu.damage = [] → Completes .rebuildEnd s fun t =>
      let confirmed := w.stopped = false ∧ (s.chip.drawer 12).state = .balanced ∧
        (∀ p : Fin 12, (s.chip.drawerOf p).state = .unused ∨ (s.chip.drawerOf p).state = .balanced) ∧
        ∀ d : Fin 10, ((List.finRange 13).map fun i => countAt (s.chip.drawer i).counts d).sum =
          countAt s.chip.cu.day.closingCounts d
      (s.chip.cu.day.state.frozen = false ∨ confirmed →
        t.chip.cu = { s.chip.cu with walk := some { w with phase := .finishing } } ∧ t.chip.su = s.chip.su) ∧
      (s.chip.cu.day.state.frozen = true → ¬ confirmed → s.chip.Reports t.chip [(.dayDamaged, 0, w.expected)] ∧ t.chip.cu.day = { s.chip.cu.day with damaged := true } ∧
        t.chip.cu.walk = some { w with phase := .finishing, anchorChanged := true } ∧
        ∀ i : Fin 13, let a := s.chip.drawer i
          t.chip.drawer i = if a.state = .drawerOpen ∨ a.state = .difference then { a with state := .balanced, declared := none }
            else if i = 12 ∧ a.state = .unused then { a with state := .balanced } else a) ∧
      (∀ p : Fin 12, t.chip.drawerOf p ≠ s.chip.drawerOf p → .status p ∈ t.chip.scu.work ∧ t.chip.drwrel p = false) ∧
      (t.chip.own[rCU.val] : List OwnReq).getLast? = some ⟨.read (s.chip.slotAddr 0 11) 4 1, .rebSlot 0, false⟩) ∧
  (∀ (s : State) (w : Walk) (op : StoreOp) (tag : Tag), s.prompt = false → s.chip.cu.walk = some w → w.phase = .finishing →
    s.arb.port = .own rCU op tag false →
    tag = .rebOutcome 12 ∨ (tag = .rebSlot 12 ∧ ∃ addr, op = .read addr 4 1 ∧ field (readWord s.mem addr) 24 8 ≠ 1) →
    Completes (.storeAnswer true) s fun t =>
      let sending := s.chip.cu.day.state = .sending
      t.chip.cu.day = (if sending then { s.chip.cu.day with state := .closed, failure := .reset } else s.chip.cu.day) ∧
      (∀ p : Fin 12, t.chip.drawerOf p = { s.chip.drawerOf p with excess := s.chip.excessUnder (s.chip.ceilingOf p) p }) ∧
      (∀ p : Fin 12, sending ∨ t.chip.drawerOf p ≠ s.chip.drawerOf p → .status p ∈ t.chip.scu.work) ∧
      t.chip.drawer 12 = s.chip.drawer 12 ∧
      (sending → s.chip.su.reports.length < 16 → t.chip.su =
        { s.chip.su with reports := s.chip.su.reports ++ [⟨.sendFailed, 0, FailReason.reset.code, s.chip.su.ms⟩] }) ∧
      t.chip.own[rCU.val] = s.chip.own[rCU.val] ++ (if s.chip.windowEnabled .totals = true then t.chip.mirrorsAsked .nothing else [])
        ++ if sending ∨ w.anchorChanged = true then t.chip.runningAsked .nothing ++ t.chip.anchorAsked .rebuild
          else t.chip.runningAsked .rebuild) ∧
  (∀ (s : State) (op : StoreOp), s.prompt = false → s.arb.port = .own rCU op (.anchor 3 .rebuild) false →
    s.chip.cu.anchorBad = false → Completes (.storeAnswer true) s fun t => t.chip.su = s.chip.su ∧
      t.chip.own = vupd s.chip.own rSU (· ++ [⟨.dayCrc, .dayCrc .rebuild, false⟩])) ∧
  ∀ (s : State) (w : Walk) (u : Fin 9) (op : StoreOp) (tag : Tag), s.prompt = false → s.chip.cu.walk = some w →
    w.phase = .finishing → (tag = .running 1 .rebuild ∨ tag = .dayCrc .rebuild) → s.arb.port = .own u op tag false →
    ∀ okay : Bool, Completes (.storeAnswer okay) s fun t =>
      t.chip.su.unitState = .ready ∧ t.chip.cu.walk = none ∧ (∀ p : Fin 12, .status p ∈ t.chip.scu.work) ∧
      s.chip.Reports t.chip ((if okay = true then [] else
        [(.storeError, (if tag = .running 1 .rebuild then rCU else u).val, pageOf op.addr)]) ++ [(.rebuildDone, 0, s.chip.cu.day.next)]) ∧
      (okay = true → s.chip.su.reports.length < 16 → s.chip.ScuSettled → t.chip.own[rSU.val] = s.chip.own[rSU.val] ++
        [⟨.write (s.chip.setupAddr 0x008) [2], .statusWord 0x008, false⟩]) ∧
      (tag = .running 1 .rebuild → okay = true → s.chip.cu.runningBad = false → t.chip.cu.runningStale = false) ∧
      t.chip.ju = { s.chip.ju with
        nextSeq := s.chip.cu.day.next, nearFull := decide (9 * s.chip.capacity ≤ 10 * s.chip.cu.day.recordCount) } ∧
      t.chip.cu.day = s.chip.cu.day ∧ t.chip.cu.drawers = s.chip.cu.drawers

/-- The posting slots resolved. By JU, one slot after the other while the journal is usable: IN_POSTING(s) is rewritten LOST(s),
any other outcome stands, an ERROR leaves the slot, and after the thirteenth a waiting commit starts (R57, R3; at the place the
resolution began with, log 55; from slot 0 up, LOST written before the next slot is read, log 75: the model's choices). By CU at
the end of rebuild: IN_POSTING(s) of a record of the day whose number ends in s is POSTED, its full number in word 0, when the
record's position is the slot's, and LOST otherwise (R96). That CU finds the candidate by one read of words 0 and 1 of its ring
slot and compares the position there is the model's reading (log 22). -/
def Obligations.SlotsResolved : Prop :=
  (∀ (s : State) (k base addr : Nat), s.prompt = false → s.chip.ap.journalUsable = true →
    let c := s.chip
    let asks (o : OwnOp) (tag : Tag) : Vector (List OwnReq) 9 := vupd c.own rJU (· ++ [⟨o, tag, false⟩])
    let next : Vector (List OwnReq) 9 := asks (.read (base + 48 * (k + 1) + 44) 4 1) (.slotRead (k + 1) base)
    (s.arb.port = .own rJU (.read addr 4 1) (.slotRead k base) false →
      let w := readWord s.mem addr
      (field w 24 8 = 1 → Completes (.storeAnswer true) s fun t => s.chip.Only [.own] t.chip ∧
        t.chip.own = asks (.write addr [outcomeLost (field w 0 24)]) (.slotLost k base)) ∧
      (field w 24 8 ≠ 1 → k < 12 → Completes (.storeAnswer true) s fun t => s.chip.Only [.own] t.chip ∧ t.chip.own = next) ∧
      (k < 12 → c.su.reports.length < 16 → Completes (.storeAnswer false) s fun t => t.mem = s.mem ∧ t.chip.own = next)) ∧
    ∀ op, s.arb.port = .own rJU op (.slotLost k base) false →
      (k < 12 → Completes (.storeAnswer true) s fun t => s.chip.Only [.own] t.chip ∧ t.chip.own = next) ∧
      (k = 12 → Completes (.storeAnswer true) s fun t => t.chip.ju.resolving = c.ju.resolving - 1 ∧
        ((∀ po, c.ju.posting = some po → po.phase ≠ .waiting) → t.chip.own = c.own) ∧
        ∀ po, c.ju.posting = some po → po.phase = .waiting → c.ju.resolving = 1 →
          t.chip.ju.posting = some { po with phase := .running } ∧
          t.chip.own = asks (.read (c.slotAddr po.slot.val 0) 4 8) (.post .readA))) ∧
  ∀ (s : State) (w : Walk) (k addr : Nat), s.prompt = false → s.chip.cu.walk = some w → w.phase = .finishing →
    s.chip.ap.journalUsable = true →
    let c := s.chip
    let first := c.cu.day.first
    let asks (o : OwnOp) (tag : Tag) : Vector (List OwnReq) 9 := vupd c.own rCU (· ++ [⟨o, tag, false⟩])
    let next : Vector (List OwnReq) 9 := asks (.read (c.slotAddr (k + 1) 11) 4 1) (.rebSlot (k + 1))
    (s.arb.port = .own rCU (.read addr 4 1) (.rebSlot k) false →
      let v := readWord s.mem addr
      let names (x : Nat) := x ≠ 0 ∧ x ≤ 4294967295 ∧ seqDistance first x < seqDistance first c.cu.day.next ∧
        x % 16777216 = field v 0 24
      (field v 24 8 ≠ 1 → k < 12 → Completes (.storeAnswer true) s fun t => t.chip.own = next) ∧
      (∀ x, field v 24 8 = 1 → 0 < first → first ≤ 4294967295 → seqDistance first c.cu.day.next ≤ 65536 → names x →
        Completes (.storeAnswer true) s fun t => t.chip.own = asks (.read (c.ringAddr x 0) 4 2) (.rebFind k x)) ∧
      (field v 24 8 = 1 → 0 < first → first ≤ 4294967295 → seqDistance first c.cu.day.next ≤ 65536 → (∀ x, ¬ names x) →
        Completes (.storeAnswer true) s fun t => t.chip.own = asks (.write addr [outcomeLost (field v 0 24)]) (.rebOutcome k))) ∧
    (∀ x, s.arb.port = .own rCU (.read addr 4 2) (.rebFind k x) false → Completes (.storeAnswer true) s fun t =>
      t.chip.own = if field (readWord s.mem (addr + 4)) 8 4 = k then asks (.write (c.slotAddr k 0) [wd x]) (.rebWord0 k x)
        else asks (.write (c.slotAddr k 11) [outcomeLost x]) (.rebOutcome k)) ∧
    (∀ x op, s.arb.port = .own rCU op (.rebWord0 k x) false → Completes (.storeAnswer true) s fun t =>
      t.chip.own = asks (.write (c.slotAddr k 11) [outcomePosted x]) (.rebOutcome k)) ∧
    (∀ op, s.arb.port = .own rCU op (.rebOutcome k) false → k < 12 → Completes (.storeAnswer true) s fun t =>
      t.chip.own = next) ∧
    ∀ x op tag, s.arb.port = .own rCU op tag false → tag ∈ [.rebSlot k, .rebFind k x, .rebWord0 k x, .rebOutcome k] → k < 12 →
      c.su.reports.length < 16 → Completes (.storeAnswer false) s fun t => t.mem = s.mem ∧ t.chip.own = next

/-- Reports: one made with fewer than 16 waiting joins the list with the millisecond count, one made with 16 is dropped and sets
the flag of an enabled window (R33). REPORT_WRITE takes the oldest and drops it with REPORT disabled or a full ring, or writes
its entry; the entry's answer asks for the index word, and that answer delivers it (R34). -/
def Obligations.ReportsWritten : Prop :=
  (∀ (c : Chip) (k : ReportKind) (i d : Nat),
    (c.su.reports.length < 16 → c.report k i d = { c with su := { c.su with reports := c.su.reports ++ [⟨k, i, d, c.su.ms⟩] } }) ∧
    (16 ≤ c.su.reports.length → (c.report k i d).su = { c.su with overflow := c.su.overflow || c.windowEnabled .report })) ∧
  (∀ (s : State) (r : Report) (rest : List Report), s.prompt = false → s.chip.su.writing = none → s.chip.su.reports = r :: rest →
    let c := s.chip
    let full := (c.su.writeIndex + 1) % 64 = c.su.readIndex
    (c.windowEnabled .report = false → exec .reportWrite s = .next { s with chip := c.onSu fun u => { u with reports := rest } }) ∧
    (c.windowEnabled .report = true → full → Completes .reportWrite s fun t =>
      t.chip.su = { c.su with reports := rest, overflow := true } ∧ s.Only [.su, .own] t ∧
      t.chip.own = (if c.su.overflow = true then c.own
        else vupd c.own rSU (· ++ [⟨.write (c.setupAddr 0x144) [1], .silent, false⟩]))) ∧
    (c.windowEnabled .report = true → ¬ full → exec .reportWrite s = .next
      { s with chip := (c.onSu fun u => { u with reports := rest, writing := some r }).push rSU
                  (.write (c.windowBase .report + 16 * c.su.writeIndex) [wd r.kind.code, wd r.index, wd r.detail, wd r.count])
                  (.repEntry c.su.epoch) })) ∧
  ∀ (s : State) (op : StoreOp) (okay : Bool), s.prompt = false →
    (s.arb.port = .own rSU op (.repEntry s.chip.su.epoch) false → Completes (.storeAnswer okay) s fun t =>
      t.chip = if okay = true then
          s.chip.push rSU (.write (s.chip.setupAddr 0x140) [wd ((s.chip.su.writeIndex + 1) % 64)]) (.repIndex s.chip.su.epoch)
        else s.chip.onSu fun u => { u with writing := none }) ∧
    (s.arb.port = .own rSU op (.repIndex s.chip.su.epoch) false → Completes (.storeAnswer okay) s fun t =>
      t.chip = s.chip.onSu fun u =>
        { u with writing := none, writeIndex := if okay = true then (u.writeIndex + 1) % 64 else u.writeIndex })

/-! ### Screens -/

/-- SWEEP_START: when no sweep runs, the terminal is ATTACHED, the screen present and some dirty row shown, the dirty rows the
mode allows move into the sweep set (R100); otherwise nothing (the model's choice, log 28). FAN_OUT_START: an idle fan-out with
the start mark takes BCST_SET and BCST_ROW in force and begins to read the master row, once the work list reaches it (R115), at
the place BROADCAST has then (log 60, the model's choice); otherwise nothing (log 28). A row in flight ends delivered by the
terminal's ACK, or goes back into the dirty set after a third sending or a read error; with the sweep set empty the sweep is
then complete, its count goes up, from 4,294,967,295 to 0, and the count word is to be written (R102). The fan-out's reads fill
the copy; after the fifth it is idle if one failed or the start mark is set (R116, the restart being FAN_OUT_START), and
otherwise the copy is written into row B of the first present screen as five bursts (R115), at its place of that moment (log 53,
the model's choice). Each burst answered OKAY marks that row dirty (R99); after a screen's fifth the fan-out is idle when the
start mark is set (R116), and otherwise goes on with the next present screen, or is idle after the last (R115). -/
def Obligations.SweepsAndFanOuts : Prop :=
  (∀ (s : State) (p : Fin 12), s.prompt = false →
    let a := s.chip.screen p
    let starts := a.sweeping = false ∧ (s.chip.drop p).terminal = .attached ∧ s.chip.screenPresent p = true ∧
      ∃ r : Fin 25, hasRow a.dirty r = true ∧ a.mode.shows r = true
    (¬ starts → exec (.sweepStart p) s = .next s) ∧
    (starts → Completes (.sweepStart p) s fun t =>
      let b := t.chip.screen p
      b = { a with sweeping := true, sweep := b.sweep, dirty := b.dirty } ∧
      (∀ r : Fin 25, hasRow b.sweep r = (hasRow a.dirty r && a.mode.shows r) ∧
        hasRow b.dirty r = (hasRow a.dirty r && !a.mode.shows r)) ∧
      SameBut p s.chip.scu.screens t.chip.scu.screens ∧ s.Only [.scu] t)) ∧
  (∀ s : State, s.prompt = false →
    (¬ (s.chip.scu.fan.phase = .idle ∧ s.chip.scu.fan.start = true) → exec .fanOutStart s = .next s) ∧
    (s.chip.scu.fan.phase = .idle → s.chip.scu.fan.start = true → Completes .fanOutStart s fun t =>
      (let f := t.chip.scu.fan
       f.start = false ∧ f.row = s.chip.setting .bcstRow ∧
       (s.chip.ScuSettled → f.phase = .reading ∧ ∀ p : Fin 12, p ∈ f.screens ↔ s.chip.setting .bcstSet / 2 ^ p.val % 2 = 1)) ∧
      t.chip.scu.screens = s.chip.scu.screens ∧ s.Only [.scu, .own] t ∧
      (s.chip.scu.serving = none → s.chip.scu.work = [] → t.chip.own = vupd s.chip.own rSCU (· ++ (List.range 5).map fun j =>
        ⟨.read (s.chip.windowBase .broadcast + 32 * j) 4 8, .fanRead j, false⟩)))) ∧
  (∀ (s : State) (l : Fin 3) (d : Fin 4) (x : InFlight), s.prompt = false →
    let p := posOf l d
    let c := s.chip
    let a := c.screen p
    a.sweeping = true → a.flight = some x →
    let ended (delivered : Bool) (t : State) : Prop :=
      let b := t.chip.screen p
      let count := (a.sweepCount + 1) % 4294967296
      b.flight = none ∧ (∀ r : Fin 25, hasRow b.dirty r = (hasRow a.dirty r || (!delivered && r == x.row))) ∧ b.sweep = a.sweep ∧
      ((∃ r : Fin 25, hasRow a.sweep r = true) → b.sweeping = true ∧ b.sweepCount = a.sweepCount) ∧
      ((∀ r : Fin 25, hasRow a.sweep r = false) → b.sweeping = false ∧ b.sweepCount = count ∧
        (c.screenPresent p = true → .count p ∈ t.chip.scu.work ∨
          ⟨.write (c.screenAddr p 4000) [wd count], .scuCount, false⟩ ∈ (t.chip.own[rSCU.val] : List OwnReq)))
    (∀ f left isOpen r, (c.line l).use = .awaiting d f left → f.kind = .row r →
      Completes (.terminalAck l isOpen []) s (ended true)) ∧
    (∀ f left r, (c.line l).use = .awaiting d f left → f.kind = .row r → 3 ≤ f.sends →
      Completes (.terminalNak l) s (ended false)) ∧
    ∀ r burst w op, (c.line l).use = .reading d r → s.arb.port = .own (rSLC l) op (.rowRead p burst (c.line l).epoch w) false →
      Completes (.storeAnswer false) s fun t => ended false t ∧ (t.chip.line l).use = .free) ∧
  ∀ (s : State) (op : StoreOp) (okay : Bool), s.prompt = false →
    let c := s.chip
    let f := c.scu.fan
    -- the fan-out goes on with the first present screen of `qs`, or ends
    let goesOn (t : State) (copy : List Word) (qs : List (Fin 12)) : Prop :=
      match qs.dropWhile fun q => !c.screenPresent q with
      | [] => t.chip.scu.fan.phase = .idle ∧ t.chip.own[rSCU.val] = c.own[rSCU.val]
      | q :: left => t.chip.scu.fan.phase = .writing ∧ t.chip.scu.fan.screens = left ∧ t.chip.scu.serving = some (.fanWrite q) ∧
        t.chip.own[rSCU.val] = c.own[rSCU.val] ++ (List.range 5).map fun j =>
          ⟨.write (c.screenAddr q (160 * f.row + 32 * j)) ((copy.drop (8 * j)).take 8), .fanWrite q j, false⟩
    let told (t : State) : Prop := (okay = true → t.chip.su = c.su) ∧ (okay = false → c.su.reports.length < 16 → t.chip.su = { c.su with
      reports := c.su.reports ++ [⟨.storeError, rSCU.val, pageOf op.addr, c.su.ms⟩] })
    (∀ burst addr, op = .read addr 4 8 → s.arb.port = .own rSCU op (.fanRead burst) false → Completes (.storeAnswer okay) s fun t =>
      let copy := f.copy ++ if okay = true then readWords s.mem addr 4 8 else []
      let failed := f.failed = true ∨ okay = false
      t.chip.scu.screens = c.scu.screens ∧ told t ∧ t.chip.scu.fan.start = f.start ∧
      (burst ≠ 4 → t.chip.scu = { c.scu with fan := { f with copy := copy, failed := f.failed || !okay } }) ∧
      (burst = 4 → f.start = true ∨ failed → t.chip.scu.fan.phase = .idle) ∧
      (burst = 4 → f.start = false → ¬ failed → c.scu.work = [] → t.chip.scu.fan.copy = copy ∧ goesOn t copy f.screens)) ∧
    ∀ (p : Fin 12) (burst : Nat), s.arb.port = .own rSCU op (.fanWrite p burst) false → f.phase = .writing →
      Completes (.storeAnswer okay) s fun t =>
        (let a := c.screen p
         let b := t.chip.screen p
         b = { a with dirty := b.dirty } ∧ ∀ r : Fin 25, hasRow b.dirty r =
           (hasRow a.dirty r || (okay && r.val == f.row && !(hasRow a.sweep r || a.flight == some ⟨r, false⟩)))) ∧
        SameBut p c.scu.screens t.chip.scu.screens ∧ told t ∧ t.chip.scu.fan.start = f.start ∧
        (burst ≠ 4 → t.chip.scu.fan = f ∧ t.chip.own[rSCU.val] = c.own[rSCU.val]) ∧
        (burst = 4 → f.start = true → t.chip.scu.fan.phase = .idle) ∧
        (burst = 4 → f.start = false → c.scu.work = [] → t.chip.scu.fan.copy = f.copy ∧ goesOn t f.copy f.screens)

/-- The status row. Its 80 cells by Table 6-4: the position, the state word, the cash position, the attention text and the day
field, with columns 4 to 61 blank in REBUILDING, and the inverse attribute on columns 32 to 61 while the flash phase is on
(R111); the attention text and the day field case by case (R111, R112). STATUS_ROW_RENDER: the entry at the head is taken; a
rendering that differs is recorded and written to row 24 as five bursts, an equal one is not written, and an absent screen has
no rendering (R113). Each burst answered OKAY marks row 24 dirty (R99); one answered ERROR discards the rendering and is
reported; after the fifth the next entry of the work list is taken (R113). FLASH_TOGGLE turns the phase every 1,000 ms while
there is an attention text (R112), and otherwise changes nothing (the model's choice, log 28). -/
def Obligations.StatusRowsRender : Prop :=
  (∀ (c : Chip) (p : Fin 12), c.setting .decimals ∈ [0, 2, 3] → c.setting .separators ≤ 3 →
    cashPosition c.faces (c.drawerOf p).counts ≤ 999999999999 →
    let field (n : Nat) (t : List Byte) : List Byte := t ++ List.replicate (n - t.length) 0x20
    let amount (m : Nat) (minus : Bool) := amountField (c.setting .decimals) (c.setting .separators) m minus
    let word : String := match (c.drawerOf p).state with
      | .unused => "UNUSED" | .drawerOpen => "OPEN" | .difference => "DIFFERENCE" | .balanced => "BALANCED"
    let middle := if c.su.unitState = .rebuilding then List.replicate 58 (0x20 : Byte)
      else field 10 (text word) ++ amount (cashPosition c.faces (c.drawerOf p).counts) false ++ [0x20]
        ++ field 30 (c.attentionText p)
    let cells := splitCells (wordsBytes (c.renderStatus p))
    ((c.attentionText p).length ≤ 30 → c.dayField.length ≤ 17 →
      cells.1 = [0x50, BitVec.ofNat 8 (48 + p.val / 10), BitVec.ofNat 8 (48 + p.val % 10), 0x20] ++ middle ++ [0x20]
        ++ field 17 c.dayField) ∧
    cells.2 = List.replicate 32 0 ++ List.replicate 30 (if (c.screen p).flash = true then 1 else 0) ++ List.replicate 18 0 ∧
    (c.renderStatus p).length = 40 ∧
    c.attentionText p = (if c.su.unitState = .rebuilding then []
      else if (c.drop p).attention = true then text "DRAWER OPEN LONG"
      else match (c.drawerOf p).state, (c.drawerOf p).declared with
        | .difference, some d => text "DIFF " ++ amount d.difference.natAbs (decide (d.difference < 0))
        | _, _ => if (c.drawerOf p).excess = true then text "EXCESS" else []) ∧
    c.dayField = (if c.su.unitState = .rebuilding then text "REBUILDING" else match c.cu.day.state with
      | .noDay => text "NO DAY" | .dayOpen => text "OPEN" | .closed => text "CLOSED" | .sent => text "SENT"
      | .sending => text "SENDING " ++ decimal (c.scu.ackedFrames * 100 / c.scu.totalFrames) ++ text "%")) ∧
  (∀ (s : State) (p : Fin 12) (rest : List ScuWork), s.prompt = false → s.chip.scu.serving = none →
    s.chip.scu.work = .status p :: rest →
    let row := s.chip.renderStatus p
    (s.chip.screenPresent p = true → (s.chip.screen p).rendering ≠ some row → Completes .statusRowRender s fun t =>
      t.chip.screen p = { s.chip.screen p with rendering := some row } ∧ t.chip.scu.serving = some (.status p) ∧
      t.chip.scu.work = rest ∧ SameBut p s.chip.scu.screens t.chip.scu.screens ∧ s.Only [.scu, .own] t ∧
      t.chip.own = vupd s.chip.own rSCU (· ++ (List.range 5).map fun j =>
        ⟨.write (s.chip.screenAddr p (3840 + 32 * j)) ((row.drop (8 * j)).take 8), .scuStatus p j, false⟩)) ∧
    (rest = [] → s.chip.screenPresent p = true → (s.chip.screen p).rendering = some row →
      exec .statusRowRender s = .next { s with chip := { s.chip with scu := { s.chip.scu with work := [] } } }) ∧
    (s.chip.screenPresent p = false → Completes .statusRowRender s fun t => (t.chip.screen p).rendering = none ∧
      SameBut p s.chip.scu.screens t.chip.scu.screens ∧ s.Only [.scu, .own] t)) ∧
  (∀ (s : State) (p : Fin 12) (burst : Nat) (op : StoreOp) (okay : Bool), s.prompt = false →
    s.arb.port = .own rSCU op (.scuStatus p burst) false → Completes (.storeAnswer okay) s fun t =>
      let c := s.chip
      let a := c.screen p
      let b := t.chip.screen p
      let took (serving : Option ScuWork) (work : List ScuWork) (rs : List OwnReq) : Prop := t.chip.scu.serving = serving ∧
        t.chip.scu.work = work ∧ t.chip.scu.fan = c.scu.fan ∧ t.chip.own[rSCU.val] = c.own[rSCU.val] ++ rs
      c.Told t.chip okay rSCU op.addr ∧ SameBut p c.scu.screens t.chip.scu.screens ∧
      (okay = false → b = { a with rendering := none }) ∧
      (okay = true → b = { a with dirty := b.dirty } ∧ ∀ r : Fin 25, hasRow b.dirty r =
        (hasRow a.dirty r || (r == 24 && !(hasRow a.sweep r || a.flight == some ⟨r, false⟩)))) ∧
      (burst ≠ 4 → took c.scu.serving c.scu.work []) ∧ (burst = 4 → c.scu.work = [] → took none [] []) ∧
      (∀ q rest, burst = 4 → c.scu.work = .status q :: rest → took none (.status q :: rest) []) ∧
      (∀ q rest, burst = 4 → c.scu.work = .count q :: rest → c.screenPresent q = true → took (some (.count q)) rest
        [⟨.write (c.screenAddr q 4000) [wd (c.screen q).sweepCount], .scuCount, false⟩]) ∧
      ∀ q fin rest, burst = 4 → c.scu.work = .mode q fin :: rest → c.screenPresent q = true → took (some (.mode q fin)) rest
        [⟨.write (c.screenAddr q 4004) [(t.chip.screen q).modeWord], .scuMode, fin⟩]) ∧
  ∀ (s : State) (p : Fin 12), s.prompt = false →
    (¬ ((s.chip.screen p).attention = true ∧ 1000 ≤ (s.chip.screen p).flashMs) → exec (.flashToggle p) s = .next s) ∧
    ((s.chip.screen p).attention = true → 1000 ≤ (s.chip.screen p).flashMs → s.chip.attentionText p ≠ [] →
      Completes (.flashToggle p) s fun t =>
        t.chip.screen p = { s.chip.screen p with flash := !(s.chip.screen p).flash, flashMs := 0 } ∧
        .status p ∈ t.chip.scu.work ∧ SameBut p s.chip.scu.screens t.chip.scu.screens ∧ s.Only [.scu, .own] t)

/-- The timers of a position. IDLE_TIMER_EXPIRY: a screen not blanked is auto-blanked, its mode remembered, with the effects of
R106 on its rows and its mode word, its release withdrawn, and an open drawer reported; one blanked stays (R109; that the timer
expires once is log 48). OPEN_LONG_EXPIRY: the attention is set and reported (R130). RELEASE_PULSE_END: DRWREL_p is inactive
(R132). Before its time none of them does anything: the model's choice (logs 1 and 28). -/
def Obligations.PositionTimers : Prop :=
  (∀ (s : State) (p : Fin 12), s.prompt = false →
    let a := s.chip.screen p
    let t0 := s.chip.setting .idleBlank
    let due := t0 ≠ 0 ∧ a.idleExpired = false ∧ t0 * 1000 ≤ a.idleMs
    let blanked := a.autoBlanked = true ∨ a.mode.kind = .blanked
    (¬ due → exec (.idleTimerExpiry p) s = .next s) ∧
    (due → blanked → exec (.idleTimerExpiry p) s = .next { s with chip := s.chip.onScreen p fun x => { x with idleExpired := true } }) ∧
    (due → ¬ blanked → Completes (.idleTimerExpiry p) s fun t =>
      let b := t.chip.screen p
      b.mode = ⟨.blanked, 0, 23⟩ ∧ b.autoBlanked = true ∧ b.remembered = some a.mode ∧ b.idleExpired = true ∧
      s.chip.ModeChanged t.chip p false ∧ (t.chip.drop p) = { s.chip.drop p with pulse := none } ∧
      ((s.chip.drop p).sensor = .sensorOpen → s.chip.su.reports.length < 16 →
        t.chip.su = { s.chip.su with reports := s.chip.su.reports ++ [⟨.drawerUnattended, p.val, 0, s.chip.su.ms⟩] }) ∧
      ((s.chip.drop p).sensor ≠ .sensorOpen → t.chip.su = s.chip.su) ∧ SameBut p s.chip.scu.screens t.chip.scu.screens ∧
      SameBut p s.chip.slc.drops t.chip.slc.drops ∧ s.Only [.su, .scu, .slc, .own] t)) ∧
  (∀ (s : State) (p : Fin 12), s.prompt = false →
    ((s.chip.drop p).openTimer ≠ some 0 → exec (.openLongExpiry p) s = .next s) ∧
    ((s.chip.drop p).openTimer = some 0 → s.chip.su.reports.length < 16 → Completes (.openLongExpiry p) s fun t =>
      t.chip.drop p = { s.chip.drop p with openTimer := none, attention := true } ∧
      t.chip.su = { s.chip.su with reports := s.chip.su.reports ++ [⟨.drawerOpenLong, p.val, 0, s.chip.su.ms⟩] } ∧
      .status p ∈ t.chip.scu.work ∧ SameBut p s.chip.slc.drops t.chip.slc.drops ∧ s.Only [.su, .scu, .slc, .own] t)) ∧
  ∀ (s : State) (p : Fin 12), s.prompt = false →
    ((s.chip.drop p).pulse ≠ some 0 → exec (.releasePulseEnd p) s = .next s) ∧
    ((s.chip.drop p).pulse = some 0 → Completes (.releasePulseEnd p) s fun t => t.chip.drwrel p = false ∧
      t.chip.drop p = { s.chip.drop p with pulse := none } ∧ SameBut p s.chip.slc.drops t.chip.slc.drops ∧
      t.chip.slc.lines = s.chip.slc.lines ∧ s.Only [.slc] t)

/-! ### Screen lines -/

/-- A turn of a free line serves the first drop after the pointer that has something to send, by its choice (R123, R124),
whichever of LINE_TURN, POLL_INTERVAL_EXPIRY and ATTACH_ATTEMPT_DUE brings it. What it has to send, by precedence: a frame
awaiting resend, an IDENT_REQ that is due, a pending MODE, the next row of the sweep, a BELL, a POLL that is due (R124, R125). A
line in use, or with nothing to send, stays as it is (log 28), one whose key rings are still being set takes no turn (log 23),
and the mark of a MODE or BELL is cleared as its frame is handed over (log 17): the model's choices. So is that a frame awaiting
resend is sent first whether or not its screen is still present (log 57). The bytes of a frame, and a MODE's payload, are stated
in FramesGoOut. -/
def Obligations.LinesTurn : Prop :=
  (∀ (c : Chip) (p : Fin 12),
    let a := c.drop p
    let x := c.screen p
    let shown := a.terminal = .attached ∧ c.screenPresent p = true
    let asks := (a.terminal = .detached ∨ a.terminal = .lost) ∧ a.attachIn = 0
    let row : Option (Fin 25) := if x.flight ≠ none then none else if hasRow x.sweep 24 = true then some 24
      else if c.setting (.scanDir p) = 1 then rows.reverse.find? (hasRow x.sweep) else rows.find? (hasRow x.sweep)
    let polls : Option TurnChoice :=
      if a.terminal = .attached ∧ c.setting .pollInterval ≤ a.sinceExchange then some .poll else none
    (∀ f, a.resend = some f → c.choose p = some (.resend f)) ∧
    (a.resend = none → asks → c.choose p = some .identReq) ∧
    (a.resend = none → ¬ asks → shown → x.modePending = true → c.choose p = some .mode) ∧
    (∀ r, a.resend = none → ¬ asks → shown → x.modePending = false → row = some r → c.choose p = some (.row r)) ∧
    (a.resend = none → ¬ asks → shown → x.modePending = false → row = none → x.bell = true → c.choose p = some .bell) ∧
    (a.resend = none → ¬ asks → ¬ shown ∨ (x.modePending = false ∧ row = none ∧ x.bell = false) → c.choose p = polls)) ∧
  ∀ (s : State) (i : Instr) (l : Fin 3), s.prompt = false → s.chip.Turns i l →
    (s.chip.lineMayTurn l = false ∨ (∀ d, s.chip.choose (posOf l d) = none) → exec i s = .next s) ∧
    ∀ (d : Fin 4) (choice : TurnChoice) (k : Nat), s.chip.lineMayTurn l = true → k < 4 →
      d.val = ((s.chip.line l).pointer.val + 1 + k) % 4 →
      (∀ j < k, ∀ e : Fin 4, e.val = ((s.chip.line l).pointer.val + 1 + j) % 4 → s.chip.choose (posOf l e) = none) →
      s.chip.choose (posOf l d) = some choice →
      let p := posOf l d
      let sends (c : Chip) (f : LineFrame) := exec i s = .next { s with chip := c.onLine l fun x => { x with pointer := d, use := .gap d f } }
      match choice with
      | .poll => sends s.chip ⟨.poll, lineBytes d.val 3 [], 0⟩
      | .identReq => sends s.chip ⟨.identReq, lineBytes d.val 4 [], 0⟩
      | .bell => sends (s.chip.onScreen p fun x => { x with bell := false }) ⟨.bell, lineBytes d.val 5 [], 0⟩
      | .mode => sends (s.chip.onScreen p fun x => { x with modePending := false })
          ⟨.mode, lineBytes d.val 2 (s.chip.screen p).modePayload, 0⟩
      | .resend f => sends (s.chip.onDrop p fun x => { x with resend := none }) f
      | .row r =>
        let taken := (s.chip.onScreen p fun x => { x with sweep := vput x.sweep r false, flight := some ⟨r, false⟩ }).onLine l
          fun x => { x with pointer := d, use := .reading d r }
        let read := taken.push (rSLC l) (.read (s.chip.screenAddr p (160 * r.val)) 4 8) (.rowRead p 0 (s.chip.line l).epoch [])
        exec i s = .next { s with chip := read }

/-- Frames of a screen line. A frame is the start byte 0xA5, the drop address, the type, the payload's length, the payload and
the CRC-16 of address to payload, most significant byte first, and a MODE payload is mode, first, last and PLAIN in force (R118,
Table 12-18, R197). A byte stands on TXD, and on HTX, as a start bit, eight data bits least significant first and a stop bit
(R119, R197), and so does the byte in progress of a frame or message stopped (R133, R147); that the start bit is low, the stop
bit and the line at rest high is presumed (log 84). The read of a row has begun when its first burst is granted (R101). Each
burst answered OKAY is followed by the next, in address order, and the fifth by the ROW frame: the row number, 80 characters, 80
attributes, of which PLAIN keeps inverse and underline (R101, R105, R118). LINE_GAP_EXPIRY: with the gap's character times
passed the frame goes out, its bytes timed by the line's rate, and an IDENT_REQ makes the terminal ATTACHING with its next
attempt a second away (R119, R120, R125). FRAME_SENT: at the last byte the line turns to receive and the reply time starts
(R119, R120). Neither does anything before its time: the model's choice (logs 1 and 28). -/
def Obligations.FramesGoOut : Prop :=
  ((∀ (d type : Nat) (payload : List Byte),
      let body := [BitVec.ofNat 8 d, BitVec.ofNat 8 type, BitVec.ofNat 8 payload.length] ++ payload
      lineBytes d type payload = 0xA5 :: body ++ [BitVec.ofNat 8 (crc16 body / 256), BitVec.ofNat 8 (crc16 body)]) ∧
    ∀ x : Screen, x.modePayload = [match x.mode.kind with | .normal => 0 | .partialRows => 1 | .blanked => 2,
      BitVec.ofNat 8 x.mode.first, BitVec.ofNat 8 x.mode.last, if x.plain = true then 1 else 0]) ∧
  (∀ (c : Chip) (l : Fin 3) (n : Fin 4) (j : Fin 10) (b : Byte) (k x : Nat),
    let level : Bool := if j = 0 then false else if j = 9 then true else b.getLsbD (j.val - 1)
    -- with `left` CLK periods of `len` bytes to go, bit `j` of byte `k` stands on the line
    let stands (bit len left : Nat) : Prop := x < bit ∧ left + (10 * k + j.val) * bit + x = 10 * bit * len
    let bit := bitClk (c.line l).rate
    (∀ d f left reply, (c.line l).use = .sending d f left reply → f.bytes[k]? = some b → stands bit f.bytes.length left →
      c.txd l = level) ∧
    (∀ bit left, (c.line l).use = .stopping b bit left → k = 0 → stands bit 1 left → c.txd l = level) ∧
    ((c.line l).use = .free → c.txd l = true) ∧
    (∀ m left, (c.printer n).head = .sending m left → m[k]? = some b → stands 625 m.length left → c.htx n = level) ∧
    (∀ left, (c.printer n).head = .stopping b left → k = 0 → stands 625 1 left → c.htx n = level) ∧
    ((c.printer n).head = .idle → c.htx n = true)) ∧
  (∀ (s : State) (p : Fin 12) (burst epoch : Nat) (w : List Word) (r : OwnReq) (rest : List OwnReq), s.prompt = false →
    s.arb.port = .idle → s.chip.hostWaiting = none → (∀ u : Fin 9, u ≠ rSLC (lineOf p) → s.chip.waiting[u.val] = []) →
    s.chip.own[(rSLC (lineOf p)).val] = r :: rest → r.tag = .rowRead p burst epoch w → Completes .arbiterGrant s fun t =>
      t.arb.port = .own (rSLC (lineOf p)) (s.chip.resolveOp r.op) r.tag r.fin ∧ t.chip.own[(rSLC (lineOf p)).val] = rest ∧
      (burst = 0 ∧ epoch = (s.chip.line (lineOf p)).epoch → t.chip.scu = (s.chip.onScreen p fun x =>
        { x with flight := x.flight.map fun f => { f with begun := true } }).scu) ∧
      (¬ (burst = 0 ∧ epoch = (s.chip.line (lineOf p)).epoch) → t.chip.scu = s.chip.scu)) ∧
  (∀ (s : State) (l : Fin 3) (d : Fin 4) (r : Fin 25) (burst addr : Nat) (w : List Word), s.prompt = false →
    let c := s.chip
    let p := posOf l d
    let ws := w ++ readWords s.mem addr 4 8
    (c.line l).use = .reading d r → s.arb.port = .own (rSLC l) (.read addr 4 8) (.rowRead p burst (c.line l).epoch w) false →
      Completes (.storeAnswer true) s fun t =>
        (burst < 4 → t.chip = c.push (rSLC l) (.read (c.screenAddr p (160 * r.val + 32 * (burst + 1))) 4 8)
          (.rowRead p (burst + 1) (c.line l).epoch ws)) ∧
        (4 ≤ burst → ws.length = 40 →
          let byte (k : Nat) : Byte := (wordsBytes ws).getD k 0
          let characters := (List.range 80).map fun k => byte (2 * k)
          let attributes := (List.range 80).map fun k => if (c.screen p).plain = true then byte (2 * k + 1) &&& 3 else byte (2 * k + 1)
          t.chip = c.onLine l fun x => { x with
            pointer := d, use := .gap d ⟨.row r, lineBytes d.val 1 (BitVec.ofNat 8 r.val :: characters ++ attributes), 0⟩ })) ∧
  (∀ (s : State) (l : Fin 3) (d : Fin 4) (f : LineFrame), s.prompt = false → (s.chip.line l).use = .gap d f →
    let ln := s.chip.line l
    (ln.quiet < ln.gap * (10 * bitClk ln.rate) → exec (.lineGapExpiry l) s = .next s) ∧
    (ln.gap * (10 * bitClk ln.rate) ≤ ln.quiet → Completes (.lineGapExpiry l) s fun t =>
      t.chip.line l = { ln with
        quiet := 0
        use := .sending d { f with sends := f.sends + 1 } (f.bytes.length * (10 * bitClk ln.rate)) (s.chip.setting (.replyTime l)) } ∧
      t.chip.dirActive l = true ∧ SameBut l s.chip.slc.lines t.chip.slc.lines ∧
      (f.kind ≠ .identReq → t.chip.slc.drops = s.chip.slc.drops) ∧
      (f.kind = .identReq → t.chip.slc.drops =
        vupd s.chip.slc.drops (posOf l d) fun x => { x with terminal := .attaching, attachIn := 1000 }) ∧ s.Only [.slc] t)) ∧
  ∀ (s : State) (l : Fin 3) (d : Fin 4) (f : LineFrame) (left reply : Nat), s.prompt = false →
    (s.chip.line l).use = .sending d f left reply →
    (left ≠ 0 → exec (.frameSent l) s = .next s) ∧
    (left = 0 → exec (.frameSent l) s = .next
      { s with chip := s.chip.onLine l fun x => { x with use := .awaiting d f reply, quiet := 0 } })

/-- The answers of a terminal, each taken while its exchange waits for it, the reply time run out or not (an answer begun in
time, log 44). An ACK frees the line, clears the misses, takes the sensor and, of a ROW, ends the row in flight delivered; its
key wakes an auto-blanked screen or is placed in the ring with the time (R121, R127, R128, R110). A NAK keeps the frame for a
resend until it has been sent three times (R121). An IDENT attaches the terminal (R125, R103). An exchange that ends without a
valid answer, by damaged bytes, by a pause in the answer or at the end of the reply time, is a miss: the frame waits for a
resend until its third send, the third miss in a row loses an ATTACHED terminal, and a missed IDENT_REQ leaves it DETACHED (R120
to R122, R125, R126), its misses as they were (log 37). An answer with no exchange waiting is ignored, its bytes seen (R119);
REPLY_TIMEOUT before its time does nothing (the model's choice, logs 1 and 28). Keys in number, the ring, the sensor and the
words of the control area are in KeysAndSensors. -/
def Obligations.TerminalsAnswer : Prop :=
  (∀ (s : State) (l : Fin 3) (d : Fin 4) (f : LineFrame) (left : Nat) (isOpen : Bool) (keys : List (BitVec 16)), s.prompt = false →
    (s.chip.line l).use = .awaiting d f left → f.kind ≠ .identReq → keys.length ≤ 4 →
    let p := posOf l d
    let a := s.chip.drop p
    Completes (.terminalAck l isOpen keys) s fun t =>
      let b := t.chip.drop p
      (t.chip.line l).use = .free ∧ (t.chip.line l).quiet = 0 ∧ b.misses = 0 ∧ b.sinceExchange = 0 ∧
      b.sensor = (if isOpen = true then .sensorOpen else .shut) ∧ b.terminal = a.terminal ∧ b.resend = a.resend ∧
      (∀ r x, f.kind = .row r → (s.chip.screen p).flight = some x → keys = [] → (t.chip.screen p).flight = none ∧
        (t.chip.screen p).dirty = (s.chip.screen p).dirty) ∧
      (keys = [] → f.kind = .poll → b.attention = a.attention → t.chip.scu.screens = s.chip.scu.screens) ∧
      (∀ key, keys = [key] → (s.chip.screen p).autoBlanked = true → (t.chip.screen p).autoBlanked = false ∧
        (t.chip.screen p).mode = (s.chip.screen p).remembered.getD .normal ∧ (f.kind = .poll → s.chip.ModeChanged t.chip p false) ∧
        ((s.chip.line l).keys = [] → (t.chip.line l).keys = [] ∧ (t.chip.line l).placing = (s.chip.line l).placing)) ∧
      (∀ key, keys = [key] → (s.chip.screen p).autoBlanked = false → key ≠ 0xFFFF → s.chip.screenPresent p = true →
        (s.chip.line l).keys = [] → (s.chip.line l).placing = false →
        (s.chip.line l).initLeft = 0 → (a.writeIndex + 32 - a.readIndex) % 32 < 16 →
        (t.chip.line l).placing = true ∧ (t.chip.own[(rSLC l).val] : List OwnReq).getLast? = some
          ⟨.write (s.chip.screenAddr p (4032 + 4 * (a.writeIndex % 16))) [wd (key.toNat + 65536 * (s.chip.su.ms % 65536))],
            .keyEntry p a.keyEpoch, false⟩)) ∧
  (∀ (s : State) (l : Fin 3) (d : Fin 4) (f : LineFrame) (left : Nat), s.prompt = false →
    (s.chip.line l).use = .awaiting d f left → f.kind ≠ .identReq →
    let p := posOf l d
    Completes (.terminalNak l) s fun t =>
      (t.chip.line l).use = .free ∧ (t.chip.line l).quiet = 0 ∧ (t.chip.drop p).misses = 0 ∧ (t.chip.drop p).sinceExchange = 0 ∧
      (f.sends < 3 → (t.chip.drop p).resend = some f ∧ t.chip.scu = s.chip.scu) ∧
      (3 ≤ f.sends → (t.chip.drop p).resend = (s.chip.drop p).resend ∧
        (f.kind = .mode → (t.chip.screen p).modePending = true) ∧
        (∀ r x, f.kind = .row r → (s.chip.screen p).flight = some x → (t.chip.screen p).flight = none ∧
          hasRow (t.chip.screen p).dirty x.row = true))) ∧
  (∀ (s : State) (l : Fin 3) (d : Fin 4) (f : LineFrame) (left : Nat) (colour : Bool) (kind rev : Byte), s.prompt = false →
    (s.chip.line l).use = .awaiting d f left → f.kind = .identReq →
    let p := posOf l d
    Completes (.terminalIdent l colour kind rev) s fun t =>
      (let b := t.chip.drop p
       b.terminal = .attached ∧ b.misses = 0 ∧ b.resend = none ∧ b.colour = colour ∧ b.keyboard = kind ∧ b.revision = rev ∧
       b.sensor = (s.chip.drop p).sensor) ∧
      (t.chip.line l).use = .free ∧ (t.chip.line l).quiet = 0 ∧ (t.chip.screen p).modePending = true ∧
      (∀ r : Fin 25, (s.chip.screen p).marks r = true → hasRow (t.chip.screen p).dirty r = true) ∧
      (t.chip.screen p).plain = ((s.chip.screen p).askedPlain || !t.chip.colourCapable p) ∧
      (s.chip.su.reports.length < 16 →
        t.chip.su = { s.chip.su with reports := s.chip.su.reports ++ [⟨.terminalAttached, p.val, 0, s.chip.su.ms⟩] })) ∧
  (∀ (s : State) (i : Instr) (l : Fin 3) (d : Fin 4) (f : LineFrame), s.prompt = false → s.chip.Missed i l d f →
    let p := posOf l d
    let a := s.chip.drop p
    Completes i s fun t =>
      let b := t.chip.drop p
      (t.chip.line l).use = .free ∧ b.sinceExchange = 0 ∧
      (f.kind = .identReq → b.terminal = .detached ∧ b.misses = a.misses ∧ b.resend = a.resend) ∧
      (f.kind ≠ .identReq → b.misses = a.misses + 1) ∧
      (f.kind ≠ .identReq → a.terminal = .attached → a.misses + 1 < 3 → b.terminal = .attached ∧
        b.resend = (if f.sends < 3 then some f else a.resend) ∧ b.sensor = a.sensor ∧ t.chip.su = s.chip.su) ∧
      (f.kind ≠ .identReq → a.terminal = .attached → 3 ≤ a.misses + 1 → b.terminal = .lost ∧ b.resend = none ∧
        b.sensor = .unknown ∧ b.pulse = none ∧ (a.sensor ≠ .unknown → b.openTimer = none) ∧ b.attachIn = 1000 ∧ (t.chip.screen p).sweeping = false ∧
        (t.chip.screen p).flight = none ∧ (t.chip.screen p).mode = (s.chip.screen p).mode ∧
        (s.chip.su.reports.length < 16 → t.chip.su =
          { s.chip.su with reports := s.chip.su.reports ++ [⟨.terminalLost, p.val, 0, s.chip.su.ms⟩] }))) ∧
  ∀ (s : State) (l : Fin 3), s.prompt = false →
    ((∀ d f left, (s.chip.line l).use ≠ .awaiting d f left) →
      (∀ i, ((∃ o keys, i = .terminalAck l o keys) ∨ i = .terminalNak l ∨ (∃ c k r, i = .terminalIdent l c k r) ∨
        ∃ bytes, i = .damagedAnswer l bytes) → exec i s = .next { s with chip := s.chip.onLine l fun x => { x with quiet := 0 } }) ∧
      exec (.answerPauseTimeout l) s = .next s) ∧
    ((∀ d f, (s.chip.line l).use ≠ .awaiting d f 0) → exec (.replyTimeout l) s = .next s)

/-- Keys, the drawer sensor and the terminal state word. The keys of an ACK, taken in order, restart the idle timer; the first
of an auto-blanked screen wakes it and is consumed, a DRAWER key releases the drawer where REMOTE_RELEASE_p and R131 let it, and
the others join the keys to be placed with one stamp, an absent screen's being dropped (R127). The key placed next, its ring
judged when its place comes (log 56): with fewer than 16 unread its entry is written at the write index; with 16 or more it is
dropped, and the overflow flag, if clear, is set, the word written and KEYS_DROPPED reported (R128). The entry answered OKAY,
the index word is written advanced; that answered OKAY, the index advances; an ERROR of either is reported, drops the key and
leaves the index, and then the next key is placed (R128), as it is when the ring has been set afresh (R134). A reading that
differs from the one held is written to the sensor word; OPEN starts the open-too-long timer, but with OPEN_LONG 0 or the
attention set, and SHUT stops it and clears the attention (R130). The terminal state word is written by an IDENT, by a missed
IDENT_REQ and, after the sensor word, by a third miss (R125, R126); an ERROR of a control word is reported and changes nothing
else (R128, R130). -/
def Obligations.KeysAndSensors : Prop :=
  let full (x : Drop) : Prop := 16 ≤ (x.writeIndex + 32 - x.readIndex) % 32
  let entry (c : Chip) (p : Fin 12) (j : KeyJob) : OwnReq := ⟨.write (c.screenAddr p (4032 + 4 * ((c.drop p).writeIndex % 16)))
    [wd (j.key.toNat + 65536 * (j.stamp % 65536))], .keyEntry p (c.drop p).keyEpoch, false⟩
  let word (c : Chip) (p : Fin 12) (off n : Nat) : List OwnReq :=
    if c.screenPresent p = true then [⟨.write (c.screenAddr p off) [wd n], .screenWord p, false⟩] else []
  let terminal (x : Drop) (state : Nat) : Nat :=
    state + 256 * flagBit x.colour + 65536 * x.keyboard.toNat + 16777216 * x.revision.toNat
  let mine (c : Chip) (l : Fin 3) : List OwnReq := c.own[(rSLC l).val]
  (∀ (s : State) (l : Fin 3) (d : Fin 4) (f : LineFrame) (left : Nat) (isOpen : Bool) (keys : List (BitVec 16)), s.prompt = false →
    (s.chip.line l).use = .awaiting d f left → f.kind ≠ .identReq → keys.length ≤ 4 →
    let c := s.chip
    let p := posOf l d
    let a := c.drop p
    let ln := c.line l
    let held := if a.sensor = (if isOpen = true then .sensorOpen else .shut) then [] else word c p 4012 (flagBit isOpen)
    let taken := if (c.screen p).autoBlanked = true then keys.drop 1 else keys
    let jobs : List KeyJob := (taken.filter fun key => key != 0xFFFF).map fun key => ⟨d, key, c.su.ms % 65536⟩
    Completes (.terminalAck l isOpen keys) s fun t =>
      let b := t.chip.drop p
      let x := t.chip.line l
      (keys ≠ [] → (t.chip.screen p).idleMs = 0 ∧ (t.chip.screen p).idleExpired = false) ∧
      (c.screenPresent p = false → ln.keys = [] → x.keys = [] ∧ x.placing = ln.placing ∧ mine t.chip l = mine c l) ∧
      (c.screenPresent p = true → ln.placing = true ∨ ln.initLeft ≠ 0 →
        x.keys = ln.keys ++ jobs ∧ x.placing = ln.placing ∧ mine t.chip l = mine c l ++ held) ∧
      (c.screenPresent p = true → ln.placing = false → ln.initLeft = 0 → ln.keys = [] → match jobs with
        | [] => x.keys = [] ∧ x.placing = false ∧ mine t.chip l = mine c l ++ held
        | j :: rest =>
          (¬ full a → x.keys = rest ∧ x.placing = true ∧ b.overflow = a.overflow ∧ t.chip.su = c.su ∧
            mine t.chip l = mine c l ++ held ++ [entry c p j]) ∧
          (full a → x.keys = [] ∧ x.placing = false ∧ b.overflow = true ∧
            c.Reports t.chip (if a.overflow = true then [] else [(.keysDropped, p.val, 0)]) ∧
            mine t.chip l = mine c l ++ held ++
              if a.overflow = true then [] else [⟨.keyWord p (c.screenAddr p 4016), .plain, false⟩])) ∧
      (keys = [0xFFFF] → (c.screen p).autoBlanked = false → c.screenPresent p = true → b.pulse =
        if c.setting (.remoteRelease p) = 1 ∧ c.su.unitState = .ready ∧ c.cu.day.state = .dayOpen ∧
            (c.drawerOf p).state = .drawerOpen ∧ a.terminal = .attached ∧ (c.screen p).mode.kind ≠ .blanked then
          some (c.setting .releaseTime) else a.pulse) ∧
      (a.sensor = .sensorOpen ∧ isOpen = true ∨ a.sensor = .shut ∧ isOpen = false →
        b.openTimer = a.openTimer ∧ b.attention = a.attention) ∧
      (a.sensor ≠ .sensorOpen → isOpen = true → b.attention = a.attention ∧ b.openTimer =
        if a.attention = true ∨ c.setting .openLong = 0 then a.openTimer else some (c.setting .openLong * 1000)) ∧
      (a.sensor ≠ .shut → isOpen = false → b.openTimer = none ∧ b.attention = false ∧
        (a.attention = true → .status p ∈ t.chip.scu.work))) ∧
  (∀ (s : State) (p : Fin 12) (epoch : Nat) (op : StoreOp) (okay : Bool), s.prompt = false →
    let c := s.chip
    let l := lineOf p
    let a := c.drop p
    let next (t : State) : Prop := (c.line l).initLeft = 0 → match (c.line l).keys with
      | [] => c.Told t.chip okay (rSLC l) op.addr ∧ (t.chip.line l).placing = false ∧ (t.chip.line l).keys = [] ∧
        mine t.chip l = mine c l
      | j :: rest => c.screenPresent (posOf l j.drop) = true → ¬ full (t.chip.drop (posOf l j.drop)) →
        c.Told t.chip okay (rSLC l) op.addr ∧ (t.chip.line l).placing = true ∧ (t.chip.line l).keys = rest ∧
        mine t.chip l = mine c l ++ [entry t.chip (posOf l j.drop) j]
    (s.arb.port = .own (rSLC l) op (.keyEntry p epoch) false → Completes (.storeAnswer okay) s fun t =>
      (okay = true → epoch = a.keyEpoch → t.chip.slc = c.slc ∧ t.chip.su = c.su ∧ mine t.chip l = mine c l ++
        [⟨.write (c.screenAddr p 4016) [wd ((a.writeIndex + 1) % 32 + 256 * flagBit a.overflow)], .keyIndex p epoch, false⟩]) ∧
      (okay = false ∨ epoch ≠ a.keyEpoch → (t.chip.drop p).writeIndex = a.writeIndex ∧ next t)) ∧
    (s.arb.port = .own (rSLC l) op (.keyIndex p epoch) false → Completes (.storeAnswer okay) s fun t =>
      (t.chip.drop p).writeIndex = (if okay = true ∧ epoch = a.keyEpoch then (a.writeIndex + 1) % 32 else a.writeIndex) ∧
      next t) ∧
    ∀ tag, tag = .screenWord p ∨ tag = .plain → s.arb.port = .own (rSLC l) op tag false → Completes (.storeAnswer okay) s fun t =>
      c.Told t.chip okay (rSLC l) op.addr ∧ t.chip.slc = c.slc ∧ mine t.chip l = mine c l) ∧
  ∀ (s : State) (l : Fin 3) (d : Fin 4) (f : LineFrame), s.prompt = false →
    let c := s.chip
    let p := posOf l d
    let a := c.drop p
    (∀ left colour kind rev, (c.line l).use = .awaiting d f left → f.kind = .identReq →
      Completes (.terminalIdent l colour kind rev) s fun t =>
        mine t.chip l = mine c l ++ word c p 4008 (terminal { a with colour := colour, keyboard := kind, revision := rev } 2)) ∧
    ∀ i, c.Missed i l d f → Completes i s fun t =>
      (f.kind = .identReq → mine t.chip l = mine c l ++ word c p 4008 (terminal a 0)) ∧
      (f.kind ≠ .identReq → a.terminal = .attached → 3 ≤ a.misses + 1 → mine t.chip l = mine c l ++
        (if a.sensor = .unknown then [] else word c p 4012 2) ++ word c p 4008 (terminal a 3))

/-! ### Printers -/

/-- The BOOK and TOF inputs. A book put into an EMPTY printer that is present starts ALIGNING, its page unknown unless one is
waited for (R140); a book gone has the effect of its printer state (R142, R146); the TOF edge of ALIGNING makes the position 0
and the printer READY, with the page waited for (R140, R159). A book already in or already gone, and an edge in another state,
change nothing: the model's choice (log 28); so is that the edge and the absence are taken before a travel limit that is reached
and not yet taken (log 70). -/
def Obligations.BooksAlign : Prop :=
  (∀ (s : State) (n : Fin 4), s.prompt = false →
    let a := s.chip.printer n
    (s.chip.bookIn n = true → exec (.bookInserted n) s = .next s) ∧
    (s.chip.bookIn n = false → Completes (.bookInserted n) s fun t => t.chip.bookIn n = true ∧
      (¬ (a.state = .empty ∧ s.chip.prn n .present = 1) → s.Only [.pins] t) ∧
      (a.state = .empty → s.chip.prn n .present = 1 → t.chip.printer n =
          { a with state := .aligning, bookPage := if a.pageTurn = none then none else a.bookPage } ∧
        (t.chip.feed n).mode = .forward ∧ (t.chip.feed n).duty = 0 ∧ (t.chip.feed n).travel = 0 ∧
        SameBut n s.chip.pru.printers t.chip.pru.printers ∧ SameBut n s.chip.fd t.chip.fd ∧
        (s.chip.su.reports.length < 16 →
          t.chip.su = { s.chip.su with reports := s.chip.su.reports ++ [⟨.bookInserted, n.val, 0, s.chip.su.ms⟩] })))) ∧
  (∀ (s : State) (n : Fin 4), s.prompt = false →
    let a := s.chip.printer n
    (s.chip.bookIn n = false → exec (.bookRemoved n) s = .next s) ∧
    (s.chip.bookIn n = true → Completes (.bookRemoved n) s fun t => t.chip.bookIn n = false ∧
      (a.state = .empty ∨ a.state = .halted → s.Only [.pins] t) ∧
      (a.state = .aligning ∨ a.state = .ejecting → t.chip.printer n = { a with state := .empty } ∧ (t.chip.feed n).mode = .off) ∧
      (a.state = .ready → t.chip.printer n = { a with state := .empty, bookPage := none } ∧ (t.chip.feed n).mode = .off) ∧
      (a.state = .aligning ∨ a.state = .ejecting ∨ a.state = .ready → s.chip.su.reports.length < 16 →
        t.chip.su = { s.chip.su with reports := s.chip.su.reports ++ [⟨.bookRemoved, n.val, 0, s.chip.su.ms⟩] }) ∧
      (a.state = .feeding ∨ a.state = .striking → s.chip.ShutDown t.chip n { Latch.empty with bookPulled := true }))) ∧
  ∀ (s : State) (n : Fin 4), s.prompt = false →
    let a := s.chip.printer n
    (a.state ≠ .aligning → exec (.tofEdge n) s = .next s) ∧
    (a.state = .aligning → Completes (.tofEdge n) s fun t =>
      (t.chip.feed n).position = 0 ∧ (t.chip.feed n).prescale = 0 ∧ (t.chip.feed n).mode = .off ∧
      t.chip.printer n = { a with
        state := .ready, bookPage := if a.pageTurn = none then a.bookPage else a.pageTurn, pageTurn := none } ∧
      SameBut n s.chip.pru.printers t.chip.pru.printers ∧ SameBut n s.chip.fd t.chip.fd ∧ s.Only [.pru, .fd] t)

/-- REQUEST_TAKE: a READY printer turns the page for a request of another page, keeping it queued and its page known, and
otherwise serves the request at the head, feeding toward its target or STRIKING on it (R141, R146). TARGET_MATCH: BRAKE and
STRIKING (R159). ENCODER_EDGE: an edge is counted, and each ENC_PRESCALE_n-th is a position count in the count direction (R158),
which ALIGNING and EJECTING count toward their travel limits too (R159), and no other state: the model's choice (log 80). Where
the request or the match does not arise nothing changes: the model's choice (log 28), and so is that a READY printer with an
earlier request still in service takes none (log 67). -/
def Obligations.FeedsReachTheLine : Prop :=
  (∀ (s : State) (n : Fin 4) (e : PrintEntry) (rest : List PrintEntry), s.prompt = false →
    let a := s.chip.printer n
    let target : Nat := s.chip.prn n .topMargin + (e.line - 1) * s.chip.prn n .pitch
    let pos := (s.chip.feed n).position
    a.queue = e :: rest → (a.state ≠ .ready ∨ a.service ≠ none → exec (.requestTake n) s = .next s) ∧
    (a.state = .ready → a.service = none → Completes (.requestTake n) s fun t =>
      let b := t.chip.printer n
      let turn := a.bookPage ≠ none ∧ a.bookPage ≠ some e.page
      (turn → b = { a with state := .ejecting, pageTurn := some e.page } ∧
        (t.chip.feed n).mode = .reverse ∧ (t.chip.feed n).travel = 0 ∧ t.chip.own[rPRU.val] = s.chip.own[rPRU.val] ∧
        (s.chip.su.reports.length < 16 →
          t.chip.su = { s.chip.su with reports := s.chip.su.reports ++ [⟨.turnPage, n.val, e.page, s.chip.su.ms⟩] })) ∧
      (¬ turn → b.queue = rest ∧ b.bookPage = some e.page ∧
        b.service = some { entry := e, target := target, begun := false, doneTaken := false, stamp := none } ∧
        b.slots = vput a.slots e.slot .printing ∧
        t.chip.own = vupd s.chip.own rPRU (· ++ [⟨.write (s.chip.printAddr n e.slot 0) [SlotStatus.printing.word], .plain, false⟩]) ∧
        (pos < (target : Int) → b.state = .feeding ∧ (t.chip.feed n).mode = .forward) ∧
        ((target : Int) < pos → b.state = .feeding ∧ (t.chip.feed n).mode = .reverse) ∧
        (pos = (target : Int) → b.state = .striking ∧ (t.chip.feed n).mode = .brake)) ∧
      SameBut n s.chip.pru.printers t.chip.pru.printers)) ∧
  (∀ (s : State) (n : Fin 4) (v : Service), s.prompt = false → (s.chip.printer n).service = some v →
    ((s.chip.printer n).state ≠ .feeding ∨ (s.chip.feed n).position ≠ v.target → exec (.targetMatch n) s = .next s) ∧
    ((s.chip.printer n).state = .feeding → (s.chip.feed n).position = v.target → Completes (.targetMatch n) s fun t =>
      t.chip.printer n = { s.chip.printer n with state := .striking } ∧ (t.chip.feed n).mode = .brake ∧
      (t.chip.feed n).duty = 0 ∧ (t.chip.feed n).position = v.target ∧ s.Only [.pru, .fd] t)) ∧
  ∀ (s : State) (n : Fin 4), s.prompt = false → s.chip.atTarget n = false → s.chip.travelReached n = false →
    Completes (.encoderEdge n) s fun t =>
      let a := s.chip.feed n
      let b := t.chip.feed n
      let travels := (s.chip.printer n).state = .aligning ∨ (s.chip.printer n).state = .ejecting
      (a.prescale + 1 < s.chip.prn n .encPrescale → b = { a with prescale := a.prescale + 1 }) ∧
      (s.chip.prn n .encPrescale ≤ a.prescale + 1 → b.prescale = 0 ∧
        (a.forwardCount = true → -32768 ≤ a.position → a.position < 32767 → b.position = a.position + 1) ∧
        (a.forwardCount = true → a.position = 32767 → b.position = -32768) ∧
        (a.forwardCount = false → -32768 < a.position → a.position ≤ 32767 → b.position = a.position - 1) ∧
        (a.forwardCount = false → a.position = -32768 → b.position = 32767) ∧
        (travels → b.travel = a.travel + 1) ∧ (¬ travels → b.travel = a.travel) ∧
        b.mode = a.mode ∧ b.duty = a.duty ∧ b.latch = a.latch ∧
        b.stallMs = (if a.mode = .forward ∨ a.mode = .reverse then 0 else a.stallMs)) ∧
      SameBut n s.chip.fd t.chip.fd ∧ s.Only [.fd] t

/-- The strike. STRIKE_COMPOSE reads the host's text as two bursts and then the record, of a VOID its original too for the sign
(R143), and the message is handed to the head (R144). A read answered ERROR, and a record read that finds another record, a FREE
stamp (logs 38 and 39, inferred) or a number outside the day (log 43, inferred), aborts the request: ABORTED(STORE_ERROR),
PRINT_ABORTED, READY, and STORE_ERROR reported where PRU's own read failed (R143). STRIKE_MESSAGE_SENT starts the wait for the
head (R144); HEAD_ANSWER takes DONE and asks for the stamp PRINTED (R145), takes FAULT as a HEAD shutdown, and ignores any other
character, and every character when no answer is awaited (R144) or the wait has just run out (log 66, the model's choice). When
the stamp write is answered the slot is DONE, PRINT_DONE is reported, the request leaves the service and the printer is READY,
or EJECTING where the request asks for it (R145). Where no strike awaits the step nothing changes: the model's choice (log 28);
so a strike that is due waits while the head link still finishes a character of a message given up (`head ≠ .idle`), which is
the model's inference (log 65). -/
def Obligations.StrikesRun : Prop :=
  (∀ (s : State) (n : Fin 4) (v : Service), s.prompt = false → (s.chip.printer n).service = some v →
    let may := (s.chip.printer n).state = .striking ∧ v.begun = false ∧ (s.chip.printer n).composing = false ∧
      (s.chip.printer n).head = .idle
    (¬ may → exec (.strikeCompose n) s = .next s) ∧
    (may → exec (.strikeCompose n) s = .next
      { s with chip := (s.chip.onPrinter n fun x => { x with composing := true }).push rPRU
                  (.read (s.chip.printAddr n v.entry.slot 3) 4 8) (.textRead n 0 (s.chip.printer n).epoch []) })) ∧
  (∀ (s : State) (n : Fin 4) (v : Service) (addr ref : Nat) (front vws : List Word) (op : StoreOp), s.prompt = false →
    (s.chip.printer n).service = some v →
    let c := s.chip
    let data := readWords s.mem addr 4 8
    let epoch := (c.printer n).epoch
    let seq := v.entry.seq
    let ws := front ++ readWords s.mem addr 4 4
    let r := recordOfWords ws
    let asks (u : Fin 9) (a : Nat) (len : Nat) (tag : Tag) (t : State) : Prop :=
      t.chip.own = vupd c.own u (· ++ [⟨.read a 4 len, tag, false⟩])
    let reads (a len : Nat) (tag : Tag) (t : State) : Prop := asks rJU a len tag t ∧ c.Only [.own] t.chip
    let sends (x : JRecord) (t : State) : Prop :=
      let m := strikeMessage (c.composeLine n x)
      t.chip.printer n = { c.printer n with
        composing := false, head := .sending m (m.length * 6250), service := some { v with begun := true } } ∧
      SameBut n c.pru.printers t.chip.pru.printers ∧ c.Only [.pru] t.chip
    let aborted (rs : List (ReportKind × Nat × Nat)) (t : State) : Prop :=
      (t.chip.printer n).service = none ∧ (t.chip.printer n).state = .ready ∧ (t.chip.printer n).queue = (c.printer n).queue ∧
      (t.chip.feed n).mode = .off ∧ t.chip.slotStatus n v.entry.slot = .aborted Reason.storeError.code ∧
      t.chip.own = vupd c.own rPRU (· ++ [⟨.write (c.printAddr n v.entry.slot 0)
        [(SlotStatus.aborted Reason.storeError.code).word], .plain, false⟩]) ∧
      c.Reports t.chip (rs ++ [(.printAborted, n.val, Reason.storeError.code)])
    (s.arb.port = .own rPRU (.read addr 4 8) (.textRead n 0 epoch []) false → Completes (.storeAnswer true) s fun t =>
      t.chip = c.push rPRU (.read (c.printAddr n v.entry.slot 11) 4 8) (.textRead n 1 epoch data)) ∧
    (s.arb.port = .own rPRU (.read addr 4 8) (.textRead n 1 epoch front) false → Completes (.storeAnswer true) s fun t =>
      if 0 < seq ∧ seqDistance c.cu.day.first seq < seqDistance c.cu.day.first c.ju.nextSeq then
        t.chip.printer n = { c.printer n with text := front ++ data } ∧ asks rJU (c.ringAddr seq 0) 8 (.recordA (.strike n epoch) seq) t
      else aborted [] t) ∧
    (∀ burst, s.arb.port = .own rPRU op (.textRead n burst epoch front) false → Completes (.storeAnswer false) s
      (aborted [(.storeError, rPRU.val, pageOf op.addr)])) ∧
    (∀ tag, s.arb.port = .own rJU op tag false → tag ∈ [.recordA (.strike n epoch) seq, .recordB (.strike n epoch) seq front,
      .originalA (.strike n epoch) vws ref, .originalB (.strike n epoch) vws ref front] → Completes (.storeAnswer false) s (aborted [])) ∧
    (s.arb.port = .own rJU (.read addr 4 8) (.recordA (.strike n epoch) seq) false → Completes (.storeAnswer true) s
      (reads (addr + 32) 4 (.recordB (.strike n epoch) seq data))) ∧
    (s.arb.port = .own rJU (.read addr 4 4) (.recordB (.strike n epoch) seq front) false → Completes (.storeAnswer true) s
      (if r.seq ≠ seq ∨ stampStatus (wordAt ws 11) = .free then aborted []
      else if r.code = 8 then reads (c.ringAddr r.reference 0) 8 (.originalA (.strike n epoch) ws r.reference) else sends r)) ∧
    (s.arb.port = .own rJU (.read addr 4 8) (.originalA (.strike n epoch) vws ref) false → Completes (.storeAnswer true) s
      (reads (addr + 32) 4 (.originalB (.strike n epoch) vws ref data))) ∧
    (s.arb.port = .own rJU (.read addr 4 4) (.originalB (.strike n epoch) vws ref front) false → Completes (.storeAnswer true) s
      (if r.seq ≠ ref ∨ stampStatus (wordAt ws 11) = .free then aborted []
      else sends { recordOfWords vws with original := recordKindOfCode r.code }))) ∧
  (∀ (s : State) (n : Fin 4) (m : List Byte) (left : Nat), s.prompt = false → (s.chip.printer n).head = .sending m left →
    (left ≠ 0 → exec (.strikeMessageSent n) s = .next s) ∧
    (left = 0 → exec (.strikeMessageSent n) s = .next
      { s with chip := s.chip.onPrinter n fun x => { x with head := .awaiting (s.chip.prn n .headTimeout) } })) ∧
  (∀ (s : State) (n : Fin 4) (v : Service) (left : Nat) (char : Byte), s.prompt = false →
    (s.chip.printer n).service = some v → (s.chip.printer n).head = .awaiting (left + 1) →
    (char ≠ 0x06 → char ≠ 0x15 → exec (.headAnswer n char) s = .next s) ∧
    (char = 0x06 → Completes (.headAnswer n char) s fun t =>
      t.chip.printer n =
        { s.chip.printer n with head := .idle, service := some { v with doneTaken := true, stamp := some .printed } } ∧
      t.chip.ju = { s.chip.ju with stamps := s.chip.ju.stamps ++ [⟨n, v.entry.seq, .printed⟩] } ∧
      SameBut n s.chip.pru.printers t.chip.pru.printers ∧ s.Only [.ju, .pru] t) ∧
    (char = 0x15 → (s.chip.printer n).state ≠ .halted → Completes (.headAnswer n char) s fun t =>
      s.chip.ShutDown t.chip n { Latch.empty with head := true })) ∧
  (∀ (s : State) (n : Fin 4) (char : Byte), s.prompt = false → (∀ left, (s.chip.printer n).head ≠ .awaiting (left + 1)) →
    exec (.headAnswer n char) s = .next s) ∧
  ∀ (s : State) (n : Fin 4) (v : Service) (r : StampReq) (rest : List StampReq) (op : StoreOp), s.prompt = false →
    s.arb.port = .own rJU op .stampWrite false → s.chip.ju.stamps = r :: rest → r.printer = n →
    (s.chip.printer n).service = some v → v.stamp = some .printed → (s.chip.printer n).clearing = false →
    (s.chip.printer n).pageTurn = none → (s.chip.printer n).state = .striking → s.chip.su.reports.length < 16 →
    Completes (.storeAnswer true) s fun t =>
      t.chip.ju = { s.chip.ju with stamps := rest, stamping := false } ∧
      t.chip.printer n = { s.chip.printer n with
        slots := vput (s.chip.printer n).slots v.entry.slot .done, service := none
        state := if v.entry.ejectAfter = true then .ejecting else .ready
        bookPage := if v.entry.ejectAfter = true then none else (s.chip.printer n).bookPage } ∧
      (t.chip.feed n).mode = (if v.entry.ejectAfter = true then .reverse else .off) ∧
      t.chip.own = vupd s.chip.own rPRU (· ++ [⟨.write (s.chip.printAddr n v.entry.slot 0) [SlotStatus.done.word], .plain, false⟩]) ∧
      t.chip.su = { s.chip.su with reports := s.chip.su.reports ++ [⟨.printDone, n.val, v.entry.seq, s.chip.su.ms⟩] } ∧
      SameBut n s.chip.pru.printers t.chip.pru.printers ∧ SameBut n s.chip.fd t.chip.fd ∧
      s.chip.Only [.own, .su, .ju, .pru, .fd] t.chip

/-- The shutdown causes (R161, R162, R147). `ShutDown` says what a shutdown leaves; a cause that arrives together with it, an
input active or a JAM or HEAD that has arisen and not been taken, is latched beside it with a report of its own (R161; the
moment is the model's choice, log 83). Outside HALTED: an active COVER or OVC where it is judged, a travel limit or the stall
timer, and no answer from the head shut the printer down. In HALTED an active COVER or OVC that is not latched is added to the
latch and the whole set reported, and a latched one makes no report. Where a cause does not arise, or its timer has not run out,
nothing but the pin changes: the model's choice (logs 1 and 28). An input becoming inactive restarts a printer that R164 lets
restart, and no other. -/
def Obligations.CausesShutDown : Prop :=
  (∀ (s : State) (n : Fin 4), s.prompt = false → (s.chip.printer n).state ≠ .halted →
    let judged := (s.chip.printer n).state ≠ .empty ∨ s.chip.prn n .present = 1
    Completes (.coverActive n) s (fun t => t.chip.coverIn n = true ∧ (¬ judged → s.Only [.pins] t) ∧
      (judged → s.chip.ShutDown t.chip n { Latch.empty with cover := true })) ∧
    Completes (.ovcActive n) s (fun t => t.chip.ovcIn n = true ∧ (¬ judged → s.Only [.pins] t) ∧
      (judged → s.chip.ShutDown t.chip n { Latch.empty with ovc := true })) ∧
    (s.chip.travelReached n = false → exec (.travelLimit n) s = .next s) ∧
    (((s.chip.printer n).state = .aligning ∧ s.chip.prn n .alignTravel ≤ (s.chip.feed n).travel) ∨
      ((s.chip.printer n).state = .ejecting ∧ s.chip.prn n .ejectTravel ≤ (s.chip.feed n).travel) →
      Completes (.travelLimit n) s fun t => s.chip.ShutDown t.chip n { Latch.empty with jam := true }) ∧
    (s.chip.stalled n = false → exec (.stallTimeout n) s = .next s) ∧
    ((s.chip.feed n).mode = .forward ∨ (s.chip.feed n).mode = .reverse → s.chip.prn n .stallTime ≤ (s.chip.feed n).stallMs →
      Completes (.stallTimeout n) s fun t => s.chip.ShutDown t.chip n { Latch.empty with jam := true }) ∧
    ((s.chip.printer n).head ≠ .awaiting 0 → exec (.headTimeout n) s = .next s) ∧
    ((s.chip.printer n).head = .awaiting 0 →
      Completes (.headTimeout n) s fun t => s.chip.ShutDown t.chip n { Latch.empty with head := true })) ∧
  (∀ (s : State) (n : Fin 4) (ovc : Bool), s.prompt = false → (s.chip.printer n).state = .halted →
    let l := (s.chip.feed n).latch
    let latched := if ovc = true then l.ovc else l.cover
    let l' := if ovc = true then { l with ovc := true } else { l with cover := true }
    Completes (if ovc = true then .ovcActive n else .coverActive n) s fun t =>
      (if ovc = true then t.chip.ovcIn n else t.chip.coverIn n) = true ∧ (latched = true → s.Only [.pins] t) ∧
      (latched = false → t.chip.feed n = { s.chip.feed n with latch := l' } ∧ SameBut n s.chip.fd t.chip.fd ∧
        s.Only [.pins, .su, .fd, .own] t ∧
        (s.chip.su.reports.length < 16 → t.chip.su =
          { s.chip.su with reports := s.chip.su.reports ++ [⟨.printerHalted, n.val, l'.code, s.chip.su.ms⟩] }))) ∧
  ∀ (s : State) (n : Fin 4) (ovc : Bool), s.prompt = false →
    let c : Chip := { s.chip with pins := if ovc = true then { s.chip.pins with ovc := vput s.chip.pins.ovc n false }
      else { s.chip.pins with cover := vput s.chip.pins.cover n false } }
    let restarts := (c.printer n).state = .halted ∧ c.prn n .autoRestart = 1 ∧ c.MayRestart n
    (¬ restarts → exec (.causeInputInactive n ovc) s = .next { s with chip := c }) ∧
    (restarts → c.coverIn n = false → c.ovcIn n = false →
      Completes (.causeInputInactive n ovc) s fun t => c.Restarted t.chip n)

/-- The bridge. A mode asked for acts at once by Table 9-3, an output that is to become active waiting out the dead-band of its
pair (R155). PERIOD_BOUNDARY: the step counter returns to 0, and while the motor is driven W moves to the target duty by at most
RAMP_STEP_n (R152, R153), which the printer's state and, in FEEDING, the distance to the target at that moment give (R154, Table
9-2), and the modulated pair begins the period: with W below P the high side is due at step D when D is below W, the low side
otherwise at W + D; with W at or above P the high side is active, from step D where the low side was (R156), the rest of the
dead-band waited out where the low side has been inactive for less: the model's choice (log 81). HIGH_SIDE_TURN_OFF: the
modulated high side is inactive from step W and the low side due D later, if the period lasts so long (R156). DEAD_BAND_EXPIRY:
the output whose dead-band has run out is active (R155). None does anything before its step: the model's choice (logs 1 and
28). -/
def Obligations.BridgesModulate : Prop :=
  let still (o : Output) : Prop := o.active = false ∧ o.wait = none
  -- active in `k` steps, or now
  let due (k : Nat) (o : Output) : Prop := o.active = decide (k = 0) ∧ o.wait = if k = 0 then none else some k
  -- active as the dead-band allows, the other output of its pair having become inactive now or earlier
  let joins (d : Nat) (o o' other : Output) : Prop :=
    if o.active = true then o' = o else due (d - if other.active = true then 0 else other.since) o'
  (∀ (c : Chip) (n : Fin 4) (m : BridgeMode),
    let a := c.feed n
    let b := (c.setMode n m).feed n
    let d := c.prn n .deadBand
    let begins (o : Output) : Prop := if d < 4 * (c.prn n .pwmPeriod + 1) then due d o else still o
    b.mode = m ∧ b.duty = 0 ∧ b.position = a.position ∧ b.latch = a.latch ∧ SameBut n c.fd (c.setMode n m).fd ∧
    still b.aHi ∧ still b.bHi ∧
    (m = .off → still b.aLo ∧ still b.bLo) ∧
    (m = .brake → joins d a.aLo b.aLo a.aHi ∧ joins d a.bLo b.bLo a.bHi) ∧
    (m = .safe → (if c.prn n .safeA = 1 then joins d a.aLo b.aLo a.aHi else still b.aLo) ∧
      if c.prn n .safeB = 1 then joins d a.bLo b.bLo a.bHi else still b.bLo) ∧
    (m = .forward → begins b.aLo ∧ joins d a.bLo b.bLo a.bHi ∧ b.step = 0 ∧ b.stallMs = 0 ∧ b.forwardCount = true) ∧
    (m = .reverse → joins d a.aLo b.aLo a.aHi ∧ begins b.bLo ∧ b.step = 0 ∧ b.stallMs = 0 ∧ b.forwardCount = false)) ∧
  (∀ (s : State) (n : Fin 4), s.prompt = false →
    let a := s.chip.feed n
    let step := s.chip.prn n .rampStep
    -- 0 with no request in service, in which no run is FEEDING
    let distance : Nat := match (s.chip.printer n).service with
      | some v => ((v.target : Int) - a.position).natAbs | none => 0
    -- by the printer's state: none in EMPTY, READY, STRIKING and HALTED
    let goal : Nat := match (s.chip.printer n).state with
      | .aligning => s.chip.prn n .approachDuty
      | .feeding => if s.chip.prn n .approachDist < distance then s.chip.prn n .runDuty else s.chip.prn n .approachDuty
      | .ejecting => s.chip.prn n .runDuty
      | _ => 0
    let drives := a.mode = .forward ∨ a.mode = .reverse
    let p := 4 * (s.chip.prn n .pwmPeriod + 1)
    let d := s.chip.prn n .deadBand
    -- how a pair begins a period of working duty `w`
    let pair (w : Nat) (hi lo hi' lo' : Output) : Prop :=
      if p ≤ w then joins d hi hi' lo ∧ still lo'
      else if d < w then due d hi' ∧ still lo'
      else still hi' ∧ if w + d < p then due (w + d) lo' else still lo'
    (a.step < p → exec (.periodBoundary n) s = .next s) ∧
    (p ≤ a.step → Completes (.periodBoundary n) s fun t =>
      let b := t.chip.feed n
      b.step = 0 ∧ b.mode = a.mode ∧ b.position = a.position ∧
      (¬ drives → b = { a with step := 0 }) ∧
      (drives → a.duty ≤ goal → b.duty = min (a.duty + step) goal) ∧
      (drives → goal < a.duty → b.duty = max (a.duty - step) goal) ∧
      (drives → (b.turnedOff = false ↔ d < b.duty ∧ b.duty < p)) ∧
      (a.mode = .forward → b.bHi = a.bHi ∧ b.bLo = a.bLo ∧ pair b.duty a.aHi a.aLo b.aHi b.aLo) ∧
      (a.mode = .reverse → b.aHi = a.aHi ∧ b.aLo = a.aLo ∧ pair b.duty a.bHi a.bLo b.bHi b.bLo) ∧
      SameBut n s.chip.fd t.chip.fd ∧ s.Only [.fd] t)) ∧
  (∀ (s : State) (n : Fin 4), s.prompt = false →
    let a := s.chip.feed n
    let drives := a.mode = .forward ∨ a.mode = .reverse
    let p := 4 * (s.chip.prn n .pwmPeriod + 1)
    let d := s.chip.prn n .deadBand
    let follows (lo lo' : Output) : Prop := if a.duty + d < p then lo.active = false → due d lo' else lo' = lo
    (¬ (drives ∧ a.turnedOff = false ∧ a.duty ≤ a.step) → exec (.highSideTurnOff n) s = .next s) ∧
    (drives → a.turnedOff = false → a.duty ≤ a.step → Completes (.highSideTurnOff n) s fun t =>
      let b := t.chip.feed n
      b.turnedOff = true ∧ b.duty = a.duty ∧ b.mode = a.mode ∧ b.step = a.step ∧
      (a.mode = .forward → still b.aHi ∧ follows a.aLo b.aLo ∧ b.bHi = a.bHi ∧ b.bLo = a.bLo) ∧
      (a.mode = .reverse → still b.bHi ∧ follows a.bLo b.bLo ∧ b.aHi = a.aHi ∧ b.aLo = a.aLo) ∧
      SameBut n s.chip.fd t.chip.fd ∧ s.Only [.fd] t)) ∧
  ∀ (s : State) (n : Fin 4) (o : Fin 4), s.prompt = false →
    (((s.chip.feed n).output o).wait ≠ some 0 → exec (.deadBandExpiry n o) s = .next s) ∧
    (((s.chip.feed n).output o).wait = some 0 → Completes (.deadBandExpiry n o) s fun t => t.chip.outputActive n o = true ∧
      (∀ x : Fin 4, x ≠ o → (t.chip.feed n).output x = (s.chip.feed n).output x) ∧
      SameBut n s.chip.fd t.chip.fd ∧ s.Only [.fd] t)

/-! ### The head-office link -/

/-- The line of the link: carrier and clock present together take a DOWN link to CALLING with a HELLO due (R177); the HELLO
timer makes another due (R177), and before its time does nothing (the model's choice, logs 1 and 28); loss of either, or
silence, takes it DOWN, stops its timers, keeps the error count but for silence, reports a loss of UP and suspends a send (R177,
R178, R190). That a frame whose records are being read is dropped then (`g.build = none`) is the model's reading (logs 41 and
7). -/
def Obligations.LinkLineEvents : Prop :=
  (∀ (s : State) (i : Instr), s.prompt = false → (i = .carrierChange true ∨ i = .receiveClockReturn) → Completes i s fun t =>
    let pins := if i = .receiveClockReturn then { s.chip.pins with receiveClock := true } else { s.chip.pins with carrier := true }
    t.chip.pins = pins ∧ s.Only [.pins, .hlc] t ∧
    t.chip.hlc = if s.chip.hlc.link = .down ∧ pins.carrier = true ∧ pins.receiveClock = true ∧ s.chip.su.unitState ≠ .loading then
        { s.chip.hlc with link := .calling, helloDue := true, helloTimer := some (s.chip.linkSet .helloTime * 1000) }
      else s.chip.hlc) ∧
  (∀ s : State, s.prompt = false →
    (¬ (s.chip.hlc.link = .calling ∧ s.chip.hlc.helloTimer = some 0) → exec .helloTimerExpiry s = .next s) ∧
    (s.chip.hlc.link = .calling → s.chip.hlc.helloTimer = some 0 → exec .helloTimerExpiry s = .next
      { s with chip := s.chip.onHlc fun h => { h with helloDue := true, helloTimer := some (s.chip.linkSet .helloTime * 1000) } })) ∧
  ∀ (s : State) (i : Instr) (why : LinkCause), s.prompt = false → s.chip.LineLost i why → Completes i s fun t =>
    let h := s.chip.hlc
    let g := t.chip.hlc
    t.chip.pins.carrier = (s.chip.pins.carrier && i != .carrierChange false) ∧
    t.chip.pins.receiveClock = (s.chip.pins.receiveClock && i != .receiveClockLoss) ∧
    (h.link = .down → g = h ∧ s.Only [.pins] t) ∧
    (h.link ≠ .down →
      g.errors = (if why = .silence then 0 else h.errors) ∧ g.tx = none ∧ g.keepaliveTimer = none ∧ g.silenceTimer = none ∧
      g.helloAckOwed = false ∧ g.keepaliveDue = false ∧ g.build = none ∧
      g.link = (if why = .silence ∧ s.chip.lineReady = true ∧ s.chip.su.unitState ≠ .loading then .calling else .down) ∧
      (why ≠ .silence → g.helloTimer = none) ∧
      g.send = h.send.map (fun x => if x.state = .active ∨ x.state = .held then
        { x with state := .suspended, resend := none, ackTimer := none, holdTimer := none,
                 resumeTimer := some (s.chip.linkSet .resumeTime * 60000) } else x) ∧
      (h.link = .up → s.chip.su.reports.length < 16 →
        t.chip.su = { s.chip.su with reports := s.chip.su.reports ++ [⟨.linkDown, 0, why.code, s.chip.su.ms⟩] }) ∧
      (h.link = .calling → t.chip.su = s.chip.su) ∧ s.Only [.pins, .su, .hlc, .own] t)

/-- Frames of head office outside a send. HELLO owes a HELLO_ACK, HELLO_ACK takes CALLING to UP, KEEPALIVE is heard: each sets
the error count to 0 and, in UP, restarts the silence timer (R177, R180, R181). Bytes between two flags that are no valid frame
add to the count, up to 15, and below the threshold do nothing else (R180); two flags with nothing between are no frame (R198).
A line error of any of R180's kinds that leaves the count at the threshold takes the link DOWN, cause ERRORS: timers and frames
stop, a loss of UP is reported, an ACTIVE or HELD send is suspended, and CALLING follows at once on a line that is ready (R177,
R178, R190); that a frame being built is dropped then is the model's reading (logs 41 and 7). DOWN hears nothing (R180). The
keepalive timer makes a KEEPALIVE due (R181), and before its time does nothing (the model's choice, logs 1 and 28). -/
def Obligations.LinkFramesHeard : Prop :=
  (∀ (s : State) (i : Instr), s.prompt = false → s.chip.hlc.link = .down →
    (i = .hello ∨ i = .helloAck ∨ i = .keepalive ∨ ∃ b, i = .invalidFrame b) → exec i s = .next s) ∧
  (∀ s : State, s.prompt = false → exec (.invalidFrame []) s = .next s) ∧
  (∀ s : State, s.prompt = false → s.chip.hlc.link ≠ .down →
    let h := s.chip.hlc
    let silence := if h.link = .up then some (3 * (s.chip.linkSet .keepalive * 1000)) else h.silenceTimer
    let heard := { h with errors := 0, silenceTimer := silence }
    (exec .keepalive s = .next { s with chip := { s.chip with hlc := heard } }) ∧
    (exec .hello s = .next { s with chip := { s.chip with hlc := { heard with helloAckOwed := true } } }) ∧
    (h.link = .up → exec .helloAck s = .next { s with chip := { s.chip with hlc := heard } }) ∧
    (h.link = .calling → Completes .helloAck s fun t =>
      t.chip.hlc = { heard with
        link := .up, helloTimer := none, helloDue := false, keepaliveDue := false
        keepaliveTimer := some (s.chip.linkSet .keepalive * 1000), silenceTimer := some (3 * (s.chip.linkSet .keepalive * 1000))
        send := h.send.map fun x => if x.state = .suspended then
          { x with state := .active, resumeTimer := none, resend := x.out.head?.map (·.index) } else x } ∧
      (s.chip.su.reports.length < 16 →
        t.chip.su = { s.chip.su with reports := s.chip.su.reports ++ [⟨.linkUp, 0, 0, s.chip.su.ms⟩] }) ∧
      s.Only [.su, .hlc, .own] t)) ∧
  (∀ (s : State) (bytes : List Byte), s.prompt = false → s.chip.hlc.link ≠ .down → bytes ≠ [] → (∀ b ∈ bytes, b ≠ 0x7E) →
    readHoFrame bytes = .invalid →
    let n := min 15 (s.chip.hlc.errors + 1)
    (n < s.chip.linkSet .errThreshold → exec (.invalidFrame bytes) s = .next
      { s with chip := s.chip.onHlc fun h => { h with errors := n } })) ∧
  (∀ (s : State) (i : Instr), s.prompt = false → s.chip.hlc.link ≠ .down → s.chip.LineError i →
    s.chip.linkSet .errThreshold ≤ min 15 (s.chip.hlc.errors + 1) → Completes i s fun t =>
      let h := s.chip.hlc
      let g := t.chip.hlc
      let calls := s.chip.lineReady = true ∧ s.chip.su.unitState ≠ .loading
      g.errors = 0 ∧ g.link = (if calls then .calling else .down) ∧ g.tx = none ∧ g.build = none ∧ g.keepaliveTimer = none ∧
      g.silenceTimer = none ∧ g.helloAckOwed = false ∧ g.keepaliveDue = false ∧ (g.helloDue = true ↔ calls) ∧
      g.helloTimer = (if calls then some (s.chip.linkSet .helloTime * 1000) else none) ∧
      g.send = h.send.map (fun x => if x.state = .active ∨ x.state = .held then
        { x with state := .suspended, resend := none, ackTimer := none, holdTimer := none,
                 resumeTimer := some (s.chip.linkSet .resumeTime * 60000) } else x) ∧
      (h.link = .up → s.chip.su.reports.length < 16 → t.chip.su =
        { s.chip.su with reports := s.chip.su.reports ++ [⟨.linkDown, 0, LinkCause.errors.code, s.chip.su.ms⟩] }) ∧
      (h.link = .calling → t.chip.su = s.chip.su) ∧ s.Only [.su, .hlc, .own] t) ∧
  ∀ s : State, s.prompt = false →
    (s.chip.hlc.keepaliveTimer ≠ some 0 → exec .keepaliveTimerExpiry s = .next s) ∧
    (s.chip.hlc.keepaliveTimer = some 0 → exec .keepaliveTimerExpiry s = .next
      { s with chip := s.chip.onHlc fun h => { h with keepaliveTimer := none, keepaliveDue := true } })

/-- TRANSMITTER_FREE. The line carries the frame being sent, or the flag between frames (R179, R198), and in LOADING nothing
(R194). At a frame's last byte the keepalive timer restarts in UP (R181), a HELLO_ACK sent in CALLING takes the link to UP
(R177), and a data frame handed over to an empty list starts the ack timer (R186); that it starts only if the send is then still
ACTIVE with a frame outstanding is the model's reading (log 40), and that a resend handed over with the timer stopped starts it,
at its last byte, the model's choice (log 72). Then, as with nothing being sent, the first that applies is chosen (R182): a
HELLO_ACK that is owed, in CALLING a HELLO that is due, in UP the frame at the resend point with its sends count up (R188), or
the failure RETRIES of a send whose retries are used up (R189), or a KEEPALIVE that is due when no new data frame may go. In
DOWN and with nothing due nothing changes (the model's choice, log 28), and nothing is chosen while a RECORDS frame is being
built (`h.build ≠ none`): the model's reading (log 41). -/
def Obligations.TransmitterChooses : Prop :=
  (∀ c : Chip, c.lineCarries = if c.su.unitState = .loading then [] else if c.hlc.tx = none then [0x7E] else c.hlc.txBytes) ∧
  (∀ (s : State) (x : HoTx), s.prompt = false → s.chip.hlc.tx = some x →
    let h := s.chip.hlc
    let alive := s.chip.linkSet .keepalive * 1000
    let sent := { h with
      tx := none, txBytes := [], keepaliveDue := if h.link = .up then false else h.keepaliveDue
      keepaliveTimer := if h.link = .up then some alive else h.keepaliveTimer }
    let goesOn (c : Chip) : Prop := exec .transmitterFree s = exec .transmitterFree { s with chip := c }
    (x = .hello ∨ x = .keepalive ∨ (x = .helloAck ∧ h.link ≠ .calling) → goesOn { s.chip with hlc := sent }) ∧
    (x = .helloAck → h.link = .calling → s.chip.su.reports.length < 16 → goesOn { s.chip with
      su := { s.chip.su with reports := s.chip.su.reports ++ [⟨.linkUp, 0, 0, s.chip.su.ms⟩] }
      hlc := { sent with
        link := .up, helloTimer := none, helloDue := false, keepaliveDue := false, keepaliveTimer := some alive
        silenceTimer := some (3 * alive)
        send := h.send.map fun y => if y.state = .suspended then
          { y with state := .active, resumeTimer := none, resend := y.out.head?.map (·.index) } else y } }) ∧
    ∀ i start epoch, x = .data i start epoch →
      (start = false ∨ epoch ≠ h.epoch → goesOn { s.chip with hlc := sent }) ∧
      (start = true → epoch = h.epoch → goesOn { s.chip with hlc := { sent with
        send := h.send.map fun y => if y.state = .active ∧ y.out ≠ [] then
          { y with ackTimer := some (s.chip.linkSet .ackTime * 1000) } else y } })) ∧
  ∀ s : State, s.prompt = false → s.chip.hlc.tx = none →
    let h := s.chip.hlc
    let puts (h' : HlcState) (x : HoTx) (f : List Byte) : Prop :=
      exec .transmitterFree s = .next { s with chip := { s.chip with hlc := { h' with tx := some x, txBytes := flagged f } } }
    let alive : Prop :=
      (h.keepaliveDue = true → puts { h with keepaliveDue := false } .keepalive (hoFrame 3 0 none [])) ∧
      (h.keepaliveDue = false → exec .transmitterFree s = .next s)
    (h.build ≠ none ∨ h.link = .down → exec .transmitterFree s = .next s) ∧
    (h.build = none → h.link ≠ .down → h.helloAckOwed = true →
      puts { h with helloAckOwed := false } .helloAck (hoFrame 2 0 none [])) ∧
    (h.build = none → h.link = .calling → h.helloAckOwed = false →
      (h.helloDue = true → puts { h with helloDue := false } .hello (hoFrame 1 0 none (linkBytes 4 (s.chip.setting .branchNo)))) ∧
      (h.helloDue = false → exec .transmitterFree s = .next s)) ∧
    (h.build = none → h.link = .up → h.helloAckOwed = false →
      (h.send = none → alive) ∧
      ∀ x, h.send = some x →
        (x.resend = none → ¬ (x.state = .active ∧ x.out.length < s.chip.linkSet .window ∧ x.next < x.total) → alive) ∧
        ∀ i o, x.resend = some i → x.out.find? (·.index == i) = some o →
          (o.sends < 1 + s.chip.linkSet .frameRetries → Completes .transmitterFree s fun t =>
            t.chip.hlc.tx = some (.data i x.ackTimer.isNone h.epoch) ∧ t.chip.hlc.txBytes = flagged o.copy ∧ s.Only [.hlc] t ∧
            t.chip.hlc.send = some { x with
              out := x.out.map (fun z => if z.index = i then { z with sends := z.sends + 1 } else z)
              resend := (x.out.find? (fun z => i < z.index)).map (·.index) }) ∧
          (1 + s.chip.linkSet .frameRetries ≤ o.sends → s.chip.cu.day.state = .sending → s.chip.su.reports.length < 16 →
            Completes .transmitterFree s fun t => t.chip.hlc.send = none ∧ t.chip.hlc.tx = none ∧
              t.chip.cu.day = { s.chip.cu.day with state := .closed, failure := .retries } ∧
              t.chip.su = { s.chip.su with reports := s.chip.su.reports ++ [⟨.sendFailed, 0, FailReason.retries.code, s.chip.su.ms⟩] }))

/-- The frames of a batch (R183, R184, R186, Table 12-20). A head-office frame is its kind, link number, frame index, length,
payload and CRC-16, most significant byte first (R179, R197). With an ACTIVE send and room in the list TRANSMITTER_FREE sends
the HEADER as frame 0, three drawer summaries as each of frames R + 1 to R + 5, and the TRAILER as frame R + 6, each built from
CU's records, entering the list with sends count 1 and the link number of its index. For a RECORDS frame, 1 to R, it reads the
slots of its records one after the other as bursts of 8 and 4 words, and sends the 48 bytes of each; a wrong word 0 or an ERROR
fails the send with STORE. That the choice stands while its reads are made, so that the frame goes when they end though a
HELLO_ACK may have become owed meanwhile, is the model's reading (log 41). -/
def Obligations.BatchFramesBuilt : Prop :=
  let le2 (n : Nat) : List Byte := [BitVec.ofNat 8 n, BitVec.ofNat 8 (n / 256)]
  let le4 (n : Nat) : List Byte := le2 n ++ le2 (n / 65536)
  let le8 (n : Nat) : List Byte := le4 n ++ le4 (n / 4294967296)
  let frames (c : Chip) := (c.cu.day.recordCount + 4) / 5
  (∀ kind link index payload,
    let head := [BitVec.ofNat 8 kind, BitVec.ofNat 8 link] ++ (match index with | some i => le2 i | none => []) ++
      [BitVec.ofNat 8 payload.length] ++ payload
    hoFrame kind link index payload = head ++ [BitVec.ofNat 8 (crc16 head / 256), BitVec.ofNat 8 (crc16 head)]) ∧
  (∀ (s : State) (x : Send), s.prompt = false → s.chip.hlc.link = .up → s.chip.hlc.tx = none → s.chip.hlc.build = none →
    s.chip.hlc.helloAckOwed = false → s.chip.hlc.send = some x → x.state = .active → x.resend = none →
    x.out.length < s.chip.linkSet .window → x.total = frames s.chip + 7 →
    let c := s.chip
    let day := c.cu.day
    let sends (kind : Nat) (payload : List Byte) : Prop :=
      let f := hoFrame kind (x.next % 256) (some x.next) payload
      exec .transmitterFree s = .next { s with chip := c.onHlc fun h => { h with
        send := some { x with next := x.next + 1, out := x.out ++ [⟨x.next, x.next % 256, 1, f⟩] }
        tx := some (.data x.next x.out.isEmpty h.epoch), txBytes := flagged f } }
    (x.next = 0 → sends 0x10 (le4 (c.setting .branchNo) ++ le4 day.date ++ le4 day.first ++ le4 day.recordCount ++ le8 day.hash
      ++ (List.finRange 10).flatMap (fun d => le4 (countAt day.closingCounts d))
      ++ le8 (day.differenceTotal % 18446744073709551616).toNat
      ++ le4 ((if day.damaged = true then 1 else 0) + (if day.openingDiff = true then 2 else 0) +
        (if day.sumsSaturated = true then 4 else 0)))) ∧
    (1 ≤ x.next → x.next ≤ frames c →
      let seqs := (List.range (min 5 (day.recordCount - 5 * (x.next - 1)))).map fun k => seqPlus day.first (5 * (x.next - 1) + k)
      let built := c.onHlc fun h => { h with build := some ⟨x.next, seqs, []⟩ }
      exec .transmitterFree s = .next { s with
        chip := built.push rHLC (.read (c.ringAddr (seqPlus day.first (5 * (x.next - 1))) 0) 4 8) (.batchRead 0 c.hlc.epoch []) }) ∧
    (∀ j, j < 5 → x.next = frames c + 1 + j → sends 0x12 ((((List.finRange 13).drop (3 * j)).take 3).flatMap fun i =>
      let d := c.drawer i
      let saturated := (List.range 6).map fun b =>
        match [d.cashIn, d.cashOut, d.noncashIn, d.noncashOut, d.transferIn, d.transferOut][b]? with
        | some y => if y.saturated = true then 2 ^ b else 0
        | none => 0
      [BitVec.ofNat 8 i.val, BitVec.ofNat 8 d.state.code, if d.excess = true then 1 else 0, BitVec.ofNat 8 saturated.sum]
        ++ (List.finRange 10).flatMap (fun n => le2 (countAt d.counts n))
        ++ [d.cashIn, d.cashOut, d.noncashIn, d.noncashOut, d.transferIn, d.transferOut].flatMap (fun y => le8 y.value)
        ++ le4 d.recordCount ++ le4 d.lastSeq)) ∧
    (x.next = frames c + 6 → sends 0x13 (le8 day.hash ++ le4 (frames c + 7)))) ∧
  ∀ (s : State) (x : Send) (b : Build) (q : Nat) (rest : List Nat) (addr : Nat) (front : List Word) (op : StoreOp), s.prompt = false →
    s.chip.hlc.send = some x → s.chip.hlc.build = some b → b.seqs = q :: rest → s.chip.cu.day.state = .sending →
    s.chip.su.reports.length < 15 →
    let c := s.chip
    let ws := front ++ readWords s.mem addr 4 4
    let fails (t : State) : Prop := t.chip.hlc.send = none ∧ t.chip.hlc.build = none ∧
      t.chip.cu.day = { c.cu.day with state := .closed, failure := .store } ∧
      (t.chip.su.reports.getLast?).map (fun r => (r.kind, r.detail)) = some (.sendFailed, FailReason.store.code)
    (s.arb.port = .own rHLC (.read addr 4 8) (.batchRead 0 c.hlc.epoch []) false → Completes (.storeAnswer true) s fun t =>
      t.chip = c.push rHLC (.read (addr + 32) 4 4) (.batchRead 1 c.hlc.epoch (readWords s.mem addr 4 8))) ∧
    (∀ burst w, s.arb.port = .own rHLC op (.batchRead burst c.hlc.epoch w) false → Completes (.storeAnswer false) s fails) ∧
    (s.arb.port = .own rHLC (.read addr 4 4) (.batchRead 1 c.hlc.epoch front) false →
      ((wordAt ws 0).toNat ≠ q → Completes (.storeAnswer true) s fails) ∧
      (∀ q' more, (wordAt ws 0).toNat = q → rest = q' :: more → Completes (.storeAnswer true) s fun t =>
        t.chip = (c.onHlc fun h => { h with build := some { b with seqs := rest, words := b.words ++ ws } }).push rHLC
          (.read (c.ringAddr q' 0) 4 8) (.batchRead 0 c.hlc.epoch [])) ∧
      ((wordAt ws 0).toNat = q → rest = [] → c.hlc.link = .up → x.state = .active → x.resend = none →
        x.out.length < c.linkSet .window → x.next < x.total → x.next = b.index →
        let f := hoFrame 0x11 (b.index % 256) (some b.index) (wordsBytes (b.words ++ ws))
        Completes (.storeAnswer true) s fun t => t.chip = c.onHlc fun h => { h with
          build := none
          send := some { x with next := x.next + 1, out := x.out ++ [⟨b.index, b.index % 256, 1, f⟩] }
          tx := some (.data b.index x.out.isEmpty h.epoch), txBytes := flagged f }))

/-- ACK(n) of an outstanding frame takes it and those before it off the list and moves the count (R187); NAK(n), and the ack
timer for the oldest, set the resend point and restart the ack timer (R188). A number acknowledged lately is ignored, but that
its ACK ends HELD (R187, R188); one that names no frame is a line error (R180; at the threshold, LinkFramesHeard). In CALLING
none of them does more than that, and in DOWN none is heard (R180). Before its time the ack timer does nothing (the model's
choice, logs 1 and 28). -/
def Obligations.AcksTaken : Prop :=
  (∀ (s : State) (x : Send) (n : Fin 256) (front back : List Outstanding) (o : Outstanding), s.prompt = false →
    s.chip.hlc.link = .up → s.chip.hlc.send = some x → x.out = front ++ o :: back → o.link = n.val →
    (∀ z ∈ front, z.link ≠ n.val) →
    let ackMs := s.chip.linkSet .ackTime * 1000
    Completes (.ack n) s (fun t => t.chip.hlc.errors = 0 ∧ ∃ y, t.chip.hlc.send = some y ∧ y.out = back ∧ y.acked = o.index + 1 ∧
      y.recent = lastFour (x.recent ++ (front ++ [o]).map (·.link)) ∧ y.next = x.next ∧ y.total = x.total ∧
      (o.index + 1 = x.total → x.state ≠ .awaitVerdict → y.state = .awaitVerdict ∧ y.ackTimer = none ∧
        y.verdictTimer = some (s.chip.linkSet .verdictTime * 1000)) ∧
      (o.index + 1 ≠ x.total → y.state = (if x.state = .held then .active else x.state) ∧
        y.ackTimer = (if back = [] then none else some ackMs) ∧
        y.resend = (match x.resend with | some r => if r ≤ o.index then back.head?.map (·.index) else some r | none => none))) ∧
    Completes (.nak n) s (fun t => t.chip.hlc.errors = 0 ∧ ∃ y, t.chip.hlc.send = some y ∧ y.out = o :: back ∧
      y.resend = some o.index ∧ y.ackTimer = some ackMs ∧ y.state = x.state) ∧
    (front = [] → x.ackTimer = some 0 → Completes .ackTimerExpiry s fun t => ∃ y, t.chip.hlc.send = some y ∧
      y = { x with resend := some o.index, ackTimer := some ackMs } ∧ s.Only [.hlc] t)) ∧
  (∀ (s : State) (n : Fin 256), s.prompt = false → s.chip.hlc.link = .down →
    exec (.ack n) s = .next s ∧ exec (.nak n) s = .next s) ∧
  ∀ (s : State) (n : Fin 256), s.prompt = false → s.chip.hlc.link ≠ .down →
    let h := s.chip.hlc
    let silence := if h.link = .up then some (3 * (s.chip.linkSet .keepalive * 1000)) else h.silenceTimer
    let answers (i : Instr) (h' : HlcState) : Prop := exec i s = .next { s with chip := { s.chip with hlc := h' } }
    let wrong := { h with errors := min 15 (h.errors + 1), silenceTimer := silence }
    let heard := { h with errors := 0, silenceTimer := silence }
    let unknown := ∀ x, h.send = some x → (∀ o ∈ x.out, o.link ≠ n.val) ∧ n.val ∉ x.recent
    (unknown → min 15 (h.errors + 1) < s.chip.linkSet .errThreshold → answers (.ack n) wrong ∧ answers (.nak n) wrong) ∧
    (¬ unknown → h.link = .calling → answers (.ack n) heard ∧ answers (.nak n) heard) ∧
    (∀ x, h.send = some x → h.link = .up → (∀ o ∈ x.out, o.link ≠ n.val) → n.val ∈ x.recent →
      answers (.nak n) heard ∧
      answers (.ack n) { heard with
        send := some (if x.state = .held then { x with state := .active, holdTimer := none } else x) }) ∧
    ((∀ x, h.send = some x → x.ackTimer ≠ some 0) → exec .ackTimerExpiry s = .next s)

/-- The end of a send (R190, R191, R192, R172, R173). HOLD holds an ACTIVE send; ABORT and REJECTED, and the hold, resume and
verdict timers, fail it, the day CLOSED with their reason; ACCEPTED in AWAIT_VERDICT makes the day SENT with the batch number,
and in any other send state, or with no send, is a line error (R180; at the threshold, LinkFramesHeard). In CALLING, and HOLD,
ABORT and REJECTED with no send, or REJECTED of a SUSPENDED one, the frame is valid and has no further effect (R180, R191); in
DOWN it is not heard (R180). A failure does not change the link (R192). Before its time a timer does nothing: the model's choice
(logs 1 and 28). -/
def Obligations.SendsEnd : Prop :=
  (∀ (s : State) (x : Send), s.prompt = false → s.chip.hlc.link = .up → s.chip.hlc.send = some x → Completes .hold s fun t =>
    t.chip.hlc.errors = 0 ∧ s.Only [.hlc] t ∧ t.chip.hlc.link = .up ∧
    t.chip.hlc.send = some (if x.state = .active then
      { x with state := .held, ackTimer := none, holdTimer := some (s.chip.linkSet .resumeTime * 60000) } else x)) ∧
  (∀ (s : State) (i : Instr) (x : Send) (why : FailReason), s.prompt = false → s.chip.hlc.send = some x →
    s.chip.cu.day.state = .sending → s.chip.Fails i x why → s.chip.su.reports.length < 16 → Completes i s fun t =>
      t.chip.hlc.send = none ∧ t.chip.hlc.link = s.chip.hlc.link ∧
      t.chip.cu = { s.chip.cu with day := { s.chip.cu.day with state := .closed, failure := why } } ∧
      t.chip.su = { s.chip.su with reports := s.chip.su.reports ++ [⟨.sendFailed, 0, why.code, s.chip.su.ms⟩] } ∧
      s.Only [.su, .cu, .scu, .slc, .hlc, .own] t) ∧
  (∀ (s : State) (x : Send), s.prompt = false → s.chip.hlc.send = some x →
    (x.holdTimer ≠ some 0 → exec .holdTimerExpiry s = .next s) ∧ (x.resumeTimer ≠ some 0 → exec .resumeTimerExpiry s = .next s) ∧
    (x.verdictTimer ≠ some 0 → exec .verdictTimerExpiry s = .next s)) ∧
  (∀ (s : State) (batch : Word), s.prompt = false → s.chip.hlc.link ≠ .down →
    (∀ x, s.chip.hlc.send = some x → x.state ≠ .awaitVerdict) →
    min 15 (s.chip.hlc.errors + 1) < s.chip.linkSet .errThreshold → exec (.accepted batch) s = .next
      { s with chip := s.chip.onHlc fun h => { h with
        errors := min 15 (h.errors + 1)
        silenceTimer := if h.link = .up then some (3 * (s.chip.linkSet .keepalive * 1000)) else h.silenceTimer } }) ∧
  (∀ (s : State) (i : Instr), s.prompt = false → s.chip.hlc.link = .down →
    (i = .hold ∨ (∃ r, i = .abort r) ∨ (∃ r, i = .rejected r) ∨ ∃ b, i = .accepted b) → exec i s = .next s) ∧
  (∀ (s : State) (i : Instr), s.prompt = false → s.chip.hlc.link ≠ .down →
    let h := s.chip.hlc
    let idle := h.link = .calling ∨ h.send = none
    let suspended := ∀ x, h.send = some x → x.state = .suspended
    ((i = .hold ∧ idle) ∨ (∃ r, i = .abort r ∧ idle) ∨ (∃ r, i = .rejected r ∧ (idle ∨ suspended)) ∨
      ∃ b x, i = .accepted b ∧ h.link = .calling ∧ h.send = some x ∧ x.state = .awaitVerdict) →
    exec i s = .next { s with chip := s.chip.onHlc fun h => { h with
      errors := 0
      silenceTimer := if h.link = .up then some (3 * (s.chip.linkSet .keepalive * 1000)) else h.silenceTimer } }) ∧
  ∀ (s : State) (x : Send) (batch : Word), s.prompt = false → s.chip.hlc.link = .up → s.chip.hlc.send = some x →
    x.state = .awaitVerdict → s.chip.cu.day.state = .sending → s.chip.su.reports.length < 16 →
    Completes (.accepted batch) s fun t =>
      t.chip.hlc.send = none ∧ t.chip.hlc.errors = 0 ∧ t.chip.hlc.link = .up ∧
      t.chip.cu = { s.chip.cu with day := { s.chip.cu.day with state := .sent, batch := batch.toNat } } ∧
      t.chip.su = { s.chip.su with reports := s.chip.su.reports ++ [⟨.sendDone, 0, batch.toNat, s.chip.su.ms⟩] } ∧
      s.Only [.su, .cu, .scu, .slc, .hlc, .own] t
end

