-- ==== Sys2Proof/Laws/State.lean ====
section
/-! SUPPORT. What each update of the state changes, field by field: one lemma for each update and field, so that no later
proof unfolds a record update. -/

namespace Sys2Proof.Machine

set_option Elab.async false

/-! ### Vectors -/

/-- An entry of a vector one entry of which was changed. -/
theorem vupd_get {α : Type} {n : Nat} (v : Vector α n) (i : Fin n) (f : α → α) (j : Nat) (h : j < n) :
    (vupd v i f)[j] = if i.val = j then f v[i.val] else v[j] := by
  simp [vupd, Vector.getElem_set]

/-- The entry changed. -/
@[simp] theorem vupd_get_same {α : Type} {n : Nat} (v : Vector α n) (i : Fin n) (f : α → α) :
    (vupd v i f)[i.val] = f v[i.val] := by simp [vupd]

/-- Another entry. -/
theorem vupd_get_ne {α : Type} {n : Nat} (v : Vector α n) (i j : Fin n) (f : α → α) (h : j ≠ i) :
    (vupd v i f)[j.val] = v[j.val] := by
  rw [vupd_get, if_neg (fun e => h (Fin.ext e.symm))]

/-- An entry of a vector one entry of which was put. -/
theorem vput_get {α : Type} {n : Nat} (v : Vector α n) (i : Fin n) (x : α) (j : Nat) (h : j < n) :
    (vput v i x)[j] = if i.val = j then x else v[j] := by
  simp [vput, Vector.getElem_set]

/-- The entry put. -/
@[simp] theorem vput_get_same {α : Type} {n : Nat} (v : Vector α n) (i : Fin n) (x : α) :
    (vput v i x)[i.val] = x := by simp [vput]

/-- Another entry. -/
theorem vput_get_ne {α : Type} {n : Nat} (v : Vector α n) (i j : Fin n) (x : α) (h : j ≠ i) :
    (vput v i x)[j.val] = v[j.val] := by
  rw [vput_get, if_neg (fun e => h (Fin.ext e.symm))]

/-- An entry of a vector mapped over. -/
@[simp] theorem vmap_get {α β : Type} {n : Nat} (f : α → β) (v : Vector α n) (j : Nat) (h : j < n) :
    (vmap f v)[j] = f v[j] := by simp [vmap]

/-! ### Updates of the part -/

@[simp] theorem Chip.onAp_own (c : Chip) (f : ApState → ApState) : (c.onAp f).own = c.own := rfl
@[simp] theorem Chip.onAp_su (c : Chip) (f : ApState → ApState) : (c.onAp f).su = c.su := rfl
@[simp] theorem Chip.onAp_ju (c : Chip) (f : ApState → ApState) : (c.onAp f).ju = c.ju := rfl
@[simp] theorem Chip.onAp_cu (c : Chip) (f : ApState → ApState) : (c.onAp f).cu = c.cu := rfl
@[simp] theorem Chip.onAp_scu (c : Chip) (f : ApState → ApState) : (c.onAp f).scu = c.scu := rfl
@[simp] theorem Chip.onAp_slc (c : Chip) (f : ApState → ApState) : (c.onAp f).slc = c.slc := rfl
@[simp] theorem Chip.onAp_pru (c : Chip) (f : ApState → ApState) : (c.onAp f).pru = c.pru := rfl
@[simp] theorem Chip.onAp_fd (c : Chip) (f : ApState → ApState) : (c.onAp f).fd = c.fd := rfl
@[simp] theorem Chip.onAp_hlc (c : Chip) (f : ApState → ApState) : (c.onAp f).hlc = c.hlc := rfl
@[simp] theorem Chip.onAp_pins (c : Chip) (f : ApState → ApState) : (c.onAp f).pins = c.pins := rfl
@[simp] theorem Chip.onAp_free (c : Chip) (f : ApState → ApState) : (c.onAp f).free = c.free := rfl
@[simp] theorem Chip.onAp_eq (c : Chip) (f : ApState → ApState) : (c.onAp f).ap = f c.ap := rfl

@[simp] theorem Chip.push_ap (c : Chip) (u : Fin 9) (op : OwnOp) (tag : Tag) (fin : Bool) : (c.push u op tag fin).ap = c.ap := rfl
@[simp] theorem Chip.push_su (c : Chip) (u : Fin 9) (op : OwnOp) (tag : Tag) (fin : Bool) : (c.push u op tag fin).su = c.su := rfl
@[simp] theorem Chip.push_ju (c : Chip) (u : Fin 9) (op : OwnOp) (tag : Tag) (fin : Bool) : (c.push u op tag fin).ju = c.ju := rfl
@[simp] theorem Chip.push_cu (c : Chip) (u : Fin 9) (op : OwnOp) (tag : Tag) (fin : Bool) : (c.push u op tag fin).cu = c.cu := rfl
@[simp] theorem Chip.push_scu (c : Chip) (u : Fin 9) (op : OwnOp) (tag : Tag) (fin : Bool) : (c.push u op tag fin).scu = c.scu := rfl
@[simp] theorem Chip.push_slc (c : Chip) (u : Fin 9) (op : OwnOp) (tag : Tag) (fin : Bool) : (c.push u op tag fin).slc = c.slc := rfl
@[simp] theorem Chip.push_pru (c : Chip) (u : Fin 9) (op : OwnOp) (tag : Tag) (fin : Bool) : (c.push u op tag fin).pru = c.pru := rfl
@[simp] theorem Chip.push_fd (c : Chip) (u : Fin 9) (op : OwnOp) (tag : Tag) (fin : Bool) : (c.push u op tag fin).fd = c.fd := rfl
@[simp] theorem Chip.push_hlc (c : Chip) (u : Fin 9) (op : OwnOp) (tag : Tag) (fin : Bool) : (c.push u op tag fin).hlc = c.hlc := rfl
@[simp] theorem Chip.push_pins (c : Chip) (u : Fin 9) (op : OwnOp) (tag : Tag) (fin : Bool) : (c.push u op tag fin).pins = c.pins := rfl
@[simp] theorem Chip.push_free (c : Chip) (u : Fin 9) (op : OwnOp) (tag : Tag) (fin : Bool) : (c.push u op tag fin).free = c.free := rfl
@[simp] theorem Chip.push_eq (c : Chip) (u : Fin 9) (op : OwnOp) (tag : Tag) (fin : Bool) : (c.push u op tag fin).own = vupd c.own u (· ++ [⟨op, tag, fin⟩]) := rfl

@[simp] theorem Chip.pushAll_ap (c : Chip) (u : Fin 9) (rs : List OwnReq) : (c.pushAll u rs).ap = c.ap := rfl
@[simp] theorem Chip.pushAll_su (c : Chip) (u : Fin 9) (rs : List OwnReq) : (c.pushAll u rs).su = c.su := rfl
@[simp] theorem Chip.pushAll_ju (c : Chip) (u : Fin 9) (rs : List OwnReq) : (c.pushAll u rs).ju = c.ju := rfl
@[simp] theorem Chip.pushAll_cu (c : Chip) (u : Fin 9) (rs : List OwnReq) : (c.pushAll u rs).cu = c.cu := rfl
@[simp] theorem Chip.pushAll_scu (c : Chip) (u : Fin 9) (rs : List OwnReq) : (c.pushAll u rs).scu = c.scu := rfl
@[simp] theorem Chip.pushAll_slc (c : Chip) (u : Fin 9) (rs : List OwnReq) : (c.pushAll u rs).slc = c.slc := rfl
@[simp] theorem Chip.pushAll_pru (c : Chip) (u : Fin 9) (rs : List OwnReq) : (c.pushAll u rs).pru = c.pru := rfl
@[simp] theorem Chip.pushAll_fd (c : Chip) (u : Fin 9) (rs : List OwnReq) : (c.pushAll u rs).fd = c.fd := rfl
@[simp] theorem Chip.pushAll_hlc (c : Chip) (u : Fin 9) (rs : List OwnReq) : (c.pushAll u rs).hlc = c.hlc := rfl
@[simp] theorem Chip.pushAll_pins (c : Chip) (u : Fin 9) (rs : List OwnReq) : (c.pushAll u rs).pins = c.pins := rfl
@[simp] theorem Chip.pushAll_free (c : Chip) (u : Fin 9) (rs : List OwnReq) : (c.pushAll u rs).free = c.free := rfl
@[simp] theorem Chip.pushAll_eq (c : Chip) (u : Fin 9) (rs : List OwnReq) : (c.pushAll u rs).own = vupd c.own u (· ++ rs) := rfl

@[simp] theorem Chip.onSu_ap (c : Chip) (f : SuState → SuState) : (c.onSu f).ap = c.ap := rfl
@[simp] theorem Chip.onSu_own (c : Chip) (f : SuState → SuState) : (c.onSu f).own = c.own := rfl
@[simp] theorem Chip.onSu_ju (c : Chip) (f : SuState → SuState) : (c.onSu f).ju = c.ju := rfl
@[simp] theorem Chip.onSu_cu (c : Chip) (f : SuState → SuState) : (c.onSu f).cu = c.cu := rfl
@[simp] theorem Chip.onSu_scu (c : Chip) (f : SuState → SuState) : (c.onSu f).scu = c.scu := rfl
@[simp] theorem Chip.onSu_slc (c : Chip) (f : SuState → SuState) : (c.onSu f).slc = c.slc := rfl
@[simp] theorem Chip.onSu_pru (c : Chip) (f : SuState → SuState) : (c.onSu f).pru = c.pru := rfl
@[simp] theorem Chip.onSu_fd (c : Chip) (f : SuState → SuState) : (c.onSu f).fd = c.fd := rfl
@[simp] theorem Chip.onSu_hlc (c : Chip) (f : SuState → SuState) : (c.onSu f).hlc = c.hlc := rfl
@[simp] theorem Chip.onSu_pins (c : Chip) (f : SuState → SuState) : (c.onSu f).pins = c.pins := rfl
@[simp] theorem Chip.onSu_free (c : Chip) (f : SuState → SuState) : (c.onSu f).free = c.free := rfl
@[simp] theorem Chip.onSu_eq (c : Chip) (f : SuState → SuState) : (c.onSu f).su = f c.su := rfl

@[simp] theorem Chip.onJu_ap (c : Chip) (f : JuState → JuState) : (c.onJu f).ap = c.ap := rfl
@[simp] theorem Chip.onJu_own (c : Chip) (f : JuState → JuState) : (c.onJu f).own = c.own := rfl
@[simp] theorem Chip.onJu_su (c : Chip) (f : JuState → JuState) : (c.onJu f).su = c.su := rfl
@[simp] theorem Chip.onJu_cu (c : Chip) (f : JuState → JuState) : (c.onJu f).cu = c.cu := rfl
@[simp] theorem Chip.onJu_scu (c : Chip) (f : JuState → JuState) : (c.onJu f).scu = c.scu := rfl
@[simp] theorem Chip.onJu_slc (c : Chip) (f : JuState → JuState) : (c.onJu f).slc = c.slc := rfl
@[simp] theorem Chip.onJu_pru (c : Chip) (f : JuState → JuState) : (c.onJu f).pru = c.pru := rfl
@[simp] theorem Chip.onJu_fd (c : Chip) (f : JuState → JuState) : (c.onJu f).fd = c.fd := rfl
@[simp] theorem Chip.onJu_hlc (c : Chip) (f : JuState → JuState) : (c.onJu f).hlc = c.hlc := rfl
@[simp] theorem Chip.onJu_pins (c : Chip) (f : JuState → JuState) : (c.onJu f).pins = c.pins := rfl
@[simp] theorem Chip.onJu_free (c : Chip) (f : JuState → JuState) : (c.onJu f).free = c.free := rfl
@[simp] theorem Chip.onJu_eq (c : Chip) (f : JuState → JuState) : (c.onJu f).ju = f c.ju := rfl

@[simp] theorem Chip.onPosting_ap (c : Chip) (f : Posting → Posting) : (c.onPosting f).ap = c.ap := rfl
@[simp] theorem Chip.onPosting_own (c : Chip) (f : Posting → Posting) : (c.onPosting f).own = c.own := rfl
@[simp] theorem Chip.onPosting_su (c : Chip) (f : Posting → Posting) : (c.onPosting f).su = c.su := rfl
@[simp] theorem Chip.onPosting_cu (c : Chip) (f : Posting → Posting) : (c.onPosting f).cu = c.cu := rfl
@[simp] theorem Chip.onPosting_scu (c : Chip) (f : Posting → Posting) : (c.onPosting f).scu = c.scu := rfl
@[simp] theorem Chip.onPosting_slc (c : Chip) (f : Posting → Posting) : (c.onPosting f).slc = c.slc := rfl
@[simp] theorem Chip.onPosting_pru (c : Chip) (f : Posting → Posting) : (c.onPosting f).pru = c.pru := rfl
@[simp] theorem Chip.onPosting_fd (c : Chip) (f : Posting → Posting) : (c.onPosting f).fd = c.fd := rfl
@[simp] theorem Chip.onPosting_hlc (c : Chip) (f : Posting → Posting) : (c.onPosting f).hlc = c.hlc := rfl
@[simp] theorem Chip.onPosting_pins (c : Chip) (f : Posting → Posting) : (c.onPosting f).pins = c.pins := rfl
@[simp] theorem Chip.onPosting_free (c : Chip) (f : Posting → Posting) : (c.onPosting f).free = c.free := rfl
@[simp] theorem Chip.onPosting_eq (c : Chip) (f : Posting → Posting) : (c.onPosting f).ju = { c.ju with posting := c.ju.posting.map f } := rfl

@[simp] theorem Chip.onCu_ap (c : Chip) (f : CuState → CuState) : (c.onCu f).ap = c.ap := rfl
@[simp] theorem Chip.onCu_own (c : Chip) (f : CuState → CuState) : (c.onCu f).own = c.own := rfl
@[simp] theorem Chip.onCu_su (c : Chip) (f : CuState → CuState) : (c.onCu f).su = c.su := rfl
@[simp] theorem Chip.onCu_ju (c : Chip) (f : CuState → CuState) : (c.onCu f).ju = c.ju := rfl
@[simp] theorem Chip.onCu_scu (c : Chip) (f : CuState → CuState) : (c.onCu f).scu = c.scu := rfl
@[simp] theorem Chip.onCu_slc (c : Chip) (f : CuState → CuState) : (c.onCu f).slc = c.slc := rfl
@[simp] theorem Chip.onCu_pru (c : Chip) (f : CuState → CuState) : (c.onCu f).pru = c.pru := rfl
@[simp] theorem Chip.onCu_fd (c : Chip) (f : CuState → CuState) : (c.onCu f).fd = c.fd := rfl
@[simp] theorem Chip.onCu_hlc (c : Chip) (f : CuState → CuState) : (c.onCu f).hlc = c.hlc := rfl
@[simp] theorem Chip.onCu_pins (c : Chip) (f : CuState → CuState) : (c.onCu f).pins = c.pins := rfl
@[simp] theorem Chip.onCu_free (c : Chip) (f : CuState → CuState) : (c.onCu f).free = c.free := rfl
@[simp] theorem Chip.onCu_eq (c : Chip) (f : CuState → CuState) : (c.onCu f).cu = f c.cu := rfl

@[simp] theorem Chip.onScreen_ap (c : Chip) (p : Fin 12) (f : Screen → Screen) : (c.onScreen p f).ap = c.ap := rfl
@[simp] theorem Chip.onScreen_own (c : Chip) (p : Fin 12) (f : Screen → Screen) : (c.onScreen p f).own = c.own := rfl
@[simp] theorem Chip.onScreen_su (c : Chip) (p : Fin 12) (f : Screen → Screen) : (c.onScreen p f).su = c.su := rfl
@[simp] theorem Chip.onScreen_ju (c : Chip) (p : Fin 12) (f : Screen → Screen) : (c.onScreen p f).ju = c.ju := rfl
@[simp] theorem Chip.onScreen_cu (c : Chip) (p : Fin 12) (f : Screen → Screen) : (c.onScreen p f).cu = c.cu := rfl
@[simp] theorem Chip.onScreen_slc (c : Chip) (p : Fin 12) (f : Screen → Screen) : (c.onScreen p f).slc = c.slc := rfl
@[simp] theorem Chip.onScreen_pru (c : Chip) (p : Fin 12) (f : Screen → Screen) : (c.onScreen p f).pru = c.pru := rfl
@[simp] theorem Chip.onScreen_fd (c : Chip) (p : Fin 12) (f : Screen → Screen) : (c.onScreen p f).fd = c.fd := rfl
@[simp] theorem Chip.onScreen_hlc (c : Chip) (p : Fin 12) (f : Screen → Screen) : (c.onScreen p f).hlc = c.hlc := rfl
@[simp] theorem Chip.onScreen_pins (c : Chip) (p : Fin 12) (f : Screen → Screen) : (c.onScreen p f).pins = c.pins := rfl
@[simp] theorem Chip.onScreen_free (c : Chip) (p : Fin 12) (f : Screen → Screen) : (c.onScreen p f).free = c.free := rfl
@[simp] theorem Chip.onScreen_eq (c : Chip) (p : Fin 12) (f : Screen → Screen) : (c.onScreen p f).scu = { c.scu with screens := vupd c.scu.screens p f } := rfl

@[simp] theorem Chip.onFan_ap (c : Chip) (f : FanOut → FanOut) : (c.onFan f).ap = c.ap := rfl
@[simp] theorem Chip.onFan_own (c : Chip) (f : FanOut → FanOut) : (c.onFan f).own = c.own := rfl
@[simp] theorem Chip.onFan_su (c : Chip) (f : FanOut → FanOut) : (c.onFan f).su = c.su := rfl
@[simp] theorem Chip.onFan_ju (c : Chip) (f : FanOut → FanOut) : (c.onFan f).ju = c.ju := rfl
@[simp] theorem Chip.onFan_cu (c : Chip) (f : FanOut → FanOut) : (c.onFan f).cu = c.cu := rfl
@[simp] theorem Chip.onFan_slc (c : Chip) (f : FanOut → FanOut) : (c.onFan f).slc = c.slc := rfl
@[simp] theorem Chip.onFan_pru (c : Chip) (f : FanOut → FanOut) : (c.onFan f).pru = c.pru := rfl
@[simp] theorem Chip.onFan_fd (c : Chip) (f : FanOut → FanOut) : (c.onFan f).fd = c.fd := rfl
@[simp] theorem Chip.onFan_hlc (c : Chip) (f : FanOut → FanOut) : (c.onFan f).hlc = c.hlc := rfl
@[simp] theorem Chip.onFan_pins (c : Chip) (f : FanOut → FanOut) : (c.onFan f).pins = c.pins := rfl
@[simp] theorem Chip.onFan_free (c : Chip) (f : FanOut → FanOut) : (c.onFan f).free = c.free := rfl
@[simp] theorem Chip.onFan_eq (c : Chip) (f : FanOut → FanOut) : (c.onFan f).scu = { c.scu with fan := f c.scu.fan } := rfl

@[simp] theorem Chip.scuBegin_ap (c : Chip) (e : ScuWork) (r : List ScuWork) : (c.scuBegin e r).ap = c.ap := rfl
@[simp] theorem Chip.scuBegin_own (c : Chip) (e : ScuWork) (r : List ScuWork) : (c.scuBegin e r).own = c.own := rfl
@[simp] theorem Chip.scuBegin_su (c : Chip) (e : ScuWork) (r : List ScuWork) : (c.scuBegin e r).su = c.su := rfl
@[simp] theorem Chip.scuBegin_ju (c : Chip) (e : ScuWork) (r : List ScuWork) : (c.scuBegin e r).ju = c.ju := rfl
@[simp] theorem Chip.scuBegin_cu (c : Chip) (e : ScuWork) (r : List ScuWork) : (c.scuBegin e r).cu = c.cu := rfl
@[simp] theorem Chip.scuBegin_slc (c : Chip) (e : ScuWork) (r : List ScuWork) : (c.scuBegin e r).slc = c.slc := rfl
@[simp] theorem Chip.scuBegin_pru (c : Chip) (e : ScuWork) (r : List ScuWork) : (c.scuBegin e r).pru = c.pru := rfl
@[simp] theorem Chip.scuBegin_fd (c : Chip) (e : ScuWork) (r : List ScuWork) : (c.scuBegin e r).fd = c.fd := rfl
@[simp] theorem Chip.scuBegin_hlc (c : Chip) (e : ScuWork) (r : List ScuWork) : (c.scuBegin e r).hlc = c.hlc := rfl
@[simp] theorem Chip.scuBegin_pins (c : Chip) (e : ScuWork) (r : List ScuWork) : (c.scuBegin e r).pins = c.pins := rfl
@[simp] theorem Chip.scuBegin_free (c : Chip) (e : ScuWork) (r : List ScuWork) : (c.scuBegin e r).free = c.free := rfl

@[simp] theorem Chip.onDrop_ap (c : Chip) (p : Fin 12) (f : Drop → Drop) : (c.onDrop p f).ap = c.ap := rfl
@[simp] theorem Chip.onDrop_own (c : Chip) (p : Fin 12) (f : Drop → Drop) : (c.onDrop p f).own = c.own := rfl
@[simp] theorem Chip.onDrop_su (c : Chip) (p : Fin 12) (f : Drop → Drop) : (c.onDrop p f).su = c.su := rfl
@[simp] theorem Chip.onDrop_ju (c : Chip) (p : Fin 12) (f : Drop → Drop) : (c.onDrop p f).ju = c.ju := rfl
@[simp] theorem Chip.onDrop_cu (c : Chip) (p : Fin 12) (f : Drop → Drop) : (c.onDrop p f).cu = c.cu := rfl
@[simp] theorem Chip.onDrop_scu (c : Chip) (p : Fin 12) (f : Drop → Drop) : (c.onDrop p f).scu = c.scu := rfl
@[simp] theorem Chip.onDrop_pru (c : Chip) (p : Fin 12) (f : Drop → Drop) : (c.onDrop p f).pru = c.pru := rfl
@[simp] theorem Chip.onDrop_fd (c : Chip) (p : Fin 12) (f : Drop → Drop) : (c.onDrop p f).fd = c.fd := rfl
@[simp] theorem Chip.onDrop_hlc (c : Chip) (p : Fin 12) (f : Drop → Drop) : (c.onDrop p f).hlc = c.hlc := rfl
@[simp] theorem Chip.onDrop_pins (c : Chip) (p : Fin 12) (f : Drop → Drop) : (c.onDrop p f).pins = c.pins := rfl
@[simp] theorem Chip.onDrop_free (c : Chip) (p : Fin 12) (f : Drop → Drop) : (c.onDrop p f).free = c.free := rfl
@[simp] theorem Chip.onDrop_eq (c : Chip) (p : Fin 12) (f : Drop → Drop) : (c.onDrop p f).slc = { c.slc with drops := vupd c.slc.drops p f } := rfl

@[simp] theorem Chip.onLine_ap (c : Chip) (l : Fin 3) (f : Line → Line) : (c.onLine l f).ap = c.ap := rfl
@[simp] theorem Chip.onLine_own (c : Chip) (l : Fin 3) (f : Line → Line) : (c.onLine l f).own = c.own := rfl
@[simp] theorem Chip.onLine_su (c : Chip) (l : Fin 3) (f : Line → Line) : (c.onLine l f).su = c.su := rfl
@[simp] theorem Chip.onLine_ju (c : Chip) (l : Fin 3) (f : Line → Line) : (c.onLine l f).ju = c.ju := rfl
@[simp] theorem Chip.onLine_cu (c : Chip) (l : Fin 3) (f : Line → Line) : (c.onLine l f).cu = c.cu := rfl
@[simp] theorem Chip.onLine_scu (c : Chip) (l : Fin 3) (f : Line → Line) : (c.onLine l f).scu = c.scu := rfl
@[simp] theorem Chip.onLine_pru (c : Chip) (l : Fin 3) (f : Line → Line) : (c.onLine l f).pru = c.pru := rfl
@[simp] theorem Chip.onLine_fd (c : Chip) (l : Fin 3) (f : Line → Line) : (c.onLine l f).fd = c.fd := rfl
@[simp] theorem Chip.onLine_hlc (c : Chip) (l : Fin 3) (f : Line → Line) : (c.onLine l f).hlc = c.hlc := rfl
@[simp] theorem Chip.onLine_pins (c : Chip) (l : Fin 3) (f : Line → Line) : (c.onLine l f).pins = c.pins := rfl
@[simp] theorem Chip.onLine_free (c : Chip) (l : Fin 3) (f : Line → Line) : (c.onLine l f).free = c.free := rfl
@[simp] theorem Chip.onLine_eq (c : Chip) (l : Fin 3) (f : Line → Line) : (c.onLine l f).slc = { c.slc with lines := vupd c.slc.lines l f } := rfl

@[simp] theorem Chip.onFeed_ap (c : Chip) (n : Fin 4) (f : Feed → Feed) : (c.onFeed n f).ap = c.ap := rfl
@[simp] theorem Chip.onFeed_own (c : Chip) (n : Fin 4) (f : Feed → Feed) : (c.onFeed n f).own = c.own := rfl
@[simp] theorem Chip.onFeed_su (c : Chip) (n : Fin 4) (f : Feed → Feed) : (c.onFeed n f).su = c.su := rfl
@[simp] theorem Chip.onFeed_ju (c : Chip) (n : Fin 4) (f : Feed → Feed) : (c.onFeed n f).ju = c.ju := rfl
@[simp] theorem Chip.onFeed_cu (c : Chip) (n : Fin 4) (f : Feed → Feed) : (c.onFeed n f).cu = c.cu := rfl
@[simp] theorem Chip.onFeed_scu (c : Chip) (n : Fin 4) (f : Feed → Feed) : (c.onFeed n f).scu = c.scu := rfl
@[simp] theorem Chip.onFeed_slc (c : Chip) (n : Fin 4) (f : Feed → Feed) : (c.onFeed n f).slc = c.slc := rfl
@[simp] theorem Chip.onFeed_pru (c : Chip) (n : Fin 4) (f : Feed → Feed) : (c.onFeed n f).pru = c.pru := rfl
@[simp] theorem Chip.onFeed_hlc (c : Chip) (n : Fin 4) (f : Feed → Feed) : (c.onFeed n f).hlc = c.hlc := rfl
@[simp] theorem Chip.onFeed_pins (c : Chip) (n : Fin 4) (f : Feed → Feed) : (c.onFeed n f).pins = c.pins := rfl
@[simp] theorem Chip.onFeed_free (c : Chip) (n : Fin 4) (f : Feed → Feed) : (c.onFeed n f).free = c.free := rfl
@[simp] theorem Chip.onFeed_eq (c : Chip) (n : Fin 4) (f : Feed → Feed) : (c.onFeed n f).fd = vupd c.fd n f := rfl

@[simp] theorem Chip.onPrinter_ap (c : Chip) (n : Fin 4) (f : Printer → Printer) : (c.onPrinter n f).ap = c.ap := rfl
@[simp] theorem Chip.onPrinter_own (c : Chip) (n : Fin 4) (f : Printer → Printer) : (c.onPrinter n f).own = c.own := rfl
@[simp] theorem Chip.onPrinter_su (c : Chip) (n : Fin 4) (f : Printer → Printer) : (c.onPrinter n f).su = c.su := rfl
@[simp] theorem Chip.onPrinter_ju (c : Chip) (n : Fin 4) (f : Printer → Printer) : (c.onPrinter n f).ju = c.ju := rfl
@[simp] theorem Chip.onPrinter_cu (c : Chip) (n : Fin 4) (f : Printer → Printer) : (c.onPrinter n f).cu = c.cu := rfl
@[simp] theorem Chip.onPrinter_scu (c : Chip) (n : Fin 4) (f : Printer → Printer) : (c.onPrinter n f).scu = c.scu := rfl
@[simp] theorem Chip.onPrinter_slc (c : Chip) (n : Fin 4) (f : Printer → Printer) : (c.onPrinter n f).slc = c.slc := rfl
@[simp] theorem Chip.onPrinter_fd (c : Chip) (n : Fin 4) (f : Printer → Printer) : (c.onPrinter n f).fd = c.fd := rfl
@[simp] theorem Chip.onPrinter_hlc (c : Chip) (n : Fin 4) (f : Printer → Printer) : (c.onPrinter n f).hlc = c.hlc := rfl
@[simp] theorem Chip.onPrinter_pins (c : Chip) (n : Fin 4) (f : Printer → Printer) : (c.onPrinter n f).pins = c.pins := rfl
@[simp] theorem Chip.onPrinter_free (c : Chip) (n : Fin 4) (f : Printer → Printer) : (c.onPrinter n f).free = c.free := rfl
@[simp] theorem Chip.onPrinter_eq (c : Chip) (n : Fin 4) (f : Printer → Printer) : (c.onPrinter n f).pru = { c.pru with printers := vupd c.pru.printers n f } := rfl

@[simp] theorem Chip.setSlot_ap (c : Chip) (n : Fin 4) (i : Fin 8) (x : SlotStatus) : (c.setSlot n i x).ap = c.ap := rfl
@[simp] theorem Chip.setSlot_own (c : Chip) (n : Fin 4) (i : Fin 8) (x : SlotStatus) : (c.setSlot n i x).own = c.own := rfl
@[simp] theorem Chip.setSlot_su (c : Chip) (n : Fin 4) (i : Fin 8) (x : SlotStatus) : (c.setSlot n i x).su = c.su := rfl
@[simp] theorem Chip.setSlot_ju (c : Chip) (n : Fin 4) (i : Fin 8) (x : SlotStatus) : (c.setSlot n i x).ju = c.ju := rfl
@[simp] theorem Chip.setSlot_cu (c : Chip) (n : Fin 4) (i : Fin 8) (x : SlotStatus) : (c.setSlot n i x).cu = c.cu := rfl
@[simp] theorem Chip.setSlot_scu (c : Chip) (n : Fin 4) (i : Fin 8) (x : SlotStatus) : (c.setSlot n i x).scu = c.scu := rfl
@[simp] theorem Chip.setSlot_slc (c : Chip) (n : Fin 4) (i : Fin 8) (x : SlotStatus) : (c.setSlot n i x).slc = c.slc := rfl
@[simp] theorem Chip.setSlot_fd (c : Chip) (n : Fin 4) (i : Fin 8) (x : SlotStatus) : (c.setSlot n i x).fd = c.fd := rfl
@[simp] theorem Chip.setSlot_hlc (c : Chip) (n : Fin 4) (i : Fin 8) (x : SlotStatus) : (c.setSlot n i x).hlc = c.hlc := rfl
@[simp] theorem Chip.setSlot_pins (c : Chip) (n : Fin 4) (i : Fin 8) (x : SlotStatus) : (c.setSlot n i x).pins = c.pins := rfl
@[simp] theorem Chip.setSlot_free (c : Chip) (n : Fin 4) (i : Fin 8) (x : SlotStatus) : (c.setSlot n i x).free = c.free := rfl

@[simp] theorem Chip.onSubmission_ap (c : Chip) (f : Submission → Submission) : (c.onSubmission f).ap = c.ap := rfl
@[simp] theorem Chip.onSubmission_own (c : Chip) (f : Submission → Submission) : (c.onSubmission f).own = c.own := rfl
@[simp] theorem Chip.onSubmission_su (c : Chip) (f : Submission → Submission) : (c.onSubmission f).su = c.su := rfl
@[simp] theorem Chip.onSubmission_ju (c : Chip) (f : Submission → Submission) : (c.onSubmission f).ju = c.ju := rfl
@[simp] theorem Chip.onSubmission_cu (c : Chip) (f : Submission → Submission) : (c.onSubmission f).cu = c.cu := rfl
@[simp] theorem Chip.onSubmission_scu (c : Chip) (f : Submission → Submission) : (c.onSubmission f).scu = c.scu := rfl
@[simp] theorem Chip.onSubmission_slc (c : Chip) (f : Submission → Submission) : (c.onSubmission f).slc = c.slc := rfl
@[simp] theorem Chip.onSubmission_fd (c : Chip) (f : Submission → Submission) : (c.onSubmission f).fd = c.fd := rfl
@[simp] theorem Chip.onSubmission_hlc (c : Chip) (f : Submission → Submission) : (c.onSubmission f).hlc = c.hlc := rfl
@[simp] theorem Chip.onSubmission_pins (c : Chip) (f : Submission → Submission) : (c.onSubmission f).pins = c.pins := rfl
@[simp] theorem Chip.onSubmission_free (c : Chip) (f : Submission → Submission) : (c.onSubmission f).free = c.free := rfl

@[simp] theorem Chip.onHlc_ap (c : Chip) (f : HlcState → HlcState) : (c.onHlc f).ap = c.ap := rfl
@[simp] theorem Chip.onHlc_own (c : Chip) (f : HlcState → HlcState) : (c.onHlc f).own = c.own := rfl
@[simp] theorem Chip.onHlc_su (c : Chip) (f : HlcState → HlcState) : (c.onHlc f).su = c.su := rfl
@[simp] theorem Chip.onHlc_ju (c : Chip) (f : HlcState → HlcState) : (c.onHlc f).ju = c.ju := rfl
@[simp] theorem Chip.onHlc_cu (c : Chip) (f : HlcState → HlcState) : (c.onHlc f).cu = c.cu := rfl
@[simp] theorem Chip.onHlc_scu (c : Chip) (f : HlcState → HlcState) : (c.onHlc f).scu = c.scu := rfl
@[simp] theorem Chip.onHlc_slc (c : Chip) (f : HlcState → HlcState) : (c.onHlc f).slc = c.slc := rfl
@[simp] theorem Chip.onHlc_pru (c : Chip) (f : HlcState → HlcState) : (c.onHlc f).pru = c.pru := rfl
@[simp] theorem Chip.onHlc_fd (c : Chip) (f : HlcState → HlcState) : (c.onHlc f).fd = c.fd := rfl
@[simp] theorem Chip.onHlc_pins (c : Chip) (f : HlcState → HlcState) : (c.onHlc f).pins = c.pins := rfl
@[simp] theorem Chip.onHlc_free (c : Chip) (f : HlcState → HlcState) : (c.onHlc f).free = c.free := rfl
@[simp] theorem Chip.onHlc_eq (c : Chip) (f : HlcState → HlcState) : (c.onHlc f).hlc = f c.hlc := rfl

@[simp] theorem Chip.onSend_ap (c : Chip) (f : Send → Send) : (c.onSend f).ap = c.ap := rfl
@[simp] theorem Chip.onSend_own (c : Chip) (f : Send → Send) : (c.onSend f).own = c.own := rfl
@[simp] theorem Chip.onSend_su (c : Chip) (f : Send → Send) : (c.onSend f).su = c.su := rfl
@[simp] theorem Chip.onSend_ju (c : Chip) (f : Send → Send) : (c.onSend f).ju = c.ju := rfl
@[simp] theorem Chip.onSend_cu (c : Chip) (f : Send → Send) : (c.onSend f).cu = c.cu := rfl
@[simp] theorem Chip.onSend_scu (c : Chip) (f : Send → Send) : (c.onSend f).scu = c.scu := rfl
@[simp] theorem Chip.onSend_slc (c : Chip) (f : Send → Send) : (c.onSend f).slc = c.slc := rfl
@[simp] theorem Chip.onSend_pru (c : Chip) (f : Send → Send) : (c.onSend f).pru = c.pru := rfl
@[simp] theorem Chip.onSend_fd (c : Chip) (f : Send → Send) : (c.onSend f).fd = c.fd := rfl
@[simp] theorem Chip.onSend_pins (c : Chip) (f : Send → Send) : (c.onSend f).pins = c.pins := rfl
@[simp] theorem Chip.onSend_free (c : Chip) (f : Send → Send) : (c.onSend f).free = c.free := rfl
@[simp] theorem Chip.onSend_eq (c : Chip) (f : Send → Send) : (c.onSend f).hlc = { c.hlc with send := c.hlc.send.map f } := rfl

@[simp] theorem Chip.transmit_ap (c : Chip) (x : HoTx) (b : List Byte) : (c.transmit x b).ap = c.ap := rfl
@[simp] theorem Chip.transmit_own (c : Chip) (x : HoTx) (b : List Byte) : (c.transmit x b).own = c.own := rfl
@[simp] theorem Chip.transmit_su (c : Chip) (x : HoTx) (b : List Byte) : (c.transmit x b).su = c.su := rfl
@[simp] theorem Chip.transmit_ju (c : Chip) (x : HoTx) (b : List Byte) : (c.transmit x b).ju = c.ju := rfl
@[simp] theorem Chip.transmit_cu (c : Chip) (x : HoTx) (b : List Byte) : (c.transmit x b).cu = c.cu := rfl
@[simp] theorem Chip.transmit_scu (c : Chip) (x : HoTx) (b : List Byte) : (c.transmit x b).scu = c.scu := rfl
@[simp] theorem Chip.transmit_slc (c : Chip) (x : HoTx) (b : List Byte) : (c.transmit x b).slc = c.slc := rfl
@[simp] theorem Chip.transmit_pru (c : Chip) (x : HoTx) (b : List Byte) : (c.transmit x b).pru = c.pru := rfl
@[simp] theorem Chip.transmit_fd (c : Chip) (x : HoTx) (b : List Byte) : (c.transmit x b).fd = c.fd := rfl
@[simp] theorem Chip.transmit_pins (c : Chip) (x : HoTx) (b : List Byte) : (c.transmit x b).pins = c.pins := rfl
@[simp] theorem Chip.transmit_free (c : Chip) (x : HoTx) (b : List Byte) : (c.transmit x b).free = c.free := rfl

@[simp] theorem Chip.setHost_own (c : Chip) (p : HostProg) : (c.setHost p).own = c.own := rfl
@[simp] theorem Chip.setHost_su (c : Chip) (p : HostProg) : (c.setHost p).su = c.su := rfl
@[simp] theorem Chip.setHost_ju (c : Chip) (p : HostProg) : (c.setHost p).ju = c.ju := rfl
@[simp] theorem Chip.setHost_cu (c : Chip) (p : HostProg) : (c.setHost p).cu = c.cu := rfl
@[simp] theorem Chip.setHost_scu (c : Chip) (p : HostProg) : (c.setHost p).scu = c.scu := rfl
@[simp] theorem Chip.setHost_slc (c : Chip) (p : HostProg) : (c.setHost p).slc = c.slc := rfl
@[simp] theorem Chip.setHost_pru (c : Chip) (p : HostProg) : (c.setHost p).pru = c.pru := rfl
@[simp] theorem Chip.setHost_fd (c : Chip) (p : HostProg) : (c.setHost p).fd = c.fd := rfl
@[simp] theorem Chip.setHost_hlc (c : Chip) (p : HostProg) : (c.setHost p).hlc = c.hlc := rfl
@[simp] theorem Chip.setHost_pins (c : Chip) (p : HostProg) : (c.setHost p).pins = c.pins := rfl
@[simp] theorem Chip.setHost_free (c : Chip) (p : HostProg) : (c.setHost p).free = c.free := rfl
@[simp] theorem Chip.setHost_eq (c : Chip) (p : HostProg) : (c.setHost p).ap = { c.ap with host := some p } := rfl

@[simp] theorem Chip.answerHost_own (c : Chip) (okay : Bool) (d : List Word) : (c.answerHost okay d).own = c.own := rfl
@[simp] theorem Chip.answerHost_su (c : Chip) (okay : Bool) (d : List Word) : (c.answerHost okay d).su = c.su := rfl
@[simp] theorem Chip.answerHost_ju (c : Chip) (okay : Bool) (d : List Word) : (c.answerHost okay d).ju = c.ju := rfl
@[simp] theorem Chip.answerHost_cu (c : Chip) (okay : Bool) (d : List Word) : (c.answerHost okay d).cu = c.cu := rfl
@[simp] theorem Chip.answerHost_scu (c : Chip) (okay : Bool) (d : List Word) : (c.answerHost okay d).scu = c.scu := rfl
@[simp] theorem Chip.answerHost_slc (c : Chip) (okay : Bool) (d : List Word) : (c.answerHost okay d).slc = c.slc := rfl
@[simp] theorem Chip.answerHost_pru (c : Chip) (okay : Bool) (d : List Word) : (c.answerHost okay d).pru = c.pru := rfl
@[simp] theorem Chip.answerHost_fd (c : Chip) (okay : Bool) (d : List Word) : (c.answerHost okay d).fd = c.fd := rfl
@[simp] theorem Chip.answerHost_hlc (c : Chip) (okay : Bool) (d : List Word) : (c.answerHost okay d).hlc = c.hlc := rfl
@[simp] theorem Chip.answerHost_pins (c : Chip) (okay : Bool) (d : List Word) : (c.answerHost okay d).pins = c.pins := rfl
@[simp] theorem Chip.answerHost_free (c : Chip) (okay : Bool) (d : List Word) : (c.answerHost okay d).free = c.free := rfl
@[simp] theorem Chip.answerHost_eq (c : Chip) (okay : Bool) (d : List Word) : (c.answerHost okay d).ap = { c.ap with host := none, answer := some ⟨okay, d⟩ } := rfl

@[simp] theorem Chip.setMode_ap (c : Chip) (n : Fin 4) (m : BridgeMode) : (c.setMode n m).ap = c.ap := rfl
@[simp] theorem Chip.setMode_own (c : Chip) (n : Fin 4) (m : BridgeMode) : (c.setMode n m).own = c.own := rfl
@[simp] theorem Chip.setMode_su (c : Chip) (n : Fin 4) (m : BridgeMode) : (c.setMode n m).su = c.su := rfl
@[simp] theorem Chip.setMode_ju (c : Chip) (n : Fin 4) (m : BridgeMode) : (c.setMode n m).ju = c.ju := rfl
@[simp] theorem Chip.setMode_cu (c : Chip) (n : Fin 4) (m : BridgeMode) : (c.setMode n m).cu = c.cu := rfl
@[simp] theorem Chip.setMode_scu (c : Chip) (n : Fin 4) (m : BridgeMode) : (c.setMode n m).scu = c.scu := rfl
@[simp] theorem Chip.setMode_slc (c : Chip) (n : Fin 4) (m : BridgeMode) : (c.setMode n m).slc = c.slc := rfl
@[simp] theorem Chip.setMode_pru (c : Chip) (n : Fin 4) (m : BridgeMode) : (c.setMode n m).pru = c.pru := rfl
@[simp] theorem Chip.setMode_hlc (c : Chip) (n : Fin 4) (m : BridgeMode) : (c.setMode n m).hlc = c.hlc := rfl
@[simp] theorem Chip.setMode_pins (c : Chip) (n : Fin 4) (m : BridgeMode) : (c.setMode n m).pins = c.pins := rfl
@[simp] theorem Chip.setMode_free (c : Chip) (n : Fin 4) (m : BridgeMode) : (c.setMode n m).free = c.free := rfl

/-! ### Reading back -/

/-- The entry changed reads as changed. -/
@[simp] theorem Chip.screen_onScreen_same (c : Chip) (p : Fin 12) (f : Screen → Screen) : (c.onScreen p f).screen p = f (c.screen p) := by
  simp [Chip.screen, Chip.onScreen]
/-- Another entry reads as before. -/
theorem Chip.screen_onScreen_ne (c : Chip) (p q : Fin 12) (f : Screen → Screen) (h : q ≠ p) :
    (c.onScreen p f).screen q = c.screen q := by
  simp only [Chip.screen, Chip.onScreen]
  exact vupd_get_ne _ _ _ _ h
@[simp] theorem Chip.screen_onAp (c : Chip) (f : ApState → ApState) (i : Fin 12) : (c.onAp f).screen i = c.screen i := rfl
@[simp] theorem Chip.screen_push (c : Chip) (u : Fin 9) (op : OwnOp) (tag : Tag) (fin : Bool) (i : Fin 12) : (c.push u op tag fin).screen i = c.screen i := rfl
@[simp] theorem Chip.screen_pushAll (c : Chip) (u : Fin 9) (rs : List OwnReq) (i : Fin 12) : (c.pushAll u rs).screen i = c.screen i := rfl
@[simp] theorem Chip.screen_onSu (c : Chip) (f : SuState → SuState) (i : Fin 12) : (c.onSu f).screen i = c.screen i := rfl
@[simp] theorem Chip.screen_onJu (c : Chip) (f : JuState → JuState) (i : Fin 12) : (c.onJu f).screen i = c.screen i := rfl
@[simp] theorem Chip.screen_onPosting (c : Chip) (f : Posting → Posting) (i : Fin 12) : (c.onPosting f).screen i = c.screen i := rfl
@[simp] theorem Chip.screen_onCu (c : Chip) (f : CuState → CuState) (i : Fin 12) : (c.onCu f).screen i = c.screen i := rfl
@[simp] theorem Chip.screen_onFan (c : Chip) (f : FanOut → FanOut) (i : Fin 12) : (c.onFan f).screen i = c.screen i := rfl
@[simp] theorem Chip.screen_scuBegin (c : Chip) (e : ScuWork) (r : List ScuWork) (i : Fin 12) : (c.scuBegin e r).screen i = c.screen i := rfl
@[simp] theorem Chip.screen_onDrop (c : Chip) (p : Fin 12) (f : Drop → Drop) (i : Fin 12) : (c.onDrop p f).screen i = c.screen i := rfl
@[simp] theorem Chip.screen_onLine (c : Chip) (l : Fin 3) (f : Line → Line) (i : Fin 12) : (c.onLine l f).screen i = c.screen i := rfl
@[simp] theorem Chip.screen_onFeed (c : Chip) (n : Fin 4) (f : Feed → Feed) (i : Fin 12) : (c.onFeed n f).screen i = c.screen i := rfl
@[simp] theorem Chip.screen_onPrinter (c : Chip) (n : Fin 4) (f : Printer → Printer) (i : Fin 12) : (c.onPrinter n f).screen i = c.screen i := rfl
@[simp] theorem Chip.screen_setSlot (c : Chip) (n : Fin 4) (j : Fin 8) (x : SlotStatus) (i : Fin 12) : (c.setSlot n j x).screen i = c.screen i := rfl
@[simp] theorem Chip.screen_onSubmission (c : Chip) (f : Submission → Submission) (i : Fin 12) : (c.onSubmission f).screen i = c.screen i := rfl
@[simp] theorem Chip.screen_onHlc (c : Chip) (f : HlcState → HlcState) (i : Fin 12) : (c.onHlc f).screen i = c.screen i := rfl
@[simp] theorem Chip.screen_onSend (c : Chip) (f : Send → Send) (i : Fin 12) : (c.onSend f).screen i = c.screen i := rfl
@[simp] theorem Chip.screen_transmit (c : Chip) (x : HoTx) (b : List Byte) (i : Fin 12) : (c.transmit x b).screen i = c.screen i := rfl
@[simp] theorem Chip.screen_setHost (c : Chip) (p : HostProg) (i : Fin 12) : (c.setHost p).screen i = c.screen i := rfl
@[simp] theorem Chip.screen_answerHost (c : Chip) (okay : Bool) (d : List Word) (i : Fin 12) : (c.answerHost okay d).screen i = c.screen i := rfl
@[simp] theorem Chip.screen_setMode (c : Chip) (n : Fin 4) (m : BridgeMode) (i : Fin 12) : (c.setMode n m).screen i = c.screen i := rfl

/-- The entry changed reads as changed. -/
@[simp] theorem Chip.drop_onDrop_same (c : Chip) (p : Fin 12) (f : Drop → Drop) : (c.onDrop p f).drop p = f (c.drop p) := by
  simp [Chip.drop, Chip.onDrop]
/-- Another entry reads as before. -/
theorem Chip.drop_onDrop_ne (c : Chip) (p q : Fin 12) (f : Drop → Drop) (h : q ≠ p) :
    (c.onDrop p f).drop q = c.drop q := by
  simp only [Chip.drop, Chip.onDrop]
  exact vupd_get_ne _ _ _ _ h
@[simp] theorem Chip.drop_onAp (c : Chip) (f : ApState → ApState) (i : Fin 12) : (c.onAp f).drop i = c.drop i := rfl
@[simp] theorem Chip.drop_push (c : Chip) (u : Fin 9) (op : OwnOp) (tag : Tag) (fin : Bool) (i : Fin 12) : (c.push u op tag fin).drop i = c.drop i := rfl
@[simp] theorem Chip.drop_pushAll (c : Chip) (u : Fin 9) (rs : List OwnReq) (i : Fin 12) : (c.pushAll u rs).drop i = c.drop i := rfl
@[simp] theorem Chip.drop_onSu (c : Chip) (f : SuState → SuState) (i : Fin 12) : (c.onSu f).drop i = c.drop i := rfl
@[simp] theorem Chip.drop_onJu (c : Chip) (f : JuState → JuState) (i : Fin 12) : (c.onJu f).drop i = c.drop i := rfl
@[simp] theorem Chip.drop_onPosting (c : Chip) (f : Posting → Posting) (i : Fin 12) : (c.onPosting f).drop i = c.drop i := rfl
@[simp] theorem Chip.drop_onCu (c : Chip) (f : CuState → CuState) (i : Fin 12) : (c.onCu f).drop i = c.drop i := rfl
@[simp] theorem Chip.drop_onScreen (c : Chip) (p : Fin 12) (f : Screen → Screen) (i : Fin 12) : (c.onScreen p f).drop i = c.drop i := rfl
@[simp] theorem Chip.drop_onFan (c : Chip) (f : FanOut → FanOut) (i : Fin 12) : (c.onFan f).drop i = c.drop i := rfl
@[simp] theorem Chip.drop_scuBegin (c : Chip) (e : ScuWork) (r : List ScuWork) (i : Fin 12) : (c.scuBegin e r).drop i = c.drop i := rfl
@[simp] theorem Chip.drop_onLine (c : Chip) (l : Fin 3) (f : Line → Line) (i : Fin 12) : (c.onLine l f).drop i = c.drop i := rfl
@[simp] theorem Chip.drop_onFeed (c : Chip) (n : Fin 4) (f : Feed → Feed) (i : Fin 12) : (c.onFeed n f).drop i = c.drop i := rfl
@[simp] theorem Chip.drop_onPrinter (c : Chip) (n : Fin 4) (f : Printer → Printer) (i : Fin 12) : (c.onPrinter n f).drop i = c.drop i := rfl
@[simp] theorem Chip.drop_setSlot (c : Chip) (n : Fin 4) (j : Fin 8) (x : SlotStatus) (i : Fin 12) : (c.setSlot n j x).drop i = c.drop i := rfl
@[simp] theorem Chip.drop_onSubmission (c : Chip) (f : Submission → Submission) (i : Fin 12) : (c.onSubmission f).drop i = c.drop i := rfl
@[simp] theorem Chip.drop_onHlc (c : Chip) (f : HlcState → HlcState) (i : Fin 12) : (c.onHlc f).drop i = c.drop i := rfl
@[simp] theorem Chip.drop_onSend (c : Chip) (f : Send → Send) (i : Fin 12) : (c.onSend f).drop i = c.drop i := rfl
@[simp] theorem Chip.drop_transmit (c : Chip) (x : HoTx) (b : List Byte) (i : Fin 12) : (c.transmit x b).drop i = c.drop i := rfl
@[simp] theorem Chip.drop_setHost (c : Chip) (p : HostProg) (i : Fin 12) : (c.setHost p).drop i = c.drop i := rfl
@[simp] theorem Chip.drop_answerHost (c : Chip) (okay : Bool) (d : List Word) (i : Fin 12) : (c.answerHost okay d).drop i = c.drop i := rfl
@[simp] theorem Chip.drop_setMode (c : Chip) (n : Fin 4) (m : BridgeMode) (i : Fin 12) : (c.setMode n m).drop i = c.drop i := rfl

/-- The entry changed reads as changed. -/
@[simp] theorem Chip.line_onLine_same (c : Chip) (p : Fin 3) (f : Line → Line) : (c.onLine p f).line p = f (c.line p) := by
  simp [Chip.line, Chip.onLine]
/-- Another entry reads as before. -/
theorem Chip.line_onLine_ne (c : Chip) (p q : Fin 3) (f : Line → Line) (h : q ≠ p) :
    (c.onLine p f).line q = c.line q := by
  simp only [Chip.line, Chip.onLine]
  exact vupd_get_ne _ _ _ _ h
@[simp] theorem Chip.line_onAp (c : Chip) (f : ApState → ApState) (i : Fin 3) : (c.onAp f).line i = c.line i := rfl
@[simp] theorem Chip.line_push (c : Chip) (u : Fin 9) (op : OwnOp) (tag : Tag) (fin : Bool) (i : Fin 3) : (c.push u op tag fin).line i = c.line i := rfl
@[simp] theorem Chip.line_pushAll (c : Chip) (u : Fin 9) (rs : List OwnReq) (i : Fin 3) : (c.pushAll u rs).line i = c.line i := rfl
@[simp] theorem Chip.line_onSu (c : Chip) (f : SuState → SuState) (i : Fin 3) : (c.onSu f).line i = c.line i := rfl
@[simp] theorem Chip.line_onJu (c : Chip) (f : JuState → JuState) (i : Fin 3) : (c.onJu f).line i = c.line i := rfl
@[simp] theorem Chip.line_onPosting (c : Chip) (f : Posting → Posting) (i : Fin 3) : (c.onPosting f).line i = c.line i := rfl
@[simp] theorem Chip.line_onCu (c : Chip) (f : CuState → CuState) (i : Fin 3) : (c.onCu f).line i = c.line i := rfl
@[simp] theorem Chip.line_onScreen (c : Chip) (p : Fin 12) (f : Screen → Screen) (i : Fin 3) : (c.onScreen p f).line i = c.line i := rfl
@[simp] theorem Chip.line_onFan (c : Chip) (f : FanOut → FanOut) (i : Fin 3) : (c.onFan f).line i = c.line i := rfl
@[simp] theorem Chip.line_scuBegin (c : Chip) (e : ScuWork) (r : List ScuWork) (i : Fin 3) : (c.scuBegin e r).line i = c.line i := rfl
@[simp] theorem Chip.line_onDrop (c : Chip) (p : Fin 12) (f : Drop → Drop) (i : Fin 3) : (c.onDrop p f).line i = c.line i := rfl
@[simp] theorem Chip.line_onFeed (c : Chip) (n : Fin 4) (f : Feed → Feed) (i : Fin 3) : (c.onFeed n f).line i = c.line i := rfl
@[simp] theorem Chip.line_onPrinter (c : Chip) (n : Fin 4) (f : Printer → Printer) (i : Fin 3) : (c.onPrinter n f).line i = c.line i := rfl
@[simp] theorem Chip.line_setSlot (c : Chip) (n : Fin 4) (j : Fin 8) (x : SlotStatus) (i : Fin 3) : (c.setSlot n j x).line i = c.line i := rfl
@[simp] theorem Chip.line_onSubmission (c : Chip) (f : Submission → Submission) (i : Fin 3) : (c.onSubmission f).line i = c.line i := rfl
@[simp] theorem Chip.line_onHlc (c : Chip) (f : HlcState → HlcState) (i : Fin 3) : (c.onHlc f).line i = c.line i := rfl
@[simp] theorem Chip.line_onSend (c : Chip) (f : Send → Send) (i : Fin 3) : (c.onSend f).line i = c.line i := rfl
@[simp] theorem Chip.line_transmit (c : Chip) (x : HoTx) (b : List Byte) (i : Fin 3) : (c.transmit x b).line i = c.line i := rfl
@[simp] theorem Chip.line_setHost (c : Chip) (p : HostProg) (i : Fin 3) : (c.setHost p).line i = c.line i := rfl
@[simp] theorem Chip.line_answerHost (c : Chip) (okay : Bool) (d : List Word) (i : Fin 3) : (c.answerHost okay d).line i = c.line i := rfl
@[simp] theorem Chip.line_setMode (c : Chip) (n : Fin 4) (m : BridgeMode) (i : Fin 3) : (c.setMode n m).line i = c.line i := rfl

/-- The entry changed reads as changed. -/
@[simp] theorem Chip.feed_onFeed_same (c : Chip) (p : Fin 4) (f : Feed → Feed) : (c.onFeed p f).feed p = f (c.feed p) := by
  simp [Chip.feed, Chip.onFeed]
/-- Another entry reads as before. -/
theorem Chip.feed_onFeed_ne (c : Chip) (p q : Fin 4) (f : Feed → Feed) (h : q ≠ p) :
    (c.onFeed p f).feed q = c.feed q := by
  simp only [Chip.feed, Chip.onFeed]
  exact vupd_get_ne _ _ _ _ h
@[simp] theorem Chip.feed_onAp (c : Chip) (f : ApState → ApState) (i : Fin 4) : (c.onAp f).feed i = c.feed i := rfl
@[simp] theorem Chip.feed_push (c : Chip) (u : Fin 9) (op : OwnOp) (tag : Tag) (fin : Bool) (i : Fin 4) : (c.push u op tag fin).feed i = c.feed i := rfl
@[simp] theorem Chip.feed_pushAll (c : Chip) (u : Fin 9) (rs : List OwnReq) (i : Fin 4) : (c.pushAll u rs).feed i = c.feed i := rfl
@[simp] theorem Chip.feed_onSu (c : Chip) (f : SuState → SuState) (i : Fin 4) : (c.onSu f).feed i = c.feed i := rfl
@[simp] theorem Chip.feed_onJu (c : Chip) (f : JuState → JuState) (i : Fin 4) : (c.onJu f).feed i = c.feed i := rfl
@[simp] theorem Chip.feed_onPosting (c : Chip) (f : Posting → Posting) (i : Fin 4) : (c.onPosting f).feed i = c.feed i := rfl
@[simp] theorem Chip.feed_onCu (c : Chip) (f : CuState → CuState) (i : Fin 4) : (c.onCu f).feed i = c.feed i := rfl
@[simp] theorem Chip.feed_onScreen (c : Chip) (p : Fin 12) (f : Screen → Screen) (i : Fin 4) : (c.onScreen p f).feed i = c.feed i := rfl
@[simp] theorem Chip.feed_onFan (c : Chip) (f : FanOut → FanOut) (i : Fin 4) : (c.onFan f).feed i = c.feed i := rfl
@[simp] theorem Chip.feed_scuBegin (c : Chip) (e : ScuWork) (r : List ScuWork) (i : Fin 4) : (c.scuBegin e r).feed i = c.feed i := rfl
@[simp] theorem Chip.feed_onDrop (c : Chip) (p : Fin 12) (f : Drop → Drop) (i : Fin 4) : (c.onDrop p f).feed i = c.feed i := rfl
@[simp] theorem Chip.feed_onLine (c : Chip) (l : Fin 3) (f : Line → Line) (i : Fin 4) : (c.onLine l f).feed i = c.feed i := rfl
@[simp] theorem Chip.feed_onPrinter (c : Chip) (n : Fin 4) (f : Printer → Printer) (i : Fin 4) : (c.onPrinter n f).feed i = c.feed i := rfl
@[simp] theorem Chip.feed_setSlot (c : Chip) (n : Fin 4) (j : Fin 8) (x : SlotStatus) (i : Fin 4) : (c.setSlot n j x).feed i = c.feed i := rfl
@[simp] theorem Chip.feed_onSubmission (c : Chip) (f : Submission → Submission) (i : Fin 4) : (c.onSubmission f).feed i = c.feed i := rfl
@[simp] theorem Chip.feed_onHlc (c : Chip) (f : HlcState → HlcState) (i : Fin 4) : (c.onHlc f).feed i = c.feed i := rfl
@[simp] theorem Chip.feed_onSend (c : Chip) (f : Send → Send) (i : Fin 4) : (c.onSend f).feed i = c.feed i := rfl
@[simp] theorem Chip.feed_transmit (c : Chip) (x : HoTx) (b : List Byte) (i : Fin 4) : (c.transmit x b).feed i = c.feed i := rfl
@[simp] theorem Chip.feed_setHost (c : Chip) (p : HostProg) (i : Fin 4) : (c.setHost p).feed i = c.feed i := rfl
@[simp] theorem Chip.feed_answerHost (c : Chip) (okay : Bool) (d : List Word) (i : Fin 4) : (c.answerHost okay d).feed i = c.feed i := rfl

/-- The entry changed reads as changed. -/
@[simp] theorem Chip.printer_onPrinter_same (c : Chip) (p : Fin 4) (f : Printer → Printer) : (c.onPrinter p f).printer p = f (c.printer p) := by
  simp [Chip.printer, Chip.onPrinter]
/-- Another entry reads as before. -/
theorem Chip.printer_onPrinter_ne (c : Chip) (p q : Fin 4) (f : Printer → Printer) (h : q ≠ p) :
    (c.onPrinter p f).printer q = c.printer q := by
  simp only [Chip.printer, Chip.onPrinter]
  exact vupd_get_ne _ _ _ _ h
@[simp] theorem Chip.printer_onAp (c : Chip) (f : ApState → ApState) (i : Fin 4) : (c.onAp f).printer i = c.printer i := rfl
@[simp] theorem Chip.printer_push (c : Chip) (u : Fin 9) (op : OwnOp) (tag : Tag) (fin : Bool) (i : Fin 4) : (c.push u op tag fin).printer i = c.printer i := rfl
@[simp] theorem Chip.printer_pushAll (c : Chip) (u : Fin 9) (rs : List OwnReq) (i : Fin 4) : (c.pushAll u rs).printer i = c.printer i := rfl
@[simp] theorem Chip.printer_onSu (c : Chip) (f : SuState → SuState) (i : Fin 4) : (c.onSu f).printer i = c.printer i := rfl
@[simp] theorem Chip.printer_onJu (c : Chip) (f : JuState → JuState) (i : Fin 4) : (c.onJu f).printer i = c.printer i := rfl
@[simp] theorem Chip.printer_onPosting (c : Chip) (f : Posting → Posting) (i : Fin 4) : (c.onPosting f).printer i = c.printer i := rfl
@[simp] theorem Chip.printer_onCu (c : Chip) (f : CuState → CuState) (i : Fin 4) : (c.onCu f).printer i = c.printer i := rfl
@[simp] theorem Chip.printer_onScreen (c : Chip) (p : Fin 12) (f : Screen → Screen) (i : Fin 4) : (c.onScreen p f).printer i = c.printer i := rfl
@[simp] theorem Chip.printer_onFan (c : Chip) (f : FanOut → FanOut) (i : Fin 4) : (c.onFan f).printer i = c.printer i := rfl
@[simp] theorem Chip.printer_scuBegin (c : Chip) (e : ScuWork) (r : List ScuWork) (i : Fin 4) : (c.scuBegin e r).printer i = c.printer i := rfl
@[simp] theorem Chip.printer_onDrop (c : Chip) (p : Fin 12) (f : Drop → Drop) (i : Fin 4) : (c.onDrop p f).printer i = c.printer i := rfl
@[simp] theorem Chip.printer_onLine (c : Chip) (l : Fin 3) (f : Line → Line) (i : Fin 4) : (c.onLine l f).printer i = c.printer i := rfl
@[simp] theorem Chip.printer_onFeed (c : Chip) (n : Fin 4) (f : Feed → Feed) (i : Fin 4) : (c.onFeed n f).printer i = c.printer i := rfl
@[simp] theorem Chip.printer_onSubmission (c : Chip) (f : Submission → Submission) (i : Fin 4) : (c.onSubmission f).printer i = c.printer i := rfl
@[simp] theorem Chip.printer_onHlc (c : Chip) (f : HlcState → HlcState) (i : Fin 4) : (c.onHlc f).printer i = c.printer i := rfl
@[simp] theorem Chip.printer_onSend (c : Chip) (f : Send → Send) (i : Fin 4) : (c.onSend f).printer i = c.printer i := rfl
@[simp] theorem Chip.printer_transmit (c : Chip) (x : HoTx) (b : List Byte) (i : Fin 4) : (c.transmit x b).printer i = c.printer i := rfl
@[simp] theorem Chip.printer_setHost (c : Chip) (p : HostProg) (i : Fin 4) : (c.setHost p).printer i = c.printer i := rfl
@[simp] theorem Chip.printer_answerHost (c : Chip) (okay : Bool) (d : List Word) (i : Fin 4) : (c.answerHost okay d).printer i = c.printer i := rfl
@[simp] theorem Chip.printer_setMode (c : Chip) (n : Fin 4) (m : BridgeMode) (i : Fin 4) : (c.setMode n m).printer i = c.printer i := rfl

/-! ### A command of the part, the store not prompt -/

/-- A store that is not prompt settles nothing. -/
theorem State.settle_of_not_prompt (s : State) (h : s.prompt = false) : s.settle = s := by
  simp [State.settle, h]

/-- With a store that is not prompt, a command changes the part alone. -/
theorem State.act_of_not_prompt (s : State) (f : Chip → Chip) (h : s.prompt = false) :
    s.act f = { s with chip := f s.chip } := by
  simp [State.act, State.settle_of_not_prompt, State.onChip, h]

/-- A state that nothing waits in settles nothing. -/
theorem State.settle_of_quiet (s : State) (h : s.quiet = true) : s.settle = s := by
  unfold State.settle
  split
  · show (State.drain (drainFuel - 1 + 1) s) = s
    simp [State.drain, h]
  · rfl

end Sys2Proof.Machine
end

