-- ==== Sys2Proof/Laws/Exec.lean ====
section
/-! SUPPORT. What a command can do: every command but the three that reset the part or work the store port changes the part
alone; what a grant, a host answer and the settling leave as they were. -/

namespace Sys2Proof.Machine

set_option Elab.async false

/-- The commands that act on more than the part: device reset and the two of the store port. -/
def portCommand : Instr → Bool
  | .deviceReset _ => true
  | .arbiterGrant => true
  | .storeAnswer _ => true
  | _ => false

/-- Every other command acts on the part by one function of the store as it stands and of the part. -/
theorem exec_is_host (i : Instr) (h : portCommand i = false) :
    ∃ f : List Host.Cell → Chip → Chip, ∀ s, exec i s = .next (s.host f) := by
  cases i
  case deviceReset x => cases h
  case arbiterGrant => cases h
  case storeAnswer b => cases h
  all_goals exact ⟨fun _ => _, fun _ => rfl⟩

/-- No command faults or is refused. -/
theorem exec_answers (i : Instr) (s : State) : ∃ t, exec i s = .next t := by
  by_cases h : portCommand i = false
  · obtain ⟨f, hf⟩ := exec_is_host i h
    exact ⟨_, hf s⟩
  · cases i
    case deviceReset x => exact ⟨_, rfl⟩
    case arbiterGrant => exact ⟨_, rfl⟩
    case storeAnswer b => exact ⟨_, rfl⟩
    all_goals exact absurd rfl h

/-- What a grant can do (R15, R16): nothing, a grant of the host, or a grant of an own requester. -/
theorem State.grant_cases (s : State) :
    s.grant = s ∨
    (s.arb.port = .idle ∧ ∃ p op w, s.chip.hostWaiting = some (p, op) ∧ (w = true → s.arb.streak < 4) ∧
      s.grant = s.grantHost p op w) ∨
    (s.arb.port = .idle ∧ ∃ u r, firstWaiting s.chip.waiting (requestersAfter s.arb.rotation) = some (u, r) ∧
      s.grant = s.grantOwn u r) := by
  unfold State.grant
  split
  · exact .inl rfl
  · rename_i hp
    have hp : s.arb.port = .idle := by simpa using hp
    split
    · rename_i p op hh ho
      exact .inr (.inl ⟨hp, p, op, false, hh, by simp, rfl⟩)
    · rename_i u r hh ho
      exact .inr (.inr ⟨hp, u, r, ho, rfl⟩)
    · rename_i p op u r hh ho
      split
      · rename_i hs
        exact .inr (.inl ⟨hp, p, op, true, hh, fun _ => hs, rfl⟩)
      · exact .inr (.inr ⟨hp, u, r, ho, rfl⟩)
    · exact .inl rfl

/-- After a host answer only the port changes. -/
theorem State.afterHost_eq (s : State) : ∃ q : PortUse, s.afterHost = { s with arb := { s.arb with port := q } } := by
  unfold State.afterHost
  split
  · split <;> exact ⟨_, rfl⟩
  · exact ⟨_, rfl⟩

/-- A grant leaves promptness and the queue. -/
@[simp] theorem State.grant_prompt (s : State) : s.grant.prompt = s.prompt := by
  obtain h | ⟨-, p, op, w, -, -, h⟩ | ⟨-, u, r, -, h⟩ := s.grant_cases
  · rw [h]
  · rw [h]; rfl
  · rw [h]; rfl

/-- An answer leaves promptness. -/
@[simp] theorem State.answer_prompt (s : State) (okay : Bool) : (s.answer okay).prompt = s.prompt := by
  unfold State.answer
  split
  · rfl
  · rename_i op _
    obtain ⟨q, hq⟩ := State.afterHost_eq
      { s with mem := op.answered s.mem okay, chip := s.chip.hostAnswered (op.answered s.mem okay) okay (op.data s.mem) }
    rw [hq]
  · rfl

/-- Draining leaves promptness. -/
@[simp] theorem State.drain_prompt (fuel : Nat) (s : State) : (s.drain fuel).prompt = s.prompt := by
  induction fuel generalizing s with
  | zero => rfl
  | succ n ih =>
    unfold State.drain
    split
    · rfl
    · rw [ih, State.answer_prompt, State.grant_prompt]

/-- Settling leaves promptness. -/
@[simp] theorem State.settle_prompt (s : State) : s.settle.prompt = s.prompt := by
  unfold State.settle
  split
  · exact State.drain_prompt _ _
  · rfl

end Sys2Proof.Machine
end

