-- ==== Sys2Proof/Laws/Memory.lean ====
section
/-! SUPPORT. The laws of the store: every operation keeps the canonical form, a read after a write gives the value
written, and a write leaves every other byte alone. -/

namespace Sys2Proof.Machine

set_option Elab.async false

/-- The canonical form, as a statement about all cells. -/
theorem memWf_iff (m : List Host.Cell) :
    memWf m = true ↔
      m.Pairwise (fun x y => x.1 < y.1) ∧ ∀ c ∈ m, c.2 ≠ Config.unwrittenByte ∧ c.1 < Config.wordModulus := by
  induction m with
  | nil => simp [memWf]
  | cons c m ih =>
    obtain ⟨a, b⟩ := c
    cases m with
    | nil => simp [memWf]
    | cons c' m =>
      obtain ⟨a', b'⟩ := c'
      simp only [memWf, Bool.and_eq_true, bne_iff_ne, ne_eq, decide_eq_true_eq, ih, List.pairwise_cons,
        List.mem_cons, forall_eq_or_imp]
      constructor
      · rintro ⟨⟨hb, hlt⟩, ⟨hp, hrest⟩, ⟨hb', ha'⟩, hall⟩
        exact ⟨⟨⟨hlt, fun c hc => lt_trans hlt (hp c hc)⟩, hp, hrest⟩, ⟨hb, lt_trans hlt ha'⟩, ⟨hb', ha'⟩, hall⟩
      · rintro ⟨⟨⟨hlt, -⟩, hp, hrest⟩, ⟨hb, -⟩, hb', hall⟩
        exact ⟨⟨hb, hlt⟩, ⟨hp, hrest⟩, hb', hall⟩

/-- A byte below every listed address reads as unwritten. -/
theorem readByte_of_forall_lt (m : List Host.Cell) (k : Nat) (h : ∀ c ∈ m, k < c.1) :
    readByte m k = Config.unwrittenByte := by
  induction m with
  | nil => rfl
  | cons c m ih =>
    obtain ⟨a, b⟩ := c
    have ha : k < a := h (a, b) (by simp)
    have hne : (a == k) = false := by simp; omega
    simp only [readByte, hne]
    exact ih (fun c hc => h c (by simp [hc]))

/-- A write leaves every other byte alone. -/
theorem readByte_writeByte_ne (m : List Host.Cell) (k j : Nat) (v : Byte) (h : j ≠ k) :
    readByte (writeByte m k v) j = readByte m j := by
  have hk : (k == j) = false := by simp; omega
  induction m with
  | nil =>
    simp only [writeByte]
    split <;> simp [readByte, hk]
  | cons c m ih =>
    obtain ⟨a, b⟩ := c
    simp only [writeByte]
    split
    · split <;> simp [readByte, hk]
    · split
      · rename_i hka
        have hka' : k = a := by simpa using hka
        subst hka'
        split <;> simp [readByte, hk]
      · simp only [readByte]
        split
        · rfl
        · exact ih

/-- A read after a write gives the value written. -/
theorem readByte_writeByte_same (m : List Host.Cell) (k : Nat) (v : Byte) (h : memWf m = true) :
    readByte (writeByte m k v) k = v := by
  rw [memWf_iff] at h
  obtain ⟨hp, -⟩ := h
  induction m with
  | nil =>
    simp only [writeByte]
    split
    · rename_i hv
      simpa [readByte] using (by simpa using hv : v = Config.unwrittenByte).symm
    · simp [readByte]
  | cons c m ih =>
    obtain ⟨a, b⟩ := c
    rw [List.pairwise_cons] at hp
    simp only [writeByte]
    split
    · rename_i hlt
      split
      · rename_i hv
        rw [(by simpa using hv : v = Config.unwrittenByte)]
        refine readByte_of_forall_lt _ _ ?_
        intro c hc
        rcases List.mem_cons.mp hc with rfl | hc
        · exact hlt
        · exact lt_trans hlt (hp.1 c hc)
      · simp [readByte]
    · split
      · rename_i hka
        have hka' : k = a := by simpa using hka
        subst hka'
        split
        · rename_i hv
          rw [(by simpa using hv : v = Config.unwrittenByte)]
          exact readByte_of_forall_lt _ _ (fun c hc => hp.1 c hc)
        · simp [readByte]
      · rename_i hka
        have : (a == k) = false := by
          have : ¬ k = a := by simpa using hka
          simp; omega
        simp only [readByte, this]
        exact ih hp.2

/-- The cells after a write are those before it, or the cell written. -/
theorem mem_writeByte (m : List Host.Cell) (k : Nat) (v : Byte) (c : Host.Cell) (hc : c ∈ writeByte m k v) :
    c ∈ m ∨ (c = (k, v) ∧ v ≠ Config.unwrittenByte) := by
  induction m with
  | nil =>
    simp only [writeByte] at hc
    split at hc
    · cases hc
    · rename_i hv
      exact .inr ⟨by simpa using hc, by simpa using hv⟩
  | cons d m ih =>
    obtain ⟨a, b⟩ := d
    simp only [writeByte] at hc
    split at hc
    · split at hc
      · exact .inl hc
      · rename_i hv
        rcases List.mem_cons.mp hc with rfl | hc
        · exact .inr ⟨rfl, by simpa using hv⟩
        · exact .inl hc
    · split at hc
      · split at hc
        · exact .inl (by simp [hc])
        · rename_i hv
          rcases List.mem_cons.mp hc with rfl | hc
          · exact .inr ⟨rfl, by simpa using hv⟩
          · exact .inl (by simp [hc])
      · rcases List.mem_cons.mp hc with rfl | hc
        · exact .inl (by simp)
        · rcases ih hc with h | h
          · exact .inl (by simp [h])
          · exact .inr h

/-- A write of a byte keeps the canonical form. -/
theorem memWf_writeByte (m : List Host.Cell) (k : Nat) (v : Byte) (hk : k < Config.wordModulus)
    (h : memWf m = true) : memWf (writeByte m k v) = true := by
  rw [memWf_iff] at h ⊢
  obtain ⟨hp, hall⟩ := h
  refine ⟨?_, ?_⟩
  · clear hall
    induction m with
    | nil =>
      simp only [writeByte]
      split <;> simp
    | cons d m ih =>
      obtain ⟨a, b⟩ := d
      rw [List.pairwise_cons] at hp
      simp only [writeByte]
      split
      · rename_i hlt
        split
        · exact List.pairwise_cons.mpr hp
        · refine List.pairwise_cons.mpr ⟨?_, List.pairwise_cons.mpr hp⟩
          intro c hc
          rcases List.mem_cons.mp hc with rfl | hc
          · exact hlt
          · exact lt_trans hlt (hp.1 c hc)
      · split
        · rename_i hka
          have hka' : k = a := by simpa using hka
          subst hka'
          split
          · exact hp.2
          · exact List.pairwise_cons.mpr ⟨hp.1, hp.2⟩
        · rename_i hnlt hka
          have hka' : ¬ k = a := by simpa using hka
          refine List.pairwise_cons.mpr ⟨?_, ih hp.2⟩
          intro c hc
          rcases mem_writeByte m k v c hc with h | ⟨rfl, -⟩
          · exact hp.1 c h
          · simp only; omega
  · intro c hc
    rcases mem_writeByte m k v c hc with h | ⟨rfl, hv⟩
    · exact hall c h
    · exact ⟨hv, hk⟩

/-- Addresses are brought into the 32-bit space. -/
theorem wrapAddr_lt (a : Nat) : wrapAddr a < Config.wordModulus := Nat.mod_lt _ (by decide)

/-- A write of an enabled byte keeps the canonical form. -/
theorem memWf_writeEnabled (m : List Host.Cell) (a : Nat) (w : WriteWord) (i : Nat) (h : memWf m = true) :
    memWf (writeEnabled m a w i) = true := by
  unfold writeEnabled
  split
  · exact memWf_writeByte _ _ _ (wrapAddr_lt _) h
  · exact h

/-- A write of a word keeps the canonical form. -/
theorem memWf_writeWord (m : List Host.Cell) (a : Nat) (w : WriteWord) (h : memWf m = true) :
    memWf (writeWord m a w) = true :=
  memWf_writeEnabled _ _ _ _ (memWf_writeEnabled _ _ _ _ (memWf_writeEnabled _ _ _ _ (memWf_writeEnabled _ _ _ _ h)))

/-- A burst keeps the canonical form. -/
theorem memWf_writeWords (m : List Host.Cell) (a : Nat) (ws : List WriteWord) (h : memWf m = true) :
    memWf (writeWords m a ws) = true := by
  induction ws generalizing m a with
  | nil => exact h
  | cons w ws ih => exact ih _ _ (memWf_writeWord _ _ _ h)

/-- A byte that a word does not reach is left alone. -/
theorem readByte_writeWord_ne (m : List Host.Cell) (a j : Nat) (w : WriteWord)
    (h : ∀ i < 4, w.enables.getLsbD i = true → j ≠ wrapAddr (a + i)) :
    readByte (writeWord m a w) j = readByte m j := by
  have one : ∀ (m : List Host.Cell) (i : Nat), i < 4 → readByte (writeEnabled m a w i) j = readByte m j := by
    intro m i hi
    unfold writeEnabled
    split
    · rename_i he
      exact readByte_writeByte_ne _ _ _ _ (h i hi he)
    · rfl
  unfold writeWord
  rw [one _ 3 (by omega), one _ 2 (by omega), one _ 1 (by omega), one _ 0 (by omega)]

/-- An enabled byte reads as written. -/
theorem readByte_writeWord_enabled (m : List Host.Cell) (a i : Nat) (w : WriteWord) (hm : memWf m = true) (hi : i < 4)
    (he : w.enables.getLsbD i = true) : readByte (writeWord m a w) (wrapAddr (a + i)) = byteOf w.value i := by
  have keep : ∀ (m : List Host.Cell) (j : Nat), j < 4 → j ≠ i →
      readByte (writeEnabled m a w j) (wrapAddr (a + i)) = readByte m (wrapAddr (a + i)) := by
    intro m j hj hne
    unfold writeEnabled
    split
    · refine readByte_writeByte_ne _ _ _ _ ?_
      unfold wrapAddr Config.wordModulus
      omega
    · rfl
  have put : ∀ (m : List Host.Cell), memWf m = true →
      readByte (writeEnabled m a w i) (wrapAddr (a + i)) = byteOf w.value i := by
    intro m hm
    unfold writeEnabled
    rw [if_pos he]
    exact readByte_writeByte_same _ _ _ hm
  unfold writeWord
  obtain rfl | rfl | rfl | rfl : i = 0 ∨ i = 1 ∨ i = 2 ∨ i = 3 := by omega
  · rw [keep _ 3 (by omega) (by omega), keep _ 2 (by omega) (by omega), keep _ 1 (by omega) (by omega), put _ hm]
  · rw [keep _ 3 (by omega) (by omega), keep _ 2 (by omega) (by omega), put _ (memWf_writeEnabled _ _ _ _ hm)]
  · rw [keep _ 3 (by omega) (by omega),
      put _ (memWf_writeEnabled _ _ _ _ (memWf_writeEnabled _ _ _ _ hm))]
  · rw [put _ (memWf_writeEnabled _ _ _ _ (memWf_writeEnabled _ _ _ _ (memWf_writeEnabled _ _ _ _ hm)))]

/-- A word of its own four bytes is that word. -/
theorem wordOf_bytes (v : Word) : wordOf (byteOf v 0) (byteOf v 1) (byteOf v 2) (byteOf v 3) = v := by
  apply BitVec.eq_of_toNat_eq
  have h := v.isLt
  simp only [wordOf, byteOf, BitVec.toNat_ofNat]
  omega

/-- A word written whole reads as written. -/
theorem readWord_writeWord_whole (m : List Host.Cell) (a : Nat) (v : Word) (hm : memWf m = true) :
    readWord (writeWord m a (whole v)) a = v := by
  have h : ∀ i < 4, readByte (writeWord m a (whole v)) (wrapAddr (a + i)) = byteOf v i := by
    intro i hi
    refine readByte_writeWord_enabled m a i (whole v) hm hi ?_
    obtain rfl | rfl | rfl | rfl : i = 0 ∨ i = 1 ∨ i = 2 ∨ i = 3 := by omega
    all_goals (show allBytes.getLsbD _ = true; decide)
  have h0 := h 0 (by omega)
  simp only [Nat.add_zero] at h0
  unfold readWord
  rw [h0, h 1 (by omega), h 2 (by omega), h 3 (by omega), wordOf_bytes]

end Sys2Proof.Machine
end

