-- ==== Sys2Proof/WellFormed.lean ====
section
/-! DEFINITION. Which commands are well formed: the checks a sender of commands must meet. -/

namespace Sys2Proof

/-- A word address is a multiple of four (00, pins; R4). -/
def wordAligned (addr : Word) : Bool := addr.toNat % 4 == 0

/-- A burst is 1 to 8 words (R15, 00 system overview). R55 speaks of one host burst of twelve words that writes a slot and
commits it; the port's limit of 8 is followed, and such a slot is written by two bursts (DESIGN CHOICE, log 63). -/
def burstLength (n : Nat) : Bool := 1 ≤ n && n ≤ 8

/-- An access the controller port can carry. -/
def HostAccess.wf : HostAccess → Bool
  | .read addr len => wordAligned addr && burstLength len
  | .write addr words => wordAligned addr && burstLength words.length

/-- The offset of a word of the settings area, 0x200 to 0x5FB (Table 2-1). -/
def settingOffset (offset : Nat) : Bool := offset % 4 == 0 && 0x200 ≤ offset && offset ≤ 0x5F8

/-- Bytes that can stand between two flags: some, and no flag among them (R198). -/
def betweenFlags (bytes : List Byte) : Bool := !bytes.isEmpty && bytes.all (· != 0x7E)

/-- A command a sender may give: its operands have the form the rules give them. The other commands carry operands
whose types hold every check already. -/
def Instr.wf : Instr → Bool
  | .hostWrite a => a.wf
  | .settingWrite offset _ _ => settingOffset offset.val
  | .terminalAck _ _ keys => keys.length ≤ 4
  | .damagedAnswer _ bytes => !bytes.isEmpty
  | .invalidFrame bytes => betweenFlags bytes
  | .badRequest code => code.toNat == 0 || 12 < code.toNat
  | _ => true

end Sys2Proof
end

