-- ==== Sys2Proof/Laws/PerInstr.lean ====
section
/-! SUPPORT. The family `Operands`: what well-formedness asks of the operands of each command, one lemma for each
constructor. -/

namespace Sys2Proof.Laws.Operands

set_option Elab.async false

/-- The bounds the rules put on the operands of a command beyond their types: an aligned burst of 1 to 8 words (R4, R15),
a word of the settings area (Table 2-1), the four key codes an ACK may hold (R127), bytes that were received at all
and hold no flag (R118, R198), a code that names no request (R31). -/
def Bounds : Instr → Prop
  | .hostWrite (.read addr len) => addr.toNat % 4 = 0 ∧ 1 ≤ len ∧ len ≤ 8
  | .hostWrite (.write addr words) => addr.toNat % 4 = 0 ∧ 1 ≤ words.length ∧ words.length ≤ 8
  | .settingWrite offset _ _ => offset.val % 4 = 0 ∧ 0x200 ≤ offset.val ∧ offset.val ≤ 0x5F8
  | .terminalAck _ _ keys => keys.length ≤ 4
  | .damagedAnswer _ bytes => bytes ≠ []
  | .invalidFrame bytes => bytes ≠ [] ∧ ∀ b ∈ bytes, b ≠ 0x7E
  | .badRequest code => code.toNat = 0 ∨ 12 < code.toNat
  | _ => True

/-- A command is well formed when its operands meet their bounds. -/
def Statement (i : Instr) : Prop := i.wf = true ↔ Bounds i

/-- A command whose operands' types hold every bound is well formed. -/
theorem unbounded {i : Instr} (h : i.wf = true) (hb : Bounds i) : Statement i := ⟨fun _ => hb, fun _ => h⟩

theorem deviceReset (sel : Fin 16) : Statement (.deviceReset sel) := unbounded rfl trivial
theorem loadingEnd : Statement (.loadingEnd) := unbounded rfl trivial
theorem hostWrite (access : HostAccess) : Statement (.hostWrite access) := by
  cases access <;> simp [Statement, Bounds, Instr.wf, HostAccess.wf, wordAligned, burstLength]
theorem arbiterGrant : Statement (.arbiterGrant) := unbounded rfl trivial
theorem storeAnswer (okay : Bool) : Statement (.storeAnswer okay) := unbounded rfl trivial
theorem settingWrite (offset : Fin 4096) (value : Word) (enables : BitVec 4) : Statement (.settingWrite offset value enables) := by
  simp [Statement, Bounds, Instr.wf, settingOffset, and_assoc]
theorem placementWrite (window : Fin 6) (limit : Bool) (value : Word) (enables : BitVec 4) : Statement (.placementWrite window limit value enables) := unbounded rfl trivial
theorem jnlCapacityWrite (value : Word) (enables : BitVec 4) : Statement (.jnlCapacityWrite value enables) := unbounded rfl trivial
theorem ceilingWrite (p : Fin 12) (upper : Bool) (value : Word) (enables : BitVec 4) : Statement (.ceilingWrite p upper value enables) := unbounded rfl trivial
theorem lineSettingWrite (l : Fin 3) (gap : Bool) (value : Word) (enables : BitVec 4) : Statement (.lineSettingWrite l gap value enables) := unbounded rfl trivial
theorem idleBlankWrite (value : Word) (enables : BitVec 4) : Statement (.idleBlankWrite value enables) := unbounded rfl trivial
theorem capabilitySettingWrite (p : Fin 12) (colour : Bool) (value : Word) (enables : BitVec 4) : Statement (.capabilitySettingWrite p colour value enables) := unbounded rfl trivial
theorem formatSettingWrite (separators : Bool) (value : Word) (enables : BitVec 4) : Statement (.formatSettingWrite separators value enables) := unbounded rfl trivial
theorem prnPresentWrite (n : Fin 4) (value : Word) (enables : BitVec 4) : Statement (.prnPresentWrite n value enables) := unbounded rfl trivial
theorem autoRestartWrite (n : Fin 4) (value : Word) (enables : BitVec 4) : Statement (.autoRestartWrite n value enables) := unbounded rfl trivial
theorem feedSettingWrite (n : Fin 4) (which : FeedSetting) (value : Word) (enables : BitVec 4) : Statement (.feedSettingWrite n which value enables) := unbounded rfl trivial
theorem reportReadIndexWrite (value : Word) (enables : BitVec 4) : Statement (.reportReadIndexWrite value enables) := unbounded rfl trivial
theorem closeDay : Statement (.closeDay) := unbounded rfl trivial
theorem startSend : Statement (.startSend) := unbounded rfl trivial
theorem clearDay : Statement (.clearDay) := unbounded rfl trivial
theorem linkReset : Statement (.linkReset) := unbounded rfl trivial
theorem printerClear : Statement (.printerClear) := unbounded rfl trivial
theorem printerRestart : Statement (.printerRestart) := unbounded rfl trivial
theorem printerHalt : Statement (.printerHalt) := unbounded rfl trivial
theorem eject : Statement (.eject) := unbounded rfl trivial
theorem screenMode : Statement (.screenMode) := unbounded rfl trivial
theorem screenRefresh : Statement (.screenRefresh) := unbounded rfl trivial
theorem lineReset : Statement (.lineReset) := unbounded rfl trivial
theorem drawerRelease : Statement (.drawerRelease) := unbounded rfl trivial
theorem commit (slot : Fin 13) : Statement (.commit slot) := unbounded rfl trivial
theorem applyRecord : Statement (.applyRecord) := unbounded rfl trivial
theorem markDamaged : Statement (.markDamaged) := unbounded rfl trivial
theorem printStateStamp : Statement (.printStateStamp) := unbounded rfl trivial
theorem rebuildWalkStep : Statement (.rebuildWalkStep) := unbounded rfl trivial
theorem rebuildEnd : Statement (.rebuildEnd) := unbounded rfl trivial
theorem reportWrite : Statement (.reportWrite) := unbounded rfl trivial
theorem screenRowWrite (p : Fin 12) (word : Fin 960) (value : Word) (enables : BitVec 4) : Statement (.screenRowWrite p word value enables) := unbounded rfl trivial
theorem masterRowWrite (word : Fin 40) (value : Word) (enables : BitVec 4) : Statement (.masterRowWrite word value enables) := unbounded rfl trivial
theorem fanOutStart : Statement (.fanOutStart) := unbounded rfl trivial
theorem sweepStart (p : Fin 12) : Statement (.sweepStart p) := unbounded rfl trivial
theorem statusRowRender : Statement (.statusRowRender) := unbounded rfl trivial
theorem flashToggle (p : Fin 12) : Statement (.flashToggle p) := unbounded rfl trivial
theorem idleTimerExpiry (p : Fin 12) : Statement (.idleTimerExpiry p) := unbounded rfl trivial
theorem lineTurn (l : Fin 3) : Statement (.lineTurn l) := unbounded rfl trivial
theorem frameSent (l : Fin 3) : Statement (.frameSent l) := unbounded rfl trivial
theorem terminalAck (l : Fin 3) (sensorOpen : Bool) (keys : List (BitVec 16)) : Statement (.terminalAck l sensorOpen keys) := by simp [Statement, Bounds, Instr.wf]
theorem terminalNak (l : Fin 3) : Statement (.terminalNak l) := unbounded rfl trivial
theorem terminalIdent (l : Fin 3) (colour : Bool) (keyboard revision : Byte) : Statement (.terminalIdent l colour keyboard revision) := unbounded rfl trivial
theorem damagedAnswer (l : Fin 3) (bytes : List Byte) : Statement (.damagedAnswer l bytes) := by
  simp [Statement, Bounds, Instr.wf]
theorem answerPauseTimeout (l : Fin 3) : Statement (.answerPauseTimeout l) := unbounded rfl trivial
theorem replyTimeout (l : Fin 3) : Statement (.replyTimeout l) := unbounded rfl trivial
theorem pollIntervalExpiry (p : Fin 12) : Statement (.pollIntervalExpiry p) := unbounded rfl trivial
theorem attachAttemptDue (p : Fin 12) : Statement (.attachAttemptDue p) := unbounded rfl trivial
theorem keyReadIndexWrite (p : Fin 12) (value : Word) (enables : BitVec 4) : Statement (.keyReadIndexWrite p value enables) := unbounded rfl trivial
theorem openLongExpiry (p : Fin 12) : Statement (.openLongExpiry p) := unbounded rfl trivial
theorem releasePulseEnd (p : Fin 12) : Statement (.releasePulseEnd p) := unbounded rfl trivial
theorem printSlotIdleWrite (n : Fin 4) (slot : Fin 8) : Statement (.printSlotIdleWrite n slot) := unbounded rfl trivial
theorem submit (n : Fin 4) (slot : Fin 8) : Statement (.submit n slot) := unbounded rfl trivial
theorem bookInserted (n : Fin 4) : Statement (.bookInserted n) := unbounded rfl trivial
theorem bookRemoved (n : Fin 4) : Statement (.bookRemoved n) := unbounded rfl trivial
theorem tofEdge (n : Fin 4) : Statement (.tofEdge n) := unbounded rfl trivial
theorem requestTake (n : Fin 4) : Statement (.requestTake n) := unbounded rfl trivial
theorem encoderEdge (n : Fin 4) : Statement (.encoderEdge n) := unbounded rfl trivial
theorem targetMatch (n : Fin 4) : Statement (.targetMatch n) := unbounded rfl trivial
theorem strikeCompose (n : Fin 4) : Statement (.strikeCompose n) := unbounded rfl trivial
theorem headAnswer (n : Fin 4) (char : Byte) : Statement (.headAnswer n char) := unbounded rfl trivial
theorem headTimeout (n : Fin 4) : Statement (.headTimeout n) := unbounded rfl trivial
theorem travelLimit (n : Fin 4) : Statement (.travelLimit n) := unbounded rfl trivial
theorem stallTimeout (n : Fin 4) : Statement (.stallTimeout n) := unbounded rfl trivial
theorem coverActive (n : Fin 4) : Statement (.coverActive n) := unbounded rfl trivial
theorem ovcActive (n : Fin 4) : Statement (.ovcActive n) := unbounded rfl trivial
theorem causeInputInactive (n : Fin 4) (ovc : Bool) : Statement (.causeInputInactive n ovc) := unbounded rfl trivial
theorem periodBoundary (n : Fin 4) : Statement (.periodBoundary n) := unbounded rfl trivial
theorem deadBandExpiry (n : Fin 4) (output : Fin 4) : Statement (.deadBandExpiry n output) := unbounded rfl trivial
theorem carrierChange (present : Bool) : Statement (.carrierChange present) := unbounded rfl trivial
theorem receiveClockLoss : Statement (.receiveClockLoss) := unbounded rfl trivial
theorem helloTimerExpiry : Statement (.helloTimerExpiry) := unbounded rfl trivial
theorem hello : Statement (.hello) := unbounded rfl trivial
theorem helloAck : Statement (.helloAck) := unbounded rfl trivial
theorem keepalive : Statement (.keepalive) := unbounded rfl trivial
theorem invalidFrame (bytes : List Byte) : Statement (.invalidFrame bytes) := by
  simp [Statement, Bounds, Instr.wf, betweenFlags]
theorem transmitterFree : Statement (.transmitterFree) := unbounded rfl trivial
theorem keepaliveTimerExpiry : Statement (.keepaliveTimerExpiry) := unbounded rfl trivial
theorem silenceTimerExpiry : Statement (.silenceTimerExpiry) := unbounded rfl trivial
theorem ack (n : Fin 256) : Statement (.ack n) := unbounded rfl trivial
theorem nak (n : Fin 256) : Statement (.nak n) := unbounded rfl trivial
theorem ackTimerExpiry : Statement (.ackTimerExpiry) := unbounded rfl trivial
theorem hold : Statement (.hold) := unbounded rfl trivial
theorem holdTimerExpiry : Statement (.holdTimerExpiry) := unbounded rfl trivial
theorem resumeTimerExpiry : Statement (.resumeTimerExpiry) := unbounded rfl trivial
theorem abort (reason : Byte) : Statement (.abort reason) := unbounded rfl trivial
theorem accepted (batch : Word) : Statement (.accepted batch) := unbounded rfl trivial
theorem rejected (reason : Byte) : Statement (.rejected reason) := unbounded rfl trivial
theorem verdictTimerExpiry : Statement (.verdictTimerExpiry) := unbounded rfl trivial
theorem receiveClockReturn : Statement (.receiveClockReturn) := unbounded rfl trivial
theorem lineGapExpiry (l : Fin 3) : Statement (.lineGapExpiry l) := unbounded rfl trivial
theorem strikeMessageSent (n : Fin 4) : Statement (.strikeMessageSent n) := unbounded rfl trivial
theorem highSideTurnOff (n : Fin 4) : Statement (.highSideTurnOff n) := unbounded rfl trivial
theorem badRequest (code : Word) : Statement (.badRequest code) := by simp [Statement, Bounds, Instr.wf]

end Sys2Proof.Laws.Operands
end

