-- ==== Sys2Proof/Laws/Shared.lean ====
section
/-! SUPPORT. What each shared operation leaves alone: one lemma for each operation and each part of the chip that it does
not touch. -/

namespace Sys2Proof.Machine

set_option Elab.async false

/-- A fold of steps that keep something keeps it. -/
theorem foldl_keeps {α β : Type} (g : Chip → β) (f : Chip → α → Chip) (h : ∀ c x, g (f c x) = g c) (l : List α) (c : Chip) :
    g (l.foldl f c) = g c := by
  induction l generalizing c with
  | nil => rfl
  | cons x rest ih => rw [List.foldl_cons, ih, h]

/-! `setOverflow` -/
@[simp] theorem Chip.setOverflow_ap (c : Chip) : (c.setOverflow).ap = c.ap := by simp [Chip.setOverflow, apply_ite Chip.ap]
@[simp] theorem Chip.setOverflow_ju (c : Chip) : (c.setOverflow).ju = c.ju := by simp [Chip.setOverflow, apply_ite Chip.ju]
@[simp] theorem Chip.setOverflow_cu (c : Chip) : (c.setOverflow).cu = c.cu := by simp [Chip.setOverflow, apply_ite Chip.cu]
@[simp] theorem Chip.setOverflow_scu (c : Chip) : (c.setOverflow).scu = c.scu := by simp [Chip.setOverflow, apply_ite Chip.scu]
@[simp] theorem Chip.setOverflow_slc (c : Chip) : (c.setOverflow).slc = c.slc := by simp [Chip.setOverflow, apply_ite Chip.slc]
@[simp] theorem Chip.setOverflow_pru (c : Chip) : (c.setOverflow).pru = c.pru := by simp [Chip.setOverflow, apply_ite Chip.pru]
@[simp] theorem Chip.setOverflow_fd (c : Chip) : (c.setOverflow).fd = c.fd := by simp [Chip.setOverflow, apply_ite Chip.fd]
@[simp] theorem Chip.setOverflow_hlc (c : Chip) : (c.setOverflow).hlc = c.hlc := by simp [Chip.setOverflow, apply_ite Chip.hlc]
@[simp] theorem Chip.setOverflow_pins (c : Chip) : (c.setOverflow).pins = c.pins := by simp [Chip.setOverflow, apply_ite Chip.pins]
@[simp] theorem Chip.setOverflow_free (c : Chip) : (c.setOverflow).free = c.free := by simp [Chip.setOverflow, apply_ite Chip.free]

/-! `report` -/
@[simp] theorem Chip.report_ap (c : Chip) (k : ReportKind) (i d : Nat) : (c.report k i d).ap = c.ap := by simp [Chip.report, apply_ite Chip.ap]
@[simp] theorem Chip.report_ju (c : Chip) (k : ReportKind) (i d : Nat) : (c.report k i d).ju = c.ju := by simp [Chip.report, apply_ite Chip.ju]
@[simp] theorem Chip.report_cu (c : Chip) (k : ReportKind) (i d : Nat) : (c.report k i d).cu = c.cu := by simp [Chip.report, apply_ite Chip.cu]
@[simp] theorem Chip.report_scu (c : Chip) (k : ReportKind) (i d : Nat) : (c.report k i d).scu = c.scu := by simp [Chip.report, apply_ite Chip.scu]
@[simp] theorem Chip.report_slc (c : Chip) (k : ReportKind) (i d : Nat) : (c.report k i d).slc = c.slc := by simp [Chip.report, apply_ite Chip.slc]
@[simp] theorem Chip.report_pru (c : Chip) (k : ReportKind) (i d : Nat) : (c.report k i d).pru = c.pru := by simp [Chip.report, apply_ite Chip.pru]
@[simp] theorem Chip.report_fd (c : Chip) (k : ReportKind) (i d : Nat) : (c.report k i d).fd = c.fd := by simp [Chip.report, apply_ite Chip.fd]
@[simp] theorem Chip.report_hlc (c : Chip) (k : ReportKind) (i d : Nat) : (c.report k i d).hlc = c.hlc := by simp [Chip.report, apply_ite Chip.hlc]
@[simp] theorem Chip.report_pins (c : Chip) (k : ReportKind) (i d : Nat) : (c.report k i d).pins = c.pins := by simp [Chip.report, apply_ite Chip.pins]
@[simp] theorem Chip.report_free (c : Chip) (k : ReportKind) (i d : Nat) : (c.report k i d).free = c.free := by simp [Chip.report, apply_ite Chip.free]

/-! `reportStore` -/
@[simp] theorem Chip.reportStore_ap (c : Chip) (u : Fin 9) (a : Nat) : (c.reportStore u a).ap = c.ap := by simp [Chip.reportStore]
@[simp] theorem Chip.reportStore_ju (c : Chip) (u : Fin 9) (a : Nat) : (c.reportStore u a).ju = c.ju := by simp [Chip.reportStore]
@[simp] theorem Chip.reportStore_cu (c : Chip) (u : Fin 9) (a : Nat) : (c.reportStore u a).cu = c.cu := by simp [Chip.reportStore]
@[simp] theorem Chip.reportStore_scu (c : Chip) (u : Fin 9) (a : Nat) : (c.reportStore u a).scu = c.scu := by simp [Chip.reportStore]
@[simp] theorem Chip.reportStore_slc (c : Chip) (u : Fin 9) (a : Nat) : (c.reportStore u a).slc = c.slc := by simp [Chip.reportStore]
@[simp] theorem Chip.reportStore_pru (c : Chip) (u : Fin 9) (a : Nat) : (c.reportStore u a).pru = c.pru := by simp [Chip.reportStore]
@[simp] theorem Chip.reportStore_fd (c : Chip) (u : Fin 9) (a : Nat) : (c.reportStore u a).fd = c.fd := by simp [Chip.reportStore]
@[simp] theorem Chip.reportStore_hlc (c : Chip) (u : Fin 9) (a : Nat) : (c.reportStore u a).hlc = c.hlc := by simp [Chip.reportStore]
@[simp] theorem Chip.reportStore_pins (c : Chip) (u : Fin 9) (a : Nat) : (c.reportStore u a).pins = c.pins := by simp [Chip.reportStore]
@[simp] theorem Chip.reportStore_free (c : Chip) (u : Fin 9) (a : Nat) : (c.reportStore u a).free = c.free := by simp [Chip.reportStore]

/-! `finishRequest` -/
@[simp] theorem Chip.finishRequest_ap (c : Chip) (r : Option Reason) (d : Nat) : (c.finishRequest r d).ap = c.ap := by
  unfold Chip.finishRequest; (repeat' split) <;> simp
@[simp] theorem Chip.finishRequest_su (c : Chip) (r : Option Reason) (d : Nat) : (c.finishRequest r d).su = c.su := by
  unfold Chip.finishRequest; (repeat' split) <;> simp
@[simp] theorem Chip.finishRequest_ju (c : Chip) (r : Option Reason) (d : Nat) : (c.finishRequest r d).ju = c.ju := by
  unfold Chip.finishRequest; (repeat' split) <;> simp
@[simp] theorem Chip.finishRequest_cu (c : Chip) (r : Option Reason) (d : Nat) : (c.finishRequest r d).cu = c.cu := by
  unfold Chip.finishRequest; (repeat' split) <;> simp
@[simp] theorem Chip.finishRequest_scu (c : Chip) (r : Option Reason) (d : Nat) : (c.finishRequest r d).scu = c.scu := by
  unfold Chip.finishRequest; (repeat' split) <;> simp
@[simp] theorem Chip.finishRequest_slc (c : Chip) (r : Option Reason) (d : Nat) : (c.finishRequest r d).slc = c.slc := by
  unfold Chip.finishRequest; (repeat' split) <;> simp
@[simp] theorem Chip.finishRequest_pru (c : Chip) (r : Option Reason) (d : Nat) : (c.finishRequest r d).pru = c.pru := by
  unfold Chip.finishRequest; (repeat' split) <;> simp
@[simp] theorem Chip.finishRequest_fd (c : Chip) (r : Option Reason) (d : Nat) : (c.finishRequest r d).fd = c.fd := by
  unfold Chip.finishRequest; (repeat' split) <;> simp
@[simp] theorem Chip.finishRequest_hlc (c : Chip) (r : Option Reason) (d : Nat) : (c.finishRequest r d).hlc = c.hlc := by
  unfold Chip.finishRequest; (repeat' split) <;> simp
@[simp] theorem Chip.finishRequest_pins (c : Chip) (r : Option Reason) (d : Nat) : (c.finishRequest r d).pins = c.pins := by
  unfold Chip.finishRequest; (repeat' split) <;> simp
@[simp] theorem Chip.finishRequest_free (c : Chip) (r : Option Reason) (d : Nat) : (c.finishRequest r d).free = c.free := by
  unfold Chip.finishRequest; (repeat' split) <;> simp

/-! `requestDone` -/
@[simp] theorem Chip.requestDone_ap (c : Chip) : (c.requestDone).ap = c.ap := by simp [Chip.requestDone]
@[simp] theorem Chip.requestDone_su (c : Chip) : (c.requestDone).su = c.su := by simp [Chip.requestDone]
@[simp] theorem Chip.requestDone_ju (c : Chip) : (c.requestDone).ju = c.ju := by simp [Chip.requestDone]
@[simp] theorem Chip.requestDone_cu (c : Chip) : (c.requestDone).cu = c.cu := by simp [Chip.requestDone]
@[simp] theorem Chip.requestDone_scu (c : Chip) : (c.requestDone).scu = c.scu := by simp [Chip.requestDone]
@[simp] theorem Chip.requestDone_slc (c : Chip) : (c.requestDone).slc = c.slc := by simp [Chip.requestDone]
@[simp] theorem Chip.requestDone_pru (c : Chip) : (c.requestDone).pru = c.pru := by simp [Chip.requestDone]
@[simp] theorem Chip.requestDone_fd (c : Chip) : (c.requestDone).fd = c.fd := by simp [Chip.requestDone]
@[simp] theorem Chip.requestDone_hlc (c : Chip) : (c.requestDone).hlc = c.hlc := by simp [Chip.requestDone]
@[simp] theorem Chip.requestDone_pins (c : Chip) : (c.requestDone).pins = c.pins := by simp [Chip.requestDone]
@[simp] theorem Chip.requestDone_free (c : Chip) : (c.requestDone).free = c.free := by simp [Chip.requestDone]

/-! `requestRefused` -/
@[simp] theorem Chip.requestRefused_ap (c : Chip) (r : Reason) (d : Nat) : (c.requestRefused r d).ap = c.ap := by simp [Chip.requestRefused]
@[simp] theorem Chip.requestRefused_su (c : Chip) (r : Reason) (d : Nat) : (c.requestRefused r d).su = c.su := by simp [Chip.requestRefused]
@[simp] theorem Chip.requestRefused_ju (c : Chip) (r : Reason) (d : Nat) : (c.requestRefused r d).ju = c.ju := by simp [Chip.requestRefused]
@[simp] theorem Chip.requestRefused_cu (c : Chip) (r : Reason) (d : Nat) : (c.requestRefused r d).cu = c.cu := by simp [Chip.requestRefused]
@[simp] theorem Chip.requestRefused_scu (c : Chip) (r : Reason) (d : Nat) : (c.requestRefused r d).scu = c.scu := by simp [Chip.requestRefused]
@[simp] theorem Chip.requestRefused_slc (c : Chip) (r : Reason) (d : Nat) : (c.requestRefused r d).slc = c.slc := by simp [Chip.requestRefused]
@[simp] theorem Chip.requestRefused_pru (c : Chip) (r : Reason) (d : Nat) : (c.requestRefused r d).pru = c.pru := by simp [Chip.requestRefused]
@[simp] theorem Chip.requestRefused_fd (c : Chip) (r : Reason) (d : Nat) : (c.requestRefused r d).fd = c.fd := by simp [Chip.requestRefused]
@[simp] theorem Chip.requestRefused_hlc (c : Chip) (r : Reason) (d : Nat) : (c.requestRefused r d).hlc = c.hlc := by simp [Chip.requestRefused]
@[simp] theorem Chip.requestRefused_pins (c : Chip) (r : Reason) (d : Nat) : (c.requestRefused r d).pins = c.pins := by simp [Chip.requestRefused]
@[simp] theorem Chip.requestRefused_free (c : Chip) (r : Reason) (d : Nat) : (c.requestRefused r d).free = c.free := by simp [Chip.requestRefused]

/-! `pushThenDone` -/
@[simp] theorem Chip.pushThenDone_ap (c : Chip) (u : Fin 9) (rs : List OwnReq) : (c.pushThenDone u rs).ap = c.ap := by
  unfold Chip.pushThenDone; (repeat' split) <;> simp
@[simp] theorem Chip.pushThenDone_su (c : Chip) (u : Fin 9) (rs : List OwnReq) : (c.pushThenDone u rs).su = c.su := by
  unfold Chip.pushThenDone; (repeat' split) <;> simp
@[simp] theorem Chip.pushThenDone_ju (c : Chip) (u : Fin 9) (rs : List OwnReq) : (c.pushThenDone u rs).ju = c.ju := by
  unfold Chip.pushThenDone; (repeat' split) <;> simp
@[simp] theorem Chip.pushThenDone_cu (c : Chip) (u : Fin 9) (rs : List OwnReq) : (c.pushThenDone u rs).cu = c.cu := by
  unfold Chip.pushThenDone; (repeat' split) <;> simp
@[simp] theorem Chip.pushThenDone_scu (c : Chip) (u : Fin 9) (rs : List OwnReq) : (c.pushThenDone u rs).scu = c.scu := by
  unfold Chip.pushThenDone; (repeat' split) <;> simp
@[simp] theorem Chip.pushThenDone_slc (c : Chip) (u : Fin 9) (rs : List OwnReq) : (c.pushThenDone u rs).slc = c.slc := by
  unfold Chip.pushThenDone; (repeat' split) <;> simp
@[simp] theorem Chip.pushThenDone_pru (c : Chip) (u : Fin 9) (rs : List OwnReq) : (c.pushThenDone u rs).pru = c.pru := by
  unfold Chip.pushThenDone; (repeat' split) <;> simp
@[simp] theorem Chip.pushThenDone_fd (c : Chip) (u : Fin 9) (rs : List OwnReq) : (c.pushThenDone u rs).fd = c.fd := by
  unfold Chip.pushThenDone; (repeat' split) <;> simp
@[simp] theorem Chip.pushThenDone_hlc (c : Chip) (u : Fin 9) (rs : List OwnReq) : (c.pushThenDone u rs).hlc = c.hlc := by
  unfold Chip.pushThenDone; (repeat' split) <;> simp
@[simp] theorem Chip.pushThenDone_pins (c : Chip) (u : Fin 9) (rs : List OwnReq) : (c.pushThenDone u rs).pins = c.pins := by
  unfold Chip.pushThenDone; (repeat' split) <;> simp
@[simp] theorem Chip.pushThenDone_free (c : Chip) (u : Fin 9) (rs : List OwnReq) : (c.pushThenDone u rs).free = c.free := by
  unfold Chip.pushThenDone; (repeat' split) <;> simp

/-! `writeStatus` -/
@[simp] theorem Chip.writeStatus_ap (c : Chip) (o : Nat) (w : Word) : (c.writeStatus o w).ap = c.ap := by simp [Chip.writeStatus]
@[simp] theorem Chip.writeStatus_su (c : Chip) (o : Nat) (w : Word) : (c.writeStatus o w).su = c.su := by simp [Chip.writeStatus]
@[simp] theorem Chip.writeStatus_ju (c : Chip) (o : Nat) (w : Word) : (c.writeStatus o w).ju = c.ju := by simp [Chip.writeStatus]
@[simp] theorem Chip.writeStatus_cu (c : Chip) (o : Nat) (w : Word) : (c.writeStatus o w).cu = c.cu := by simp [Chip.writeStatus]
@[simp] theorem Chip.writeStatus_scu (c : Chip) (o : Nat) (w : Word) : (c.writeStatus o w).scu = c.scu := by simp [Chip.writeStatus]
@[simp] theorem Chip.writeStatus_slc (c : Chip) (o : Nat) (w : Word) : (c.writeStatus o w).slc = c.slc := by simp [Chip.writeStatus]
@[simp] theorem Chip.writeStatus_pru (c : Chip) (o : Nat) (w : Word) : (c.writeStatus o w).pru = c.pru := by simp [Chip.writeStatus]
@[simp] theorem Chip.writeStatus_fd (c : Chip) (o : Nat) (w : Word) : (c.writeStatus o w).fd = c.fd := by simp [Chip.writeStatus]
@[simp] theorem Chip.writeStatus_hlc (c : Chip) (o : Nat) (w : Word) : (c.writeStatus o w).hlc = c.hlc := by simp [Chip.writeStatus]
@[simp] theorem Chip.writeStatus_pins (c : Chip) (o : Nat) (w : Word) : (c.writeStatus o w).pins = c.pins := by simp [Chip.writeStatus]
@[simp] theorem Chip.writeStatus_free (c : Chip) (o : Nat) (w : Word) : (c.writeStatus o w).free = c.free := by simp [Chip.writeStatus]

/-! `askSettingsCrc` -/
@[simp] theorem Chip.askSettingsCrc_ap (c : Chip) : (c.askSettingsCrc).ap = c.ap := by simp [Chip.askSettingsCrc]
@[simp] theorem Chip.askSettingsCrc_su (c : Chip) : (c.askSettingsCrc).su = c.su := by simp [Chip.askSettingsCrc]
@[simp] theorem Chip.askSettingsCrc_ju (c : Chip) : (c.askSettingsCrc).ju = c.ju := by simp [Chip.askSettingsCrc]
@[simp] theorem Chip.askSettingsCrc_cu (c : Chip) : (c.askSettingsCrc).cu = c.cu := by simp [Chip.askSettingsCrc]
@[simp] theorem Chip.askSettingsCrc_scu (c : Chip) : (c.askSettingsCrc).scu = c.scu := by simp [Chip.askSettingsCrc]
@[simp] theorem Chip.askSettingsCrc_slc (c : Chip) : (c.askSettingsCrc).slc = c.slc := by simp [Chip.askSettingsCrc]
@[simp] theorem Chip.askSettingsCrc_pru (c : Chip) : (c.askSettingsCrc).pru = c.pru := by simp [Chip.askSettingsCrc]
@[simp] theorem Chip.askSettingsCrc_fd (c : Chip) : (c.askSettingsCrc).fd = c.fd := by simp [Chip.askSettingsCrc]
@[simp] theorem Chip.askSettingsCrc_hlc (c : Chip) : (c.askSettingsCrc).hlc = c.hlc := by simp [Chip.askSettingsCrc]
@[simp] theorem Chip.askSettingsCrc_pins (c : Chip) : (c.askSettingsCrc).pins = c.pins := by simp [Chip.askSettingsCrc]
@[simp] theorem Chip.askSettingsCrc_free (c : Chip) : (c.askSettingsCrc).free = c.free := by simp [Chip.askSettingsCrc]

/-! `askDayCrc` -/
@[simp] theorem Chip.askDayCrc_ap (c : Chip) (k : After) : (c.askDayCrc k).ap = c.ap := by simp [Chip.askDayCrc]
@[simp] theorem Chip.askDayCrc_su (c : Chip) (k : After) : (c.askDayCrc k).su = c.su := by simp [Chip.askDayCrc]
@[simp] theorem Chip.askDayCrc_ju (c : Chip) (k : After) : (c.askDayCrc k).ju = c.ju := by simp [Chip.askDayCrc]
@[simp] theorem Chip.askDayCrc_cu (c : Chip) (k : After) : (c.askDayCrc k).cu = c.cu := by simp [Chip.askDayCrc]
@[simp] theorem Chip.askDayCrc_scu (c : Chip) (k : After) : (c.askDayCrc k).scu = c.scu := by simp [Chip.askDayCrc]
@[simp] theorem Chip.askDayCrc_slc (c : Chip) (k : After) : (c.askDayCrc k).slc = c.slc := by simp [Chip.askDayCrc]
@[simp] theorem Chip.askDayCrc_pru (c : Chip) (k : After) : (c.askDayCrc k).pru = c.pru := by simp [Chip.askDayCrc]
@[simp] theorem Chip.askDayCrc_fd (c : Chip) (k : After) : (c.askDayCrc k).fd = c.fd := by simp [Chip.askDayCrc]
@[simp] theorem Chip.askDayCrc_hlc (c : Chip) (k : After) : (c.askDayCrc k).hlc = c.hlc := by simp [Chip.askDayCrc]
@[simp] theorem Chip.askDayCrc_pins (c : Chip) (k : After) : (c.askDayCrc k).pins = c.pins := by simp [Chip.askDayCrc]
@[simp] theorem Chip.askDayCrc_free (c : Chip) (k : After) : (c.askDayCrc k).free = c.free := by simp [Chip.askDayCrc]

/-! `fanWriteTo` -/
@[simp] theorem Chip.fanWriteTo_ap (c : Chip) (q : Fin 12) : (c.fanWriteTo q).ap = c.ap := by simp [Chip.fanWriteTo]
@[simp] theorem Chip.fanWriteTo_su (c : Chip) (q : Fin 12) : (c.fanWriteTo q).su = c.su := by simp [Chip.fanWriteTo]
@[simp] theorem Chip.fanWriteTo_ju (c : Chip) (q : Fin 12) : (c.fanWriteTo q).ju = c.ju := by simp [Chip.fanWriteTo]
@[simp] theorem Chip.fanWriteTo_cu (c : Chip) (q : Fin 12) : (c.fanWriteTo q).cu = c.cu := by simp [Chip.fanWriteTo]
@[simp] theorem Chip.fanWriteTo_scu (c : Chip) (q : Fin 12) : (c.fanWriteTo q).scu = c.scu := by simp [Chip.fanWriteTo]
@[simp] theorem Chip.fanWriteTo_slc (c : Chip) (q : Fin 12) : (c.fanWriteTo q).slc = c.slc := by simp [Chip.fanWriteTo]
@[simp] theorem Chip.fanWriteTo_pru (c : Chip) (q : Fin 12) : (c.fanWriteTo q).pru = c.pru := by simp [Chip.fanWriteTo]
@[simp] theorem Chip.fanWriteTo_fd (c : Chip) (q : Fin 12) : (c.fanWriteTo q).fd = c.fd := by simp [Chip.fanWriteTo]
@[simp] theorem Chip.fanWriteTo_hlc (c : Chip) (q : Fin 12) : (c.fanWriteTo q).hlc = c.hlc := by simp [Chip.fanWriteTo]
@[simp] theorem Chip.fanWriteTo_pins (c : Chip) (q : Fin 12) : (c.fanWriteTo q).pins = c.pins := by simp [Chip.fanWriteTo]
@[simp] theorem Chip.fanWriteTo_free (c : Chip) (q : Fin 12) : (c.fanWriteTo q).free = c.free := by simp [Chip.fanWriteTo]

/-! `scuTake` -/
@[simp] theorem Chip.scuTake_ap (c : Chip) (l : List ScuWork) : (c.scuTake l).ap = c.ap := by
  induction l generalizing c with
  | nil => rfl
  | cons e rest ih =>
    cases e <;> simp only [Chip.scuTake] <;> (repeat' split) <;> simp [ih]
@[simp] theorem Chip.scuTake_su (c : Chip) (l : List ScuWork) : (c.scuTake l).su = c.su := by
  induction l generalizing c with
  | nil => rfl
  | cons e rest ih =>
    cases e <;> simp only [Chip.scuTake] <;> (repeat' split) <;> simp [ih]
@[simp] theorem Chip.scuTake_ju (c : Chip) (l : List ScuWork) : (c.scuTake l).ju = c.ju := by
  induction l generalizing c with
  | nil => rfl
  | cons e rest ih =>
    cases e <;> simp only [Chip.scuTake] <;> (repeat' split) <;> simp [ih]
@[simp] theorem Chip.scuTake_cu (c : Chip) (l : List ScuWork) : (c.scuTake l).cu = c.cu := by
  induction l generalizing c with
  | nil => rfl
  | cons e rest ih =>
    cases e <;> simp only [Chip.scuTake] <;> (repeat' split) <;> simp [ih]
@[simp] theorem Chip.scuTake_slc (c : Chip) (l : List ScuWork) : (c.scuTake l).slc = c.slc := by
  induction l generalizing c with
  | nil => rfl
  | cons e rest ih =>
    cases e <;> simp only [Chip.scuTake] <;> (repeat' split) <;> simp [ih]
@[simp] theorem Chip.scuTake_pru (c : Chip) (l : List ScuWork) : (c.scuTake l).pru = c.pru := by
  induction l generalizing c with
  | nil => rfl
  | cons e rest ih =>
    cases e <;> simp only [Chip.scuTake] <;> (repeat' split) <;> simp [ih]
@[simp] theorem Chip.scuTake_fd (c : Chip) (l : List ScuWork) : (c.scuTake l).fd = c.fd := by
  induction l generalizing c with
  | nil => rfl
  | cons e rest ih =>
    cases e <;> simp only [Chip.scuTake] <;> (repeat' split) <;> simp [ih]
@[simp] theorem Chip.scuTake_hlc (c : Chip) (l : List ScuWork) : (c.scuTake l).hlc = c.hlc := by
  induction l generalizing c with
  | nil => rfl
  | cons e rest ih =>
    cases e <;> simp only [Chip.scuTake] <;> (repeat' split) <;> simp [ih]
@[simp] theorem Chip.scuTake_pins (c : Chip) (l : List ScuWork) : (c.scuTake l).pins = c.pins := by
  induction l generalizing c with
  | nil => rfl
  | cons e rest ih =>
    cases e <;> simp only [Chip.scuTake] <;> (repeat' split) <;> simp [ih]
@[simp] theorem Chip.scuTake_free (c : Chip) (l : List ScuWork) : (c.scuTake l).free = c.free := by
  induction l generalizing c with
  | nil => rfl
  | cons e rest ih =>
    cases e <;> simp only [Chip.scuTake] <;> (repeat' split) <;> simp [ih]

/-! `scuPump` -/
@[simp] theorem Chip.scuPump_ap (c : Chip) : (c.scuPump).ap = c.ap := by simp [Chip.scuPump, apply_ite Chip.ap]
@[simp] theorem Chip.scuPump_su (c : Chip) : (c.scuPump).su = c.su := by simp [Chip.scuPump, apply_ite Chip.su]
@[simp] theorem Chip.scuPump_ju (c : Chip) : (c.scuPump).ju = c.ju := by simp [Chip.scuPump, apply_ite Chip.ju]
@[simp] theorem Chip.scuPump_cu (c : Chip) : (c.scuPump).cu = c.cu := by simp [Chip.scuPump, apply_ite Chip.cu]
@[simp] theorem Chip.scuPump_slc (c : Chip) : (c.scuPump).slc = c.slc := by simp [Chip.scuPump, apply_ite Chip.slc]
@[simp] theorem Chip.scuPump_pru (c : Chip) : (c.scuPump).pru = c.pru := by simp [Chip.scuPump, apply_ite Chip.pru]
@[simp] theorem Chip.scuPump_fd (c : Chip) : (c.scuPump).fd = c.fd := by simp [Chip.scuPump, apply_ite Chip.fd]
@[simp] theorem Chip.scuPump_hlc (c : Chip) : (c.scuPump).hlc = c.hlc := by simp [Chip.scuPump, apply_ite Chip.hlc]
@[simp] theorem Chip.scuPump_pins (c : Chip) : (c.scuPump).pins = c.pins := by simp [Chip.scuPump, apply_ite Chip.pins]
@[simp] theorem Chip.scuPump_free (c : Chip) : (c.scuPump).free = c.free := by simp [Chip.scuPump, apply_ite Chip.free]

/-! `addWork` -/
@[simp] theorem Chip.addWork_ap (c : Chip) (e : ScuWork) : (c.addWork e).ap = c.ap := by simp [Chip.addWork]
@[simp] theorem Chip.addWork_su (c : Chip) (e : ScuWork) : (c.addWork e).su = c.su := by simp [Chip.addWork]
@[simp] theorem Chip.addWork_ju (c : Chip) (e : ScuWork) : (c.addWork e).ju = c.ju := by simp [Chip.addWork]
@[simp] theorem Chip.addWork_cu (c : Chip) (e : ScuWork) : (c.addWork e).cu = c.cu := by simp [Chip.addWork]
@[simp] theorem Chip.addWork_slc (c : Chip) (e : ScuWork) : (c.addWork e).slc = c.slc := by simp [Chip.addWork]
@[simp] theorem Chip.addWork_pru (c : Chip) (e : ScuWork) : (c.addWork e).pru = c.pru := by simp [Chip.addWork]
@[simp] theorem Chip.addWork_fd (c : Chip) (e : ScuWork) : (c.addWork e).fd = c.fd := by simp [Chip.addWork]
@[simp] theorem Chip.addWork_hlc (c : Chip) (e : ScuWork) : (c.addWork e).hlc = c.hlc := by simp [Chip.addWork]
@[simp] theorem Chip.addWork_pins (c : Chip) (e : ScuWork) : (c.addWork e).pins = c.pins := by simp [Chip.addWork]
@[simp] theorem Chip.addWork_free (c : Chip) (e : ScuWork) : (c.addWork e).free = c.free := by simp [Chip.addWork]

/-! `scuServed` -/
@[simp] theorem Chip.scuServed_ap (c : Chip) : (c.scuServed).ap = c.ap := by simp [Chip.scuServed]
@[simp] theorem Chip.scuServed_su (c : Chip) : (c.scuServed).su = c.su := by simp [Chip.scuServed]
@[simp] theorem Chip.scuServed_ju (c : Chip) : (c.scuServed).ju = c.ju := by simp [Chip.scuServed]
@[simp] theorem Chip.scuServed_cu (c : Chip) : (c.scuServed).cu = c.cu := by simp [Chip.scuServed]
@[simp] theorem Chip.scuServed_slc (c : Chip) : (c.scuServed).slc = c.slc := by simp [Chip.scuServed]
@[simp] theorem Chip.scuServed_pru (c : Chip) : (c.scuServed).pru = c.pru := by simp [Chip.scuServed]
@[simp] theorem Chip.scuServed_fd (c : Chip) : (c.scuServed).fd = c.fd := by simp [Chip.scuServed]
@[simp] theorem Chip.scuServed_hlc (c : Chip) : (c.scuServed).hlc = c.hlc := by simp [Chip.scuServed]
@[simp] theorem Chip.scuServed_pins (c : Chip) : (c.scuServed).pins = c.pins := by simp [Chip.scuServed]
@[simp] theorem Chip.scuServed_free (c : Chip) : (c.scuServed).free = c.free := by simp [Chip.scuServed]

/-! `judgeFlash` -/
@[simp] theorem Chip.judgeFlash_ap (c : Chip) (p : Fin 12) : (c.judgeFlash p).ap = c.ap := by simp [Chip.judgeFlash, apply_ite Chip.ap]
@[simp] theorem Chip.judgeFlash_own (c : Chip) (p : Fin 12) : (c.judgeFlash p).own = c.own := by simp [Chip.judgeFlash, apply_ite Chip.own]
@[simp] theorem Chip.judgeFlash_su (c : Chip) (p : Fin 12) : (c.judgeFlash p).su = c.su := by simp [Chip.judgeFlash, apply_ite Chip.su]
@[simp] theorem Chip.judgeFlash_ju (c : Chip) (p : Fin 12) : (c.judgeFlash p).ju = c.ju := by simp [Chip.judgeFlash, apply_ite Chip.ju]
@[simp] theorem Chip.judgeFlash_cu (c : Chip) (p : Fin 12) : (c.judgeFlash p).cu = c.cu := by simp [Chip.judgeFlash, apply_ite Chip.cu]
@[simp] theorem Chip.judgeFlash_slc (c : Chip) (p : Fin 12) : (c.judgeFlash p).slc = c.slc := by simp [Chip.judgeFlash, apply_ite Chip.slc]
@[simp] theorem Chip.judgeFlash_pru (c : Chip) (p : Fin 12) : (c.judgeFlash p).pru = c.pru := by simp [Chip.judgeFlash, apply_ite Chip.pru]
@[simp] theorem Chip.judgeFlash_fd (c : Chip) (p : Fin 12) : (c.judgeFlash p).fd = c.fd := by simp [Chip.judgeFlash, apply_ite Chip.fd]
@[simp] theorem Chip.judgeFlash_hlc (c : Chip) (p : Fin 12) : (c.judgeFlash p).hlc = c.hlc := by simp [Chip.judgeFlash, apply_ite Chip.hlc]
@[simp] theorem Chip.judgeFlash_pins (c : Chip) (p : Fin 12) : (c.judgeFlash p).pins = c.pins := by simp [Chip.judgeFlash, apply_ite Chip.pins]
@[simp] theorem Chip.judgeFlash_free (c : Chip) (p : Fin 12) : (c.judgeFlash p).free = c.free := by simp [Chip.judgeFlash, apply_ite Chip.free]

/-! `statusEvent` -/
@[simp] theorem Chip.statusEvent_ap (c : Chip) (p : Fin 12) : (c.statusEvent p).ap = c.ap := by simp [Chip.statusEvent, apply_ite Chip.ap]
@[simp] theorem Chip.statusEvent_su (c : Chip) (p : Fin 12) : (c.statusEvent p).su = c.su := by simp [Chip.statusEvent, apply_ite Chip.su]
@[simp] theorem Chip.statusEvent_ju (c : Chip) (p : Fin 12) : (c.statusEvent p).ju = c.ju := by simp [Chip.statusEvent, apply_ite Chip.ju]
@[simp] theorem Chip.statusEvent_cu (c : Chip) (p : Fin 12) : (c.statusEvent p).cu = c.cu := by simp [Chip.statusEvent, apply_ite Chip.cu]
@[simp] theorem Chip.statusEvent_slc (c : Chip) (p : Fin 12) : (c.statusEvent p).slc = c.slc := by simp [Chip.statusEvent, apply_ite Chip.slc]
@[simp] theorem Chip.statusEvent_pru (c : Chip) (p : Fin 12) : (c.statusEvent p).pru = c.pru := by simp [Chip.statusEvent, apply_ite Chip.pru]
@[simp] theorem Chip.statusEvent_fd (c : Chip) (p : Fin 12) : (c.statusEvent p).fd = c.fd := by simp [Chip.statusEvent, apply_ite Chip.fd]
@[simp] theorem Chip.statusEvent_hlc (c : Chip) (p : Fin 12) : (c.statusEvent p).hlc = c.hlc := by simp [Chip.statusEvent, apply_ite Chip.hlc]
@[simp] theorem Chip.statusEvent_pins (c : Chip) (p : Fin 12) : (c.statusEvent p).pins = c.pins := by simp [Chip.statusEvent, apply_ite Chip.pins]
@[simp] theorem Chip.statusEvent_free (c : Chip) (p : Fin 12) : (c.statusEvent p).free = c.free := by simp [Chip.statusEvent, apply_ite Chip.free]

/-! `statusEventAll` -/
@[simp] theorem Chip.statusEventAll_ap (c : Chip) : (c.statusEventAll).ap = c.ap := by
  unfold Chip.statusEventAll
  exact foldl_keeps Chip.ap _ (by intros; simp) _ _
@[simp] theorem Chip.statusEventAll_su (c : Chip) : (c.statusEventAll).su = c.su := by
  unfold Chip.statusEventAll
  exact foldl_keeps Chip.su _ (by intros; simp) _ _
@[simp] theorem Chip.statusEventAll_ju (c : Chip) : (c.statusEventAll).ju = c.ju := by
  unfold Chip.statusEventAll
  exact foldl_keeps Chip.ju _ (by intros; simp) _ _
@[simp] theorem Chip.statusEventAll_cu (c : Chip) : (c.statusEventAll).cu = c.cu := by
  unfold Chip.statusEventAll
  exact foldl_keeps Chip.cu _ (by intros; simp) _ _
@[simp] theorem Chip.statusEventAll_slc (c : Chip) : (c.statusEventAll).slc = c.slc := by
  unfold Chip.statusEventAll
  exact foldl_keeps Chip.slc _ (by intros; simp) _ _
@[simp] theorem Chip.statusEventAll_pru (c : Chip) : (c.statusEventAll).pru = c.pru := by
  unfold Chip.statusEventAll
  exact foldl_keeps Chip.pru _ (by intros; simp) _ _
@[simp] theorem Chip.statusEventAll_fd (c : Chip) : (c.statusEventAll).fd = c.fd := by
  unfold Chip.statusEventAll
  exact foldl_keeps Chip.fd _ (by intros; simp) _ _
@[simp] theorem Chip.statusEventAll_hlc (c : Chip) : (c.statusEventAll).hlc = c.hlc := by
  unfold Chip.statusEventAll
  exact foldl_keeps Chip.hlc _ (by intros; simp) _ _
@[simp] theorem Chip.statusEventAll_pins (c : Chip) : (c.statusEventAll).pins = c.pins := by
  unfold Chip.statusEventAll
  exact foldl_keeps Chip.pins _ (by intros; simp) _ _
@[simp] theorem Chip.statusEventAll_free (c : Chip) : (c.statusEventAll).free = c.free := by
  unfold Chip.statusEventAll
  exact foldl_keeps Chip.free _ (by intros; simp) _ _

/-! `markDirty` -/
@[simp] theorem Chip.markDirty_ap (c : Chip) (p : Fin 12) (r : Fin 25) : (c.markDirty p r).ap = c.ap := by simp [Chip.markDirty]
@[simp] theorem Chip.markDirty_own (c : Chip) (p : Fin 12) (r : Fin 25) : (c.markDirty p r).own = c.own := by simp [Chip.markDirty]
@[simp] theorem Chip.markDirty_su (c : Chip) (p : Fin 12) (r : Fin 25) : (c.markDirty p r).su = c.su := by simp [Chip.markDirty]
@[simp] theorem Chip.markDirty_ju (c : Chip) (p : Fin 12) (r : Fin 25) : (c.markDirty p r).ju = c.ju := by simp [Chip.markDirty]
@[simp] theorem Chip.markDirty_cu (c : Chip) (p : Fin 12) (r : Fin 25) : (c.markDirty p r).cu = c.cu := by simp [Chip.markDirty]
@[simp] theorem Chip.markDirty_slc (c : Chip) (p : Fin 12) (r : Fin 25) : (c.markDirty p r).slc = c.slc := by simp [Chip.markDirty]
@[simp] theorem Chip.markDirty_pru (c : Chip) (p : Fin 12) (r : Fin 25) : (c.markDirty p r).pru = c.pru := by simp [Chip.markDirty]
@[simp] theorem Chip.markDirty_fd (c : Chip) (p : Fin 12) (r : Fin 25) : (c.markDirty p r).fd = c.fd := by simp [Chip.markDirty]
@[simp] theorem Chip.markDirty_hlc (c : Chip) (p : Fin 12) (r : Fin 25) : (c.markDirty p r).hlc = c.hlc := by simp [Chip.markDirty]
@[simp] theorem Chip.markDirty_pins (c : Chip) (p : Fin 12) (r : Fin 25) : (c.markDirty p r).pins = c.pins := by simp [Chip.markDirty]
@[simp] theorem Chip.markDirty_free (c : Chip) (p : Fin 12) (r : Fin 25) : (c.markDirty p r).free = c.free := by simp [Chip.markDirty]

/-! `markAll` -/
@[simp] theorem Chip.markAll_ap (c : Chip) (p : Fin 12) : (c.markAll p).ap = c.ap := by simp [Chip.markAll]
@[simp] theorem Chip.markAll_own (c : Chip) (p : Fin 12) : (c.markAll p).own = c.own := by simp [Chip.markAll]
@[simp] theorem Chip.markAll_su (c : Chip) (p : Fin 12) : (c.markAll p).su = c.su := by simp [Chip.markAll]
@[simp] theorem Chip.markAll_ju (c : Chip) (p : Fin 12) : (c.markAll p).ju = c.ju := by simp [Chip.markAll]
@[simp] theorem Chip.markAll_cu (c : Chip) (p : Fin 12) : (c.markAll p).cu = c.cu := by simp [Chip.markAll]
@[simp] theorem Chip.markAll_slc (c : Chip) (p : Fin 12) : (c.markAll p).slc = c.slc := by simp [Chip.markAll]
@[simp] theorem Chip.markAll_pru (c : Chip) (p : Fin 12) : (c.markAll p).pru = c.pru := by simp [Chip.markAll]
@[simp] theorem Chip.markAll_fd (c : Chip) (p : Fin 12) : (c.markAll p).fd = c.fd := by simp [Chip.markAll]
@[simp] theorem Chip.markAll_hlc (c : Chip) (p : Fin 12) : (c.markAll p).hlc = c.hlc := by simp [Chip.markAll]
@[simp] theorem Chip.markAll_pins (c : Chip) (p : Fin 12) : (c.markAll p).pins = c.pins := by simp [Chip.markAll]
@[simp] theorem Chip.markAll_free (c : Chip) (p : Fin 12) : (c.markAll p).free = c.free := by simp [Chip.markAll]

/-! `takeRow` -/
@[simp] theorem Chip.takeRow_ap (c : Chip) (p : Fin 12) (r : Fin 25) : (c.takeRow p r).ap = c.ap := by simp [Chip.takeRow]
@[simp] theorem Chip.takeRow_own (c : Chip) (p : Fin 12) (r : Fin 25) : (c.takeRow p r).own = c.own := by simp [Chip.takeRow]
@[simp] theorem Chip.takeRow_su (c : Chip) (p : Fin 12) (r : Fin 25) : (c.takeRow p r).su = c.su := by simp [Chip.takeRow]
@[simp] theorem Chip.takeRow_ju (c : Chip) (p : Fin 12) (r : Fin 25) : (c.takeRow p r).ju = c.ju := by simp [Chip.takeRow]
@[simp] theorem Chip.takeRow_cu (c : Chip) (p : Fin 12) (r : Fin 25) : (c.takeRow p r).cu = c.cu := by simp [Chip.takeRow]
@[simp] theorem Chip.takeRow_slc (c : Chip) (p : Fin 12) (r : Fin 25) : (c.takeRow p r).slc = c.slc := by simp [Chip.takeRow]
@[simp] theorem Chip.takeRow_pru (c : Chip) (p : Fin 12) (r : Fin 25) : (c.takeRow p r).pru = c.pru := by simp [Chip.takeRow]
@[simp] theorem Chip.takeRow_fd (c : Chip) (p : Fin 12) (r : Fin 25) : (c.takeRow p r).fd = c.fd := by simp [Chip.takeRow]
@[simp] theorem Chip.takeRow_hlc (c : Chip) (p : Fin 12) (r : Fin 25) : (c.takeRow p r).hlc = c.hlc := by simp [Chip.takeRow]
@[simp] theorem Chip.takeRow_pins (c : Chip) (p : Fin 12) (r : Fin 25) : (c.takeRow p r).pins = c.pins := by simp [Chip.takeRow]
@[simp] theorem Chip.takeRow_free (c : Chip) (p : Fin 12) (r : Fin 25) : (c.takeRow p r).free = c.free := by simp [Chip.takeRow]

/-! `readBegun` -/
@[simp] theorem Chip.readBegun_ap (c : Chip) (p : Fin 12) : (c.readBegun p).ap = c.ap := by simp [Chip.readBegun]
@[simp] theorem Chip.readBegun_own (c : Chip) (p : Fin 12) : (c.readBegun p).own = c.own := by simp [Chip.readBegun]
@[simp] theorem Chip.readBegun_su (c : Chip) (p : Fin 12) : (c.readBegun p).su = c.su := by simp [Chip.readBegun]
@[simp] theorem Chip.readBegun_ju (c : Chip) (p : Fin 12) : (c.readBegun p).ju = c.ju := by simp [Chip.readBegun]
@[simp] theorem Chip.readBegun_cu (c : Chip) (p : Fin 12) : (c.readBegun p).cu = c.cu := by simp [Chip.readBegun]
@[simp] theorem Chip.readBegun_slc (c : Chip) (p : Fin 12) : (c.readBegun p).slc = c.slc := by simp [Chip.readBegun]
@[simp] theorem Chip.readBegun_pru (c : Chip) (p : Fin 12) : (c.readBegun p).pru = c.pru := by simp [Chip.readBegun]
@[simp] theorem Chip.readBegun_fd (c : Chip) (p : Fin 12) : (c.readBegun p).fd = c.fd := by simp [Chip.readBegun]
@[simp] theorem Chip.readBegun_hlc (c : Chip) (p : Fin 12) : (c.readBegun p).hlc = c.hlc := by simp [Chip.readBegun]
@[simp] theorem Chip.readBegun_pins (c : Chip) (p : Fin 12) : (c.readBegun p).pins = c.pins := by simp [Chip.readBegun]
@[simp] theorem Chip.readBegun_free (c : Chip) (p : Fin 12) : (c.readBegun p).free = c.free := by simp [Chip.readBegun]

/-! `abandonSweep` -/
@[simp] theorem Chip.abandonSweep_ap (c : Chip) (p : Fin 12) : (c.abandonSweep p).ap = c.ap := by simp [Chip.abandonSweep]
@[simp] theorem Chip.abandonSweep_own (c : Chip) (p : Fin 12) : (c.abandonSweep p).own = c.own := by simp [Chip.abandonSweep]
@[simp] theorem Chip.abandonSweep_su (c : Chip) (p : Fin 12) : (c.abandonSweep p).su = c.su := by simp [Chip.abandonSweep]
@[simp] theorem Chip.abandonSweep_ju (c : Chip) (p : Fin 12) : (c.abandonSweep p).ju = c.ju := by simp [Chip.abandonSweep]
@[simp] theorem Chip.abandonSweep_cu (c : Chip) (p : Fin 12) : (c.abandonSweep p).cu = c.cu := by simp [Chip.abandonSweep]
@[simp] theorem Chip.abandonSweep_slc (c : Chip) (p : Fin 12) : (c.abandonSweep p).slc = c.slc := by simp [Chip.abandonSweep]
@[simp] theorem Chip.abandonSweep_pru (c : Chip) (p : Fin 12) : (c.abandonSweep p).pru = c.pru := by simp [Chip.abandonSweep]
@[simp] theorem Chip.abandonSweep_fd (c : Chip) (p : Fin 12) : (c.abandonSweep p).fd = c.fd := by simp [Chip.abandonSweep]
@[simp] theorem Chip.abandonSweep_hlc (c : Chip) (p : Fin 12) : (c.abandonSweep p).hlc = c.hlc := by simp [Chip.abandonSweep]
@[simp] theorem Chip.abandonSweep_pins (c : Chip) (p : Fin 12) : (c.abandonSweep p).pins = c.pins := by simp [Chip.abandonSweep]
@[simp] theorem Chip.abandonSweep_free (c : Chip) (p : Fin 12) : (c.abandonSweep p).free = c.free := by simp [Chip.abandonSweep]

/-! `restartIdle` -/
@[simp] theorem Chip.restartIdle_ap (c : Chip) (p : Fin 12) : (c.restartIdle p).ap = c.ap := by simp [Chip.restartIdle]
@[simp] theorem Chip.restartIdle_own (c : Chip) (p : Fin 12) : (c.restartIdle p).own = c.own := by simp [Chip.restartIdle]
@[simp] theorem Chip.restartIdle_su (c : Chip) (p : Fin 12) : (c.restartIdle p).su = c.su := by simp [Chip.restartIdle]
@[simp] theorem Chip.restartIdle_ju (c : Chip) (p : Fin 12) : (c.restartIdle p).ju = c.ju := by simp [Chip.restartIdle]
@[simp] theorem Chip.restartIdle_cu (c : Chip) (p : Fin 12) : (c.restartIdle p).cu = c.cu := by simp [Chip.restartIdle]
@[simp] theorem Chip.restartIdle_slc (c : Chip) (p : Fin 12) : (c.restartIdle p).slc = c.slc := by simp [Chip.restartIdle]
@[simp] theorem Chip.restartIdle_pru (c : Chip) (p : Fin 12) : (c.restartIdle p).pru = c.pru := by simp [Chip.restartIdle]
@[simp] theorem Chip.restartIdle_fd (c : Chip) (p : Fin 12) : (c.restartIdle p).fd = c.fd := by simp [Chip.restartIdle]
@[simp] theorem Chip.restartIdle_hlc (c : Chip) (p : Fin 12) : (c.restartIdle p).hlc = c.hlc := by simp [Chip.restartIdle]
@[simp] theorem Chip.restartIdle_pins (c : Chip) (p : Fin 12) : (c.restartIdle p).pins = c.pins := by simp [Chip.restartIdle]
@[simp] theorem Chip.restartIdle_free (c : Chip) (p : Fin 12) : (c.restartIdle p).free = c.free := by simp [Chip.restartIdle]

/-! `ring` -/
@[simp] theorem Chip.ring_ap (c : Chip) (p : Fin 12) : (c.ring p).ap = c.ap := by simp [Chip.ring]
@[simp] theorem Chip.ring_own (c : Chip) (p : Fin 12) : (c.ring p).own = c.own := by simp [Chip.ring]
@[simp] theorem Chip.ring_su (c : Chip) (p : Fin 12) : (c.ring p).su = c.su := by simp [Chip.ring]
@[simp] theorem Chip.ring_ju (c : Chip) (p : Fin 12) : (c.ring p).ju = c.ju := by simp [Chip.ring]
@[simp] theorem Chip.ring_cu (c : Chip) (p : Fin 12) : (c.ring p).cu = c.cu := by simp [Chip.ring]
@[simp] theorem Chip.ring_slc (c : Chip) (p : Fin 12) : (c.ring p).slc = c.slc := by simp [Chip.ring]
@[simp] theorem Chip.ring_pru (c : Chip) (p : Fin 12) : (c.ring p).pru = c.pru := by simp [Chip.ring]
@[simp] theorem Chip.ring_fd (c : Chip) (p : Fin 12) : (c.ring p).fd = c.fd := by simp [Chip.ring]
@[simp] theorem Chip.ring_hlc (c : Chip) (p : Fin 12) : (c.ring p).hlc = c.hlc := by simp [Chip.ring]
@[simp] theorem Chip.ring_pins (c : Chip) (p : Fin 12) : (c.ring p).pins = c.pins := by simp [Chip.ring]
@[simp] theorem Chip.ring_free (c : Chip) (p : Fin 12) : (c.ring p).free = c.free := by simp [Chip.ring]

/-! `sweepStart` -/
@[simp] theorem Chip.sweepStart_ap (c : Chip) (p : Fin 12) : (c.sweepStart p).ap = c.ap := by simp [Chip.sweepStart, apply_ite Chip.ap]
@[simp] theorem Chip.sweepStart_own (c : Chip) (p : Fin 12) : (c.sweepStart p).own = c.own := by simp [Chip.sweepStart, apply_ite Chip.own]
@[simp] theorem Chip.sweepStart_su (c : Chip) (p : Fin 12) : (c.sweepStart p).su = c.su := by simp [Chip.sweepStart, apply_ite Chip.su]
@[simp] theorem Chip.sweepStart_ju (c : Chip) (p : Fin 12) : (c.sweepStart p).ju = c.ju := by simp [Chip.sweepStart, apply_ite Chip.ju]
@[simp] theorem Chip.sweepStart_cu (c : Chip) (p : Fin 12) : (c.sweepStart p).cu = c.cu := by simp [Chip.sweepStart, apply_ite Chip.cu]
@[simp] theorem Chip.sweepStart_slc (c : Chip) (p : Fin 12) : (c.sweepStart p).slc = c.slc := by simp [Chip.sweepStart, apply_ite Chip.slc]
@[simp] theorem Chip.sweepStart_pru (c : Chip) (p : Fin 12) : (c.sweepStart p).pru = c.pru := by simp [Chip.sweepStart, apply_ite Chip.pru]
@[simp] theorem Chip.sweepStart_fd (c : Chip) (p : Fin 12) : (c.sweepStart p).fd = c.fd := by simp [Chip.sweepStart, apply_ite Chip.fd]
@[simp] theorem Chip.sweepStart_hlc (c : Chip) (p : Fin 12) : (c.sweepStart p).hlc = c.hlc := by simp [Chip.sweepStart, apply_ite Chip.hlc]
@[simp] theorem Chip.sweepStart_pins (c : Chip) (p : Fin 12) : (c.sweepStart p).pins = c.pins := by simp [Chip.sweepStart, apply_ite Chip.pins]
@[simp] theorem Chip.sweepStart_free (c : Chip) (p : Fin 12) : (c.sweepStart p).free = c.free := by simp [Chip.sweepStart, apply_ite Chip.free]

/-! `scuLineReset` -/
@[simp] theorem Chip.scuLineReset_ap (c : Chip) (p : Fin 12) : (c.scuLineReset p).ap = c.ap := by simp [Chip.scuLineReset]
@[simp] theorem Chip.scuLineReset_own (c : Chip) (p : Fin 12) : (c.scuLineReset p).own = c.own := by simp [Chip.scuLineReset]
@[simp] theorem Chip.scuLineReset_su (c : Chip) (p : Fin 12) : (c.scuLineReset p).su = c.su := by simp [Chip.scuLineReset]
@[simp] theorem Chip.scuLineReset_ju (c : Chip) (p : Fin 12) : (c.scuLineReset p).ju = c.ju := by simp [Chip.scuLineReset]
@[simp] theorem Chip.scuLineReset_cu (c : Chip) (p : Fin 12) : (c.scuLineReset p).cu = c.cu := by simp [Chip.scuLineReset]
@[simp] theorem Chip.scuLineReset_slc (c : Chip) (p : Fin 12) : (c.scuLineReset p).slc = c.slc := by simp [Chip.scuLineReset]
@[simp] theorem Chip.scuLineReset_pru (c : Chip) (p : Fin 12) : (c.scuLineReset p).pru = c.pru := by simp [Chip.scuLineReset]
@[simp] theorem Chip.scuLineReset_fd (c : Chip) (p : Fin 12) : (c.scuLineReset p).fd = c.fd := by simp [Chip.scuLineReset]
@[simp] theorem Chip.scuLineReset_hlc (c : Chip) (p : Fin 12) : (c.scuLineReset p).hlc = c.hlc := by simp [Chip.scuLineReset]
@[simp] theorem Chip.scuLineReset_pins (c : Chip) (p : Fin 12) : (c.scuLineReset p).pins = c.pins := by simp [Chip.scuLineReset]
@[simp] theorem Chip.scuLineReset_free (c : Chip) (p : Fin 12) : (c.scuLineReset p).free = c.free := by simp [Chip.scuLineReset]

/-! `sweepCheck` -/
@[simp] theorem Chip.sweepCheck_ap (c : Chip) (p : Fin 12) : (c.sweepCheck p).ap = c.ap := by simp [Chip.sweepCheck, apply_ite Chip.ap]
@[simp] theorem Chip.sweepCheck_su (c : Chip) (p : Fin 12) : (c.sweepCheck p).su = c.su := by simp [Chip.sweepCheck, apply_ite Chip.su]
@[simp] theorem Chip.sweepCheck_ju (c : Chip) (p : Fin 12) : (c.sweepCheck p).ju = c.ju := by simp [Chip.sweepCheck, apply_ite Chip.ju]
@[simp] theorem Chip.sweepCheck_cu (c : Chip) (p : Fin 12) : (c.sweepCheck p).cu = c.cu := by simp [Chip.sweepCheck, apply_ite Chip.cu]
@[simp] theorem Chip.sweepCheck_slc (c : Chip) (p : Fin 12) : (c.sweepCheck p).slc = c.slc := by simp [Chip.sweepCheck, apply_ite Chip.slc]
@[simp] theorem Chip.sweepCheck_pru (c : Chip) (p : Fin 12) : (c.sweepCheck p).pru = c.pru := by simp [Chip.sweepCheck, apply_ite Chip.pru]
@[simp] theorem Chip.sweepCheck_fd (c : Chip) (p : Fin 12) : (c.sweepCheck p).fd = c.fd := by simp [Chip.sweepCheck, apply_ite Chip.fd]
@[simp] theorem Chip.sweepCheck_hlc (c : Chip) (p : Fin 12) : (c.sweepCheck p).hlc = c.hlc := by simp [Chip.sweepCheck, apply_ite Chip.hlc]
@[simp] theorem Chip.sweepCheck_pins (c : Chip) (p : Fin 12) : (c.sweepCheck p).pins = c.pins := by simp [Chip.sweepCheck, apply_ite Chip.pins]
@[simp] theorem Chip.sweepCheck_free (c : Chip) (p : Fin 12) : (c.sweepCheck p).free = c.free := by simp [Chip.sweepCheck, apply_ite Chip.free]

/-! `rowEnds` -/
@[simp] theorem Chip.rowEnds_ap (c : Chip) (p : Fin 12) (b : Bool) : (c.rowEnds p b).ap = c.ap := by simp [Chip.rowEnds]
@[simp] theorem Chip.rowEnds_su (c : Chip) (p : Fin 12) (b : Bool) : (c.rowEnds p b).su = c.su := by simp [Chip.rowEnds]
@[simp] theorem Chip.rowEnds_ju (c : Chip) (p : Fin 12) (b : Bool) : (c.rowEnds p b).ju = c.ju := by simp [Chip.rowEnds]
@[simp] theorem Chip.rowEnds_cu (c : Chip) (p : Fin 12) (b : Bool) : (c.rowEnds p b).cu = c.cu := by simp [Chip.rowEnds]
@[simp] theorem Chip.rowEnds_slc (c : Chip) (p : Fin 12) (b : Bool) : (c.rowEnds p b).slc = c.slc := by simp [Chip.rowEnds]
@[simp] theorem Chip.rowEnds_pru (c : Chip) (p : Fin 12) (b : Bool) : (c.rowEnds p b).pru = c.pru := by simp [Chip.rowEnds]
@[simp] theorem Chip.rowEnds_fd (c : Chip) (p : Fin 12) (b : Bool) : (c.rowEnds p b).fd = c.fd := by simp [Chip.rowEnds]
@[simp] theorem Chip.rowEnds_hlc (c : Chip) (p : Fin 12) (b : Bool) : (c.rowEnds p b).hlc = c.hlc := by simp [Chip.rowEnds]
@[simp] theorem Chip.rowEnds_pins (c : Chip) (p : Fin 12) (b : Bool) : (c.rowEnds p b).pins = c.pins := by simp [Chip.rowEnds]
@[simp] theorem Chip.rowEnds_free (c : Chip) (p : Fin 12) (b : Bool) : (c.rowEnds p b).free = c.free := by simp [Chip.rowEnds]

/-! `writeMode` -/
@[simp] theorem Chip.writeMode_ap (c : Chip) (p : Fin 12) (b : Bool) : (c.writeMode p b).ap = c.ap := by simp [Chip.writeMode]
@[simp] theorem Chip.writeMode_su (c : Chip) (p : Fin 12) (b : Bool) : (c.writeMode p b).su = c.su := by simp [Chip.writeMode]
@[simp] theorem Chip.writeMode_ju (c : Chip) (p : Fin 12) (b : Bool) : (c.writeMode p b).ju = c.ju := by simp [Chip.writeMode]
@[simp] theorem Chip.writeMode_cu (c : Chip) (p : Fin 12) (b : Bool) : (c.writeMode p b).cu = c.cu := by simp [Chip.writeMode]
@[simp] theorem Chip.writeMode_slc (c : Chip) (p : Fin 12) (b : Bool) : (c.writeMode p b).slc = c.slc := by simp [Chip.writeMode]
@[simp] theorem Chip.writeMode_pru (c : Chip) (p : Fin 12) (b : Bool) : (c.writeMode p b).pru = c.pru := by simp [Chip.writeMode]
@[simp] theorem Chip.writeMode_fd (c : Chip) (p : Fin 12) (b : Bool) : (c.writeMode p b).fd = c.fd := by simp [Chip.writeMode]
@[simp] theorem Chip.writeMode_hlc (c : Chip) (p : Fin 12) (b : Bool) : (c.writeMode p b).hlc = c.hlc := by simp [Chip.writeMode]
@[simp] theorem Chip.writeMode_pins (c : Chip) (p : Fin 12) (b : Bool) : (c.writeMode p b).pins = c.pins := by simp [Chip.writeMode]
@[simp] theorem Chip.writeMode_free (c : Chip) (p : Fin 12) (b : Bool) : (c.writeMode p b).free = c.free := by simp [Chip.writeMode]

/-! `withdraw` -/
@[simp] theorem Chip.withdraw_ap (c : Chip) (p : Fin 12) : (c.withdraw p).ap = c.ap := by simp [Chip.withdraw]
@[simp] theorem Chip.withdraw_own (c : Chip) (p : Fin 12) : (c.withdraw p).own = c.own := by simp [Chip.withdraw]
@[simp] theorem Chip.withdraw_su (c : Chip) (p : Fin 12) : (c.withdraw p).su = c.su := by simp [Chip.withdraw]
@[simp] theorem Chip.withdraw_ju (c : Chip) (p : Fin 12) : (c.withdraw p).ju = c.ju := by simp [Chip.withdraw]
@[simp] theorem Chip.withdraw_cu (c : Chip) (p : Fin 12) : (c.withdraw p).cu = c.cu := by simp [Chip.withdraw]
@[simp] theorem Chip.withdraw_scu (c : Chip) (p : Fin 12) : (c.withdraw p).scu = c.scu := by simp [Chip.withdraw]
@[simp] theorem Chip.withdraw_pru (c : Chip) (p : Fin 12) : (c.withdraw p).pru = c.pru := by simp [Chip.withdraw]
@[simp] theorem Chip.withdraw_fd (c : Chip) (p : Fin 12) : (c.withdraw p).fd = c.fd := by simp [Chip.withdraw]
@[simp] theorem Chip.withdraw_hlc (c : Chip) (p : Fin 12) : (c.withdraw p).hlc = c.hlc := by simp [Chip.withdraw]
@[simp] theorem Chip.withdraw_pins (c : Chip) (p : Fin 12) : (c.withdraw p).pins = c.pins := by simp [Chip.withdraw]
@[simp] theorem Chip.withdraw_free (c : Chip) (p : Fin 12) : (c.withdraw p).free = c.free := by simp [Chip.withdraw]

/-! `modeChanged` -/
@[simp] theorem Chip.modeChanged_ap (c : Chip) (p : Fin 12) (old : Mode) (b : Bool) : (c.modeChanged p old b).ap = c.ap := by simp [Chip.modeChanged, apply_ite Chip.ap]
@[simp] theorem Chip.modeChanged_su (c : Chip) (p : Fin 12) (old : Mode) (b : Bool) : (c.modeChanged p old b).su = c.su := by simp [Chip.modeChanged, apply_ite Chip.su]
@[simp] theorem Chip.modeChanged_ju (c : Chip) (p : Fin 12) (old : Mode) (b : Bool) : (c.modeChanged p old b).ju = c.ju := by simp [Chip.modeChanged, apply_ite Chip.ju]
@[simp] theorem Chip.modeChanged_cu (c : Chip) (p : Fin 12) (old : Mode) (b : Bool) : (c.modeChanged p old b).cu = c.cu := by simp [Chip.modeChanged, apply_ite Chip.cu]
@[simp] theorem Chip.modeChanged_pru (c : Chip) (p : Fin 12) (old : Mode) (b : Bool) : (c.modeChanged p old b).pru = c.pru := by simp [Chip.modeChanged, apply_ite Chip.pru]
@[simp] theorem Chip.modeChanged_fd (c : Chip) (p : Fin 12) (old : Mode) (b : Bool) : (c.modeChanged p old b).fd = c.fd := by simp [Chip.modeChanged, apply_ite Chip.fd]
@[simp] theorem Chip.modeChanged_hlc (c : Chip) (p : Fin 12) (old : Mode) (b : Bool) : (c.modeChanged p old b).hlc = c.hlc := by simp [Chip.modeChanged, apply_ite Chip.hlc]
@[simp] theorem Chip.modeChanged_pins (c : Chip) (p : Fin 12) (old : Mode) (b : Bool) : (c.modeChanged p old b).pins = c.pins := by simp [Chip.modeChanged, apply_ite Chip.pins]
@[simp] theorem Chip.modeChanged_free (c : Chip) (p : Fin 12) (old : Mode) (b : Bool) : (c.modeChanged p old b).free = c.free := by simp [Chip.modeChanged, apply_ite Chip.free]

/-! `decidePlain` -/
@[simp] theorem Chip.decidePlain_ap (c : Chip) (p : Fin 12) : (c.decidePlain p).ap = c.ap := by simp [Chip.decidePlain, apply_ite Chip.ap]
@[simp] theorem Chip.decidePlain_su (c : Chip) (p : Fin 12) : (c.decidePlain p).su = c.su := by simp [Chip.decidePlain, apply_ite Chip.su]
@[simp] theorem Chip.decidePlain_ju (c : Chip) (p : Fin 12) : (c.decidePlain p).ju = c.ju := by simp [Chip.decidePlain, apply_ite Chip.ju]
@[simp] theorem Chip.decidePlain_cu (c : Chip) (p : Fin 12) : (c.decidePlain p).cu = c.cu := by simp [Chip.decidePlain, apply_ite Chip.cu]
@[simp] theorem Chip.decidePlain_pru (c : Chip) (p : Fin 12) : (c.decidePlain p).pru = c.pru := by simp [Chip.decidePlain, apply_ite Chip.pru]
@[simp] theorem Chip.decidePlain_fd (c : Chip) (p : Fin 12) : (c.decidePlain p).fd = c.fd := by simp [Chip.decidePlain, apply_ite Chip.fd]
@[simp] theorem Chip.decidePlain_hlc (c : Chip) (p : Fin 12) : (c.decidePlain p).hlc = c.hlc := by simp [Chip.decidePlain, apply_ite Chip.hlc]
@[simp] theorem Chip.decidePlain_pins (c : Chip) (p : Fin 12) : (c.decidePlain p).pins = c.pins := by simp [Chip.decidePlain, apply_ite Chip.pins]
@[simp] theorem Chip.decidePlain_free (c : Chip) (p : Fin 12) : (c.decidePlain p).free = c.free := by simp [Chip.decidePlain, apply_ite Chip.free]

/-! `serveScreenMode` -/
@[simp] theorem Chip.serveScreenMode_ap (c : Chip) (p : Fin 12) (m : Mode) (b : Bool) : (c.serveScreenMode p m b).ap = c.ap := by simp [Chip.serveScreenMode, apply_ite Chip.ap]
@[simp] theorem Chip.serveScreenMode_su (c : Chip) (p : Fin 12) (m : Mode) (b : Bool) : (c.serveScreenMode p m b).su = c.su := by simp [Chip.serveScreenMode, apply_ite Chip.su]
@[simp] theorem Chip.serveScreenMode_ju (c : Chip) (p : Fin 12) (m : Mode) (b : Bool) : (c.serveScreenMode p m b).ju = c.ju := by simp [Chip.serveScreenMode, apply_ite Chip.ju]
@[simp] theorem Chip.serveScreenMode_cu (c : Chip) (p : Fin 12) (m : Mode) (b : Bool) : (c.serveScreenMode p m b).cu = c.cu := by simp [Chip.serveScreenMode, apply_ite Chip.cu]
@[simp] theorem Chip.serveScreenMode_pru (c : Chip) (p : Fin 12) (m : Mode) (b : Bool) : (c.serveScreenMode p m b).pru = c.pru := by simp [Chip.serveScreenMode, apply_ite Chip.pru]
@[simp] theorem Chip.serveScreenMode_fd (c : Chip) (p : Fin 12) (m : Mode) (b : Bool) : (c.serveScreenMode p m b).fd = c.fd := by simp [Chip.serveScreenMode, apply_ite Chip.fd]
@[simp] theorem Chip.serveScreenMode_hlc (c : Chip) (p : Fin 12) (m : Mode) (b : Bool) : (c.serveScreenMode p m b).hlc = c.hlc := by simp [Chip.serveScreenMode, apply_ite Chip.hlc]
@[simp] theorem Chip.serveScreenMode_pins (c : Chip) (p : Fin 12) (m : Mode) (b : Bool) : (c.serveScreenMode p m b).pins = c.pins := by simp [Chip.serveScreenMode, apply_ite Chip.pins]
@[simp] theorem Chip.serveScreenMode_free (c : Chip) (p : Fin 12) (m : Mode) (b : Bool) : (c.serveScreenMode p m b).free = c.free := by simp [Chip.serveScreenMode, apply_ite Chip.free]

/-! `serveScreenRefresh` -/
@[simp] theorem Chip.serveScreenRefresh_ap (c : Chip) (p : Fin 12) : (c.serveScreenRefresh p).ap = c.ap := by simp [Chip.serveScreenRefresh]
@[simp] theorem Chip.serveScreenRefresh_su (c : Chip) (p : Fin 12) : (c.serveScreenRefresh p).su = c.su := by simp [Chip.serveScreenRefresh]
@[simp] theorem Chip.serveScreenRefresh_ju (c : Chip) (p : Fin 12) : (c.serveScreenRefresh p).ju = c.ju := by simp [Chip.serveScreenRefresh]
@[simp] theorem Chip.serveScreenRefresh_cu (c : Chip) (p : Fin 12) : (c.serveScreenRefresh p).cu = c.cu := by simp [Chip.serveScreenRefresh]
@[simp] theorem Chip.serveScreenRefresh_slc (c : Chip) (p : Fin 12) : (c.serveScreenRefresh p).slc = c.slc := by simp [Chip.serveScreenRefresh]
@[simp] theorem Chip.serveScreenRefresh_pru (c : Chip) (p : Fin 12) : (c.serveScreenRefresh p).pru = c.pru := by simp [Chip.serveScreenRefresh]
@[simp] theorem Chip.serveScreenRefresh_fd (c : Chip) (p : Fin 12) : (c.serveScreenRefresh p).fd = c.fd := by simp [Chip.serveScreenRefresh]
@[simp] theorem Chip.serveScreenRefresh_hlc (c : Chip) (p : Fin 12) : (c.serveScreenRefresh p).hlc = c.hlc := by simp [Chip.serveScreenRefresh]
@[simp] theorem Chip.serveScreenRefresh_pins (c : Chip) (p : Fin 12) : (c.serveScreenRefresh p).pins = c.pins := by simp [Chip.serveScreenRefresh]
@[simp] theorem Chip.serveScreenRefresh_free (c : Chip) (p : Fin 12) : (c.serveScreenRefresh p).free = c.free := by simp [Chip.serveScreenRefresh]

/-! `idleTimerExpiry` -/
@[simp] theorem Chip.idleTimerExpiry_ap (c : Chip) (p : Fin 12) : (c.idleTimerExpiry p).ap = c.ap := by simp [Chip.idleTimerExpiry, apply_ite Chip.ap]
@[simp] theorem Chip.idleTimerExpiry_ju (c : Chip) (p : Fin 12) : (c.idleTimerExpiry p).ju = c.ju := by simp [Chip.idleTimerExpiry, apply_ite Chip.ju]
@[simp] theorem Chip.idleTimerExpiry_cu (c : Chip) (p : Fin 12) : (c.idleTimerExpiry p).cu = c.cu := by simp [Chip.idleTimerExpiry, apply_ite Chip.cu]
@[simp] theorem Chip.idleTimerExpiry_pru (c : Chip) (p : Fin 12) : (c.idleTimerExpiry p).pru = c.pru := by simp [Chip.idleTimerExpiry, apply_ite Chip.pru]
@[simp] theorem Chip.idleTimerExpiry_fd (c : Chip) (p : Fin 12) : (c.idleTimerExpiry p).fd = c.fd := by simp [Chip.idleTimerExpiry, apply_ite Chip.fd]
@[simp] theorem Chip.idleTimerExpiry_hlc (c : Chip) (p : Fin 12) : (c.idleTimerExpiry p).hlc = c.hlc := by simp [Chip.idleTimerExpiry, apply_ite Chip.hlc]
@[simp] theorem Chip.idleTimerExpiry_pins (c : Chip) (p : Fin 12) : (c.idleTimerExpiry p).pins = c.pins := by simp [Chip.idleTimerExpiry, apply_ite Chip.pins]
@[simp] theorem Chip.idleTimerExpiry_free (c : Chip) (p : Fin 12) : (c.idleTimerExpiry p).free = c.free := by simp [Chip.idleTimerExpiry, apply_ite Chip.free]

/-! `scuAttached` -/
@[simp] theorem Chip.scuAttached_ap (c : Chip) (p : Fin 12) : (c.scuAttached p).ap = c.ap := by simp [Chip.scuAttached]
@[simp] theorem Chip.scuAttached_su (c : Chip) (p : Fin 12) : (c.scuAttached p).su = c.su := by simp [Chip.scuAttached]
@[simp] theorem Chip.scuAttached_ju (c : Chip) (p : Fin 12) : (c.scuAttached p).ju = c.ju := by simp [Chip.scuAttached]
@[simp] theorem Chip.scuAttached_cu (c : Chip) (p : Fin 12) : (c.scuAttached p).cu = c.cu := by simp [Chip.scuAttached]
@[simp] theorem Chip.scuAttached_pru (c : Chip) (p : Fin 12) : (c.scuAttached p).pru = c.pru := by simp [Chip.scuAttached]
@[simp] theorem Chip.scuAttached_fd (c : Chip) (p : Fin 12) : (c.scuAttached p).fd = c.fd := by simp [Chip.scuAttached]
@[simp] theorem Chip.scuAttached_hlc (c : Chip) (p : Fin 12) : (c.scuAttached p).hlc = c.hlc := by simp [Chip.scuAttached]
@[simp] theorem Chip.scuAttached_pins (c : Chip) (p : Fin 12) : (c.scuAttached p).pins = c.pins := by simp [Chip.scuAttached]
@[simp] theorem Chip.scuAttached_free (c : Chip) (p : Fin 12) : (c.scuAttached p).free = c.free := by simp [Chip.scuAttached]

/-! `fanNext` -/
@[simp] theorem Chip.fanNext_ap (c : Chip) : (c.fanNext).ap = c.ap := by
  unfold Chip.fanNext; (repeat' split) <;> simp
@[simp] theorem Chip.fanNext_su (c : Chip) : (c.fanNext).su = c.su := by
  unfold Chip.fanNext; (repeat' split) <;> simp
@[simp] theorem Chip.fanNext_ju (c : Chip) : (c.fanNext).ju = c.ju := by
  unfold Chip.fanNext; (repeat' split) <;> simp
@[simp] theorem Chip.fanNext_cu (c : Chip) : (c.fanNext).cu = c.cu := by
  unfold Chip.fanNext; (repeat' split) <;> simp
@[simp] theorem Chip.fanNext_slc (c : Chip) : (c.fanNext).slc = c.slc := by
  unfold Chip.fanNext; (repeat' split) <;> simp
@[simp] theorem Chip.fanNext_pru (c : Chip) : (c.fanNext).pru = c.pru := by
  unfold Chip.fanNext; (repeat' split) <;> simp
@[simp] theorem Chip.fanNext_fd (c : Chip) : (c.fanNext).fd = c.fd := by
  unfold Chip.fanNext; (repeat' split) <;> simp
@[simp] theorem Chip.fanNext_hlc (c : Chip) : (c.fanNext).hlc = c.hlc := by
  unfold Chip.fanNext; (repeat' split) <;> simp
@[simp] theorem Chip.fanNext_pins (c : Chip) : (c.fanNext).pins = c.pins := by
  unfold Chip.fanNext; (repeat' split) <;> simp
@[simp] theorem Chip.fanNext_free (c : Chip) : (c.fanNext).free = c.free := by
  unfold Chip.fanNext; (repeat' split) <;> simp

/-! `fanWritten` -/
@[simp] theorem Chip.fanWritten_ap (c : Chip) : (c.fanWritten).ap = c.ap := by
  unfold Chip.fanWritten; dsimp only; split <;> simp
@[simp] theorem Chip.fanWritten_su (c : Chip) : (c.fanWritten).su = c.su := by
  unfold Chip.fanWritten; dsimp only; split <;> simp
@[simp] theorem Chip.fanWritten_ju (c : Chip) : (c.fanWritten).ju = c.ju := by
  unfold Chip.fanWritten; dsimp only; split <;> simp
@[simp] theorem Chip.fanWritten_cu (c : Chip) : (c.fanWritten).cu = c.cu := by
  unfold Chip.fanWritten; dsimp only; split <;> simp
@[simp] theorem Chip.fanWritten_slc (c : Chip) : (c.fanWritten).slc = c.slc := by
  unfold Chip.fanWritten; dsimp only; split <;> simp
@[simp] theorem Chip.fanWritten_pru (c : Chip) : (c.fanWritten).pru = c.pru := by
  unfold Chip.fanWritten; dsimp only; split <;> simp
@[simp] theorem Chip.fanWritten_fd (c : Chip) : (c.fanWritten).fd = c.fd := by
  unfold Chip.fanWritten; dsimp only; split <;> simp
@[simp] theorem Chip.fanWritten_hlc (c : Chip) : (c.fanWritten).hlc = c.hlc := by
  unfold Chip.fanWritten; dsimp only; split <;> simp
@[simp] theorem Chip.fanWritten_pins (c : Chip) : (c.fanWritten).pins = c.pins := by
  unfold Chip.fanWritten; dsimp only; split <;> simp
@[simp] theorem Chip.fanWritten_free (c : Chip) : (c.fanWritten).free = c.free := by
  unfold Chip.fanWritten; dsimp only; split <;> simp

/-! `dropFanWrites` -/
@[simp] theorem Chip.dropFanWrites_ap (c : Chip) : (c.dropFanWrites).ap = c.ap := by
  unfold Chip.dropFanWrites; dsimp only; split <;> simp
@[simp] theorem Chip.dropFanWrites_su (c : Chip) : (c.dropFanWrites).su = c.su := by
  unfold Chip.dropFanWrites; dsimp only; split <;> simp
@[simp] theorem Chip.dropFanWrites_ju (c : Chip) : (c.dropFanWrites).ju = c.ju := by
  unfold Chip.dropFanWrites; dsimp only; split <;> simp
@[simp] theorem Chip.dropFanWrites_cu (c : Chip) : (c.dropFanWrites).cu = c.cu := by
  unfold Chip.dropFanWrites; dsimp only; split <;> simp
@[simp] theorem Chip.dropFanWrites_slc (c : Chip) : (c.dropFanWrites).slc = c.slc := by
  unfold Chip.dropFanWrites; dsimp only; split <;> simp
@[simp] theorem Chip.dropFanWrites_pru (c : Chip) : (c.dropFanWrites).pru = c.pru := by
  unfold Chip.dropFanWrites; dsimp only; split <;> simp
@[simp] theorem Chip.dropFanWrites_fd (c : Chip) : (c.dropFanWrites).fd = c.fd := by
  unfold Chip.dropFanWrites; dsimp only; split <;> simp
@[simp] theorem Chip.dropFanWrites_hlc (c : Chip) : (c.dropFanWrites).hlc = c.hlc := by
  unfold Chip.dropFanWrites; dsimp only; split <;> simp
@[simp] theorem Chip.dropFanWrites_pins (c : Chip) : (c.dropFanWrites).pins = c.pins := by
  unfold Chip.dropFanWrites; dsimp only; split <;> simp
@[simp] theorem Chip.dropFanWrites_free (c : Chip) : (c.dropFanWrites).free = c.free := by
  unfold Chip.dropFanWrites; dsimp only; split <;> simp

/-! `fanOutStart` -/
@[simp] theorem Chip.fanOutStart_ap (c : Chip) : (c.fanOutStart).ap = c.ap := by simp [Chip.fanOutStart, apply_ite Chip.ap]
@[simp] theorem Chip.fanOutStart_su (c : Chip) : (c.fanOutStart).su = c.su := by simp [Chip.fanOutStart, apply_ite Chip.su]
@[simp] theorem Chip.fanOutStart_ju (c : Chip) : (c.fanOutStart).ju = c.ju := by simp [Chip.fanOutStart, apply_ite Chip.ju]
@[simp] theorem Chip.fanOutStart_cu (c : Chip) : (c.fanOutStart).cu = c.cu := by simp [Chip.fanOutStart, apply_ite Chip.cu]
@[simp] theorem Chip.fanOutStart_slc (c : Chip) : (c.fanOutStart).slc = c.slc := by simp [Chip.fanOutStart, apply_ite Chip.slc]
@[simp] theorem Chip.fanOutStart_pru (c : Chip) : (c.fanOutStart).pru = c.pru := by simp [Chip.fanOutStart, apply_ite Chip.pru]
@[simp] theorem Chip.fanOutStart_fd (c : Chip) : (c.fanOutStart).fd = c.fd := by simp [Chip.fanOutStart, apply_ite Chip.fd]
@[simp] theorem Chip.fanOutStart_hlc (c : Chip) : (c.fanOutStart).hlc = c.hlc := by simp [Chip.fanOutStart, apply_ite Chip.hlc]
@[simp] theorem Chip.fanOutStart_pins (c : Chip) : (c.fanOutStart).pins = c.pins := by simp [Chip.fanOutStart, apply_ite Chip.pins]
@[simp] theorem Chip.fanOutStart_free (c : Chip) : (c.fanOutStart).free = c.free := by simp [Chip.fanOutStart, apply_ite Chip.free]

/-! `flashToggle` -/
@[simp] theorem Chip.flashToggle_ap (c : Chip) (p : Fin 12) : (c.flashToggle p).ap = c.ap := by simp [Chip.flashToggle, apply_ite Chip.ap]
@[simp] theorem Chip.flashToggle_su (c : Chip) (p : Fin 12) : (c.flashToggle p).su = c.su := by simp [Chip.flashToggle, apply_ite Chip.su]
@[simp] theorem Chip.flashToggle_ju (c : Chip) (p : Fin 12) : (c.flashToggle p).ju = c.ju := by simp [Chip.flashToggle, apply_ite Chip.ju]
@[simp] theorem Chip.flashToggle_cu (c : Chip) (p : Fin 12) : (c.flashToggle p).cu = c.cu := by simp [Chip.flashToggle, apply_ite Chip.cu]
@[simp] theorem Chip.flashToggle_slc (c : Chip) (p : Fin 12) : (c.flashToggle p).slc = c.slc := by simp [Chip.flashToggle, apply_ite Chip.slc]
@[simp] theorem Chip.flashToggle_pru (c : Chip) (p : Fin 12) : (c.flashToggle p).pru = c.pru := by simp [Chip.flashToggle, apply_ite Chip.pru]
@[simp] theorem Chip.flashToggle_fd (c : Chip) (p : Fin 12) : (c.flashToggle p).fd = c.fd := by simp [Chip.flashToggle, apply_ite Chip.fd]
@[simp] theorem Chip.flashToggle_hlc (c : Chip) (p : Fin 12) : (c.flashToggle p).hlc = c.hlc := by simp [Chip.flashToggle, apply_ite Chip.hlc]
@[simp] theorem Chip.flashToggle_pins (c : Chip) (p : Fin 12) : (c.flashToggle p).pins = c.pins := by simp [Chip.flashToggle, apply_ite Chip.pins]
@[simp] theorem Chip.flashToggle_free (c : Chip) (p : Fin 12) : (c.flashToggle p).free = c.free := by simp [Chip.flashToggle, apply_ite Chip.free]

/-! `statusRowRender` -/
@[simp] theorem Chip.statusRowRender_ap (c : Chip) : (c.statusRowRender).ap = c.ap := by
  unfold Chip.statusRowRender; dsimp only; (repeat' split) <;> simp
@[simp] theorem Chip.statusRowRender_su (c : Chip) : (c.statusRowRender).su = c.su := by
  unfold Chip.statusRowRender; dsimp only; (repeat' split) <;> simp
@[simp] theorem Chip.statusRowRender_ju (c : Chip) : (c.statusRowRender).ju = c.ju := by
  unfold Chip.statusRowRender; dsimp only; (repeat' split) <;> simp
@[simp] theorem Chip.statusRowRender_cu (c : Chip) : (c.statusRowRender).cu = c.cu := by
  unfold Chip.statusRowRender; dsimp only; (repeat' split) <;> simp
@[simp] theorem Chip.statusRowRender_slc (c : Chip) : (c.statusRowRender).slc = c.slc := by
  unfold Chip.statusRowRender; dsimp only; (repeat' split) <;> simp
@[simp] theorem Chip.statusRowRender_pru (c : Chip) : (c.statusRowRender).pru = c.pru := by
  unfold Chip.statusRowRender; dsimp only; (repeat' split) <;> simp
@[simp] theorem Chip.statusRowRender_fd (c : Chip) : (c.statusRowRender).fd = c.fd := by
  unfold Chip.statusRowRender; dsimp only; (repeat' split) <;> simp
@[simp] theorem Chip.statusRowRender_hlc (c : Chip) : (c.statusRowRender).hlc = c.hlc := by
  unfold Chip.statusRowRender; dsimp only; (repeat' split) <;> simp
@[simp] theorem Chip.statusRowRender_pins (c : Chip) : (c.statusRowRender).pins = c.pins := by
  unfold Chip.statusRowRender; dsimp only; (repeat' split) <;> simp
@[simp] theorem Chip.statusRowRender_free (c : Chip) : (c.statusRowRender).free = c.free := by
  unfold Chip.statusRowRender; dsimp only; (repeat' split) <;> simp

/-! `writeMirrors` -/
@[simp] theorem Chip.writeMirrors_ap (c : Chip) (is : List (Fin 13)) (k : After) : (c.writeMirrors is k).ap = c.ap := by
  unfold Chip.writeMirrors; (repeat' split) <;> simp
@[simp] theorem Chip.writeMirrors_su (c : Chip) (is : List (Fin 13)) (k : After) : (c.writeMirrors is k).su = c.su := by
  unfold Chip.writeMirrors; (repeat' split) <;> simp
@[simp] theorem Chip.writeMirrors_ju (c : Chip) (is : List (Fin 13)) (k : After) : (c.writeMirrors is k).ju = c.ju := by
  unfold Chip.writeMirrors; (repeat' split) <;> simp
@[simp] theorem Chip.writeMirrors_cu (c : Chip) (is : List (Fin 13)) (k : After) : (c.writeMirrors is k).cu = c.cu := by
  unfold Chip.writeMirrors; (repeat' split) <;> simp
@[simp] theorem Chip.writeMirrors_scu (c : Chip) (is : List (Fin 13)) (k : After) : (c.writeMirrors is k).scu = c.scu := by
  unfold Chip.writeMirrors; (repeat' split) <;> simp
@[simp] theorem Chip.writeMirrors_slc (c : Chip) (is : List (Fin 13)) (k : After) : (c.writeMirrors is k).slc = c.slc := by
  unfold Chip.writeMirrors; (repeat' split) <;> simp
@[simp] theorem Chip.writeMirrors_pru (c : Chip) (is : List (Fin 13)) (k : After) : (c.writeMirrors is k).pru = c.pru := by
  unfold Chip.writeMirrors; (repeat' split) <;> simp
@[simp] theorem Chip.writeMirrors_fd (c : Chip) (is : List (Fin 13)) (k : After) : (c.writeMirrors is k).fd = c.fd := by
  unfold Chip.writeMirrors; (repeat' split) <;> simp
@[simp] theorem Chip.writeMirrors_hlc (c : Chip) (is : List (Fin 13)) (k : After) : (c.writeMirrors is k).hlc = c.hlc := by
  unfold Chip.writeMirrors; (repeat' split) <;> simp
@[simp] theorem Chip.writeMirrors_pins (c : Chip) (is : List (Fin 13)) (k : After) : (c.writeMirrors is k).pins = c.pins := by
  unfold Chip.writeMirrors; (repeat' split) <;> simp
@[simp] theorem Chip.writeMirrors_free (c : Chip) (is : List (Fin 13)) (k : After) : (c.writeMirrors is k).free = c.free := by
  unfold Chip.writeMirrors; (repeat' split) <;> simp

/-! `writeRunning` -/
@[simp] theorem Chip.writeRunning_ap (c : Chip) (k : After) : (c.writeRunning k).ap = c.ap := by simp [Chip.writeRunning]
@[simp] theorem Chip.writeRunning_su (c : Chip) (k : After) : (c.writeRunning k).su = c.su := by simp [Chip.writeRunning]
@[simp] theorem Chip.writeRunning_ju (c : Chip) (k : After) : (c.writeRunning k).ju = c.ju := by simp [Chip.writeRunning]
@[simp] theorem Chip.writeRunning_cu (c : Chip) (k : After) : (c.writeRunning k).cu = c.cu := by simp [Chip.writeRunning]
@[simp] theorem Chip.writeRunning_scu (c : Chip) (k : After) : (c.writeRunning k).scu = c.scu := by simp [Chip.writeRunning]
@[simp] theorem Chip.writeRunning_slc (c : Chip) (k : After) : (c.writeRunning k).slc = c.slc := by simp [Chip.writeRunning]
@[simp] theorem Chip.writeRunning_pru (c : Chip) (k : After) : (c.writeRunning k).pru = c.pru := by simp [Chip.writeRunning]
@[simp] theorem Chip.writeRunning_fd (c : Chip) (k : After) : (c.writeRunning k).fd = c.fd := by simp [Chip.writeRunning]
@[simp] theorem Chip.writeRunning_hlc (c : Chip) (k : After) : (c.writeRunning k).hlc = c.hlc := by simp [Chip.writeRunning]
@[simp] theorem Chip.writeRunning_pins (c : Chip) (k : After) : (c.writeRunning k).pins = c.pins := by simp [Chip.writeRunning]
@[simp] theorem Chip.writeRunning_free (c : Chip) (k : After) : (c.writeRunning k).free = c.free := by simp [Chip.writeRunning]

/-! `writeAnchor` -/
@[simp] theorem Chip.writeAnchor_ap (c : Chip) (k : After) : (c.writeAnchor k).ap = c.ap := by simp [Chip.writeAnchor]
@[simp] theorem Chip.writeAnchor_su (c : Chip) (k : After) : (c.writeAnchor k).su = c.su := by simp [Chip.writeAnchor]
@[simp] theorem Chip.writeAnchor_ju (c : Chip) (k : After) : (c.writeAnchor k).ju = c.ju := by simp [Chip.writeAnchor]
@[simp] theorem Chip.writeAnchor_cu (c : Chip) (k : After) : (c.writeAnchor k).cu = c.cu := by simp [Chip.writeAnchor]
@[simp] theorem Chip.writeAnchor_scu (c : Chip) (k : After) : (c.writeAnchor k).scu = c.scu := by simp [Chip.writeAnchor]
@[simp] theorem Chip.writeAnchor_slc (c : Chip) (k : After) : (c.writeAnchor k).slc = c.slc := by simp [Chip.writeAnchor]
@[simp] theorem Chip.writeAnchor_pru (c : Chip) (k : After) : (c.writeAnchor k).pru = c.pru := by simp [Chip.writeAnchor]
@[simp] theorem Chip.writeAnchor_fd (c : Chip) (k : After) : (c.writeAnchor k).fd = c.fd := by simp [Chip.writeAnchor]
@[simp] theorem Chip.writeAnchor_hlc (c : Chip) (k : After) : (c.writeAnchor k).hlc = c.hlc := by simp [Chip.writeAnchor]
@[simp] theorem Chip.writeAnchor_pins (c : Chip) (k : After) : (c.writeAnchor k).pins = c.pins := by simp [Chip.writeAnchor]
@[simp] theorem Chip.writeAnchor_free (c : Chip) (k : After) : (c.writeAnchor k).free = c.free := by simp [Chip.writeAnchor]

/-! `writeAnchorOutside` -/
@[simp] theorem Chip.writeAnchorOutside_ap (c : Chip) (k : After) : (c.writeAnchorOutside k).ap = c.ap := by simp [Chip.writeAnchorOutside]
@[simp] theorem Chip.writeAnchorOutside_su (c : Chip) (k : After) : (c.writeAnchorOutside k).su = c.su := by simp [Chip.writeAnchorOutside]
@[simp] theorem Chip.writeAnchorOutside_ju (c : Chip) (k : After) : (c.writeAnchorOutside k).ju = c.ju := by simp [Chip.writeAnchorOutside]
@[simp] theorem Chip.writeAnchorOutside_cu (c : Chip) (k : After) : (c.writeAnchorOutside k).cu = c.cu := by simp [Chip.writeAnchorOutside]
@[simp] theorem Chip.writeAnchorOutside_scu (c : Chip) (k : After) : (c.writeAnchorOutside k).scu = c.scu := by simp [Chip.writeAnchorOutside]
@[simp] theorem Chip.writeAnchorOutside_slc (c : Chip) (k : After) : (c.writeAnchorOutside k).slc = c.slc := by simp [Chip.writeAnchorOutside]
@[simp] theorem Chip.writeAnchorOutside_pru (c : Chip) (k : After) : (c.writeAnchorOutside k).pru = c.pru := by simp [Chip.writeAnchorOutside]
@[simp] theorem Chip.writeAnchorOutside_fd (c : Chip) (k : After) : (c.writeAnchorOutside k).fd = c.fd := by simp [Chip.writeAnchorOutside]
@[simp] theorem Chip.writeAnchorOutside_hlc (c : Chip) (k : After) : (c.writeAnchorOutside k).hlc = c.hlc := by simp [Chip.writeAnchorOutside]
@[simp] theorem Chip.writeAnchorOutside_pins (c : Chip) (k : After) : (c.writeAnchorOutside k).pins = c.pins := by simp [Chip.writeAnchorOutside]
@[simp] theorem Chip.writeAnchorOutside_free (c : Chip) (k : After) : (c.writeAnchorOutside k).free = c.free := by simp [Chip.writeAnchorOutside]

/-! `drawerNotice` -/
@[simp] theorem Chip.drawerNotice_ap (c : Chip) (i : Nat) : (c.drawerNotice i).ap = c.ap := by
  unfold Chip.drawerNotice; (repeat' split) <;> simp
@[simp] theorem Chip.drawerNotice_su (c : Chip) (i : Nat) : (c.drawerNotice i).su = c.su := by
  unfold Chip.drawerNotice; (repeat' split) <;> simp
@[simp] theorem Chip.drawerNotice_ju (c : Chip) (i : Nat) : (c.drawerNotice i).ju = c.ju := by
  unfold Chip.drawerNotice; (repeat' split) <;> simp
@[simp] theorem Chip.drawerNotice_cu (c : Chip) (i : Nat) : (c.drawerNotice i).cu = c.cu := by
  unfold Chip.drawerNotice; (repeat' split) <;> simp
@[simp] theorem Chip.drawerNotice_pru (c : Chip) (i : Nat) : (c.drawerNotice i).pru = c.pru := by
  unfold Chip.drawerNotice; (repeat' split) <;> simp
@[simp] theorem Chip.drawerNotice_fd (c : Chip) (i : Nat) : (c.drawerNotice i).fd = c.fd := by
  unfold Chip.drawerNotice; (repeat' split) <;> simp
@[simp] theorem Chip.drawerNotice_hlc (c : Chip) (i : Nat) : (c.drawerNotice i).hlc = c.hlc := by
  unfold Chip.drawerNotice; (repeat' split) <;> simp
@[simp] theorem Chip.drawerNotice_pins (c : Chip) (i : Nat) : (c.drawerNotice i).pins = c.pins := by
  unfold Chip.drawerNotice; (repeat' split) <;> simp
@[simp] theorem Chip.drawerNotice_free (c : Chip) (i : Nat) : (c.drawerNotice i).free = c.free := by
  unfold Chip.drawerNotice; (repeat' split) <;> simp

/-! `tellChanged` -/
@[simp] theorem Chip.tellChanged_ap (c : Chip) (before : Vector Drawer 13) : (c.tellChanged before).ap = c.ap :=
  foldl_keeps Chip.ap _ (by intros; split <;> simp) _ _
@[simp] theorem Chip.tellChanged_su (c : Chip) (before : Vector Drawer 13) : (c.tellChanged before).su = c.su :=
  foldl_keeps Chip.su _ (by intros; split <;> simp) _ _
@[simp] theorem Chip.tellChanged_ju (c : Chip) (before : Vector Drawer 13) : (c.tellChanged before).ju = c.ju :=
  foldl_keeps Chip.ju _ (by intros; split <;> simp) _ _
@[simp] theorem Chip.tellChanged_cu (c : Chip) (before : Vector Drawer 13) : (c.tellChanged before).cu = c.cu :=
  foldl_keeps Chip.cu _ (by intros; split <;> simp) _ _
@[simp] theorem Chip.tellChanged_pru (c : Chip) (before : Vector Drawer 13) : (c.tellChanged before).pru = c.pru :=
  foldl_keeps Chip.pru _ (by intros; split <;> simp) _ _
@[simp] theorem Chip.tellChanged_fd (c : Chip) (before : Vector Drawer 13) : (c.tellChanged before).fd = c.fd :=
  foldl_keeps Chip.fd _ (by intros; split <;> simp) _ _
@[simp] theorem Chip.tellChanged_hlc (c : Chip) (before : Vector Drawer 13) : (c.tellChanged before).hlc = c.hlc :=
  foldl_keeps Chip.hlc _ (by intros; split <;> simp) _ _
@[simp] theorem Chip.tellChanged_pins (c : Chip) (before : Vector Drawer 13) : (c.tellChanged before).pins = c.pins :=
  foldl_keeps Chip.pins _ (by intros; split <;> simp) _ _
@[simp] theorem Chip.tellChanged_free (c : Chip) (before : Vector Drawer 13) : (c.tellChanged before).free = c.free :=
  foldl_keeps Chip.free _ (by intros; split <;> simp) _ _

/-! `dayNotice` -/
@[simp] theorem Chip.dayNotice_ap (c : Chip) : (c.dayNotice).ap = c.ap := by
  unfold Chip.dayNotice; try dsimp only
  rw [Chip.statusEventAll_ap]
  split
  · rfl
  · exact foldl_keeps Chip.ap _ (by intros; simp) _ _
@[simp] theorem Chip.dayNotice_su (c : Chip) : (c.dayNotice).su = c.su := by
  unfold Chip.dayNotice; try dsimp only
  rw [Chip.statusEventAll_su]
  split
  · rfl
  · exact foldl_keeps Chip.su _ (by intros; simp) _ _
@[simp] theorem Chip.dayNotice_ju (c : Chip) : (c.dayNotice).ju = c.ju := by
  unfold Chip.dayNotice; try dsimp only
  rw [Chip.statusEventAll_ju]
  split
  · rfl
  · exact foldl_keeps Chip.ju _ (by intros; simp) _ _
@[simp] theorem Chip.dayNotice_cu (c : Chip) : (c.dayNotice).cu = c.cu := by
  unfold Chip.dayNotice; try dsimp only
  rw [Chip.statusEventAll_cu]
  split
  · rfl
  · exact foldl_keeps Chip.cu _ (by intros; simp) _ _
@[simp] theorem Chip.dayNotice_pru (c : Chip) : (c.dayNotice).pru = c.pru := by
  unfold Chip.dayNotice; try dsimp only
  rw [Chip.statusEventAll_pru]
  split
  · rfl
  · exact foldl_keeps Chip.pru _ (by intros; simp) _ _
@[simp] theorem Chip.dayNotice_fd (c : Chip) : (c.dayNotice).fd = c.fd := by
  unfold Chip.dayNotice; try dsimp only
  rw [Chip.statusEventAll_fd]
  split
  · rfl
  · exact foldl_keeps Chip.fd _ (by intros; simp) _ _
@[simp] theorem Chip.dayNotice_hlc (c : Chip) : (c.dayNotice).hlc = c.hlc := by
  unfold Chip.dayNotice; try dsimp only
  rw [Chip.statusEventAll_hlc]
  split
  · rfl
  · exact foldl_keeps Chip.hlc _ (by intros; simp) _ _
@[simp] theorem Chip.dayNotice_pins (c : Chip) : (c.dayNotice).pins = c.pins := by
  unfold Chip.dayNotice; try dsimp only
  rw [Chip.statusEventAll_pins]
  split
  · rfl
  · exact foldl_keeps Chip.pins _ (by intros; simp) _ _
@[simp] theorem Chip.dayNotice_free (c : Chip) : (c.dayNotice).free = c.free := by
  unfold Chip.dayNotice; try dsimp only
  rw [Chip.statusEventAll_free]
  split
  · rfl
  · exact foldl_keeps Chip.free _ (by intros; simp) _ _

/-! `judgeExcess` -/
@[simp] theorem Chip.judgeExcess_ap (c : Chip) (p : Fin 12) (d : Nat) : (c.judgeExcess p d).ap = c.ap := by simp [Chip.judgeExcess, apply_ite Chip.ap]
@[simp] theorem Chip.judgeExcess_ju (c : Chip) (p : Fin 12) (d : Nat) : (c.judgeExcess p d).ju = c.ju := by simp [Chip.judgeExcess, apply_ite Chip.ju]
@[simp] theorem Chip.judgeExcess_slc (c : Chip) (p : Fin 12) (d : Nat) : (c.judgeExcess p d).slc = c.slc := by simp [Chip.judgeExcess, apply_ite Chip.slc]
@[simp] theorem Chip.judgeExcess_pru (c : Chip) (p : Fin 12) (d : Nat) : (c.judgeExcess p d).pru = c.pru := by simp [Chip.judgeExcess, apply_ite Chip.pru]
@[simp] theorem Chip.judgeExcess_fd (c : Chip) (p : Fin 12) (d : Nat) : (c.judgeExcess p d).fd = c.fd := by simp [Chip.judgeExcess, apply_ite Chip.fd]
@[simp] theorem Chip.judgeExcess_hlc (c : Chip) (p : Fin 12) (d : Nat) : (c.judgeExcess p d).hlc = c.hlc := by simp [Chip.judgeExcess, apply_ite Chip.hlc]
@[simp] theorem Chip.judgeExcess_pins (c : Chip) (p : Fin 12) (d : Nat) : (c.judgeExcess p d).pins = c.pins := by simp [Chip.judgeExcess, apply_ite Chip.pins]
@[simp] theorem Chip.judgeExcess_free (c : Chip) (p : Fin 12) (d : Nat) : (c.judgeExcess p d).free = c.free := by simp [Chip.judgeExcess, apply_ite Chip.free]

/-! `ceilingChanged` -/
@[simp] theorem Chip.ceilingChanged_ap (c : Chip) (p : Fin 12) : (c.ceilingChanged p).ap = c.ap := by simp [Chip.ceilingChanged, apply_ite Chip.ap]
@[simp] theorem Chip.ceilingChanged_ju (c : Chip) (p : Fin 12) : (c.ceilingChanged p).ju = c.ju := by simp [Chip.ceilingChanged, apply_ite Chip.ju]
@[simp] theorem Chip.ceilingChanged_pru (c : Chip) (p : Fin 12) : (c.ceilingChanged p).pru = c.pru := by simp [Chip.ceilingChanged, apply_ite Chip.pru]
@[simp] theorem Chip.ceilingChanged_fd (c : Chip) (p : Fin 12) : (c.ceilingChanged p).fd = c.fd := by simp [Chip.ceilingChanged, apply_ite Chip.fd]
@[simp] theorem Chip.ceilingChanged_hlc (c : Chip) (p : Fin 12) : (c.ceilingChanged p).hlc = c.hlc := by simp [Chip.ceilingChanged, apply_ite Chip.hlc]
@[simp] theorem Chip.ceilingChanged_pins (c : Chip) (p : Fin 12) : (c.ceilingChanged p).pins = c.pins := by simp [Chip.ceilingChanged, apply_ite Chip.pins]
@[simp] theorem Chip.ceilingChanged_free (c : Chip) (p : Fin 12) : (c.ceilingChanged p).free = c.free := by simp [Chip.ceilingChanged, apply_ite Chip.free]

/-! `kindReports` -/
@[simp] theorem Chip.kindReports_ap (c : Chip) (k : RecordKind) (r : JRecord) : (c.kindReports k r).ap = c.ap := by
  unfold Chip.kindReports; (repeat' split) <;> simp
@[simp] theorem Chip.kindReports_ju (c : Chip) (k : RecordKind) (r : JRecord) : (c.kindReports k r).ju = c.ju := by
  unfold Chip.kindReports; (repeat' split) <;> simp
@[simp] theorem Chip.kindReports_cu (c : Chip) (k : RecordKind) (r : JRecord) : (c.kindReports k r).cu = c.cu := by
  unfold Chip.kindReports; (repeat' split) <;> simp
@[simp] theorem Chip.kindReports_slc (c : Chip) (k : RecordKind) (r : JRecord) : (c.kindReports k r).slc = c.slc := by
  unfold Chip.kindReports; (repeat' split) <;> simp
@[simp] theorem Chip.kindReports_pru (c : Chip) (k : RecordKind) (r : JRecord) : (c.kindReports k r).pru = c.pru := by
  unfold Chip.kindReports; (repeat' split) <;> simp
@[simp] theorem Chip.kindReports_fd (c : Chip) (k : RecordKind) (r : JRecord) : (c.kindReports k r).fd = c.fd := by
  unfold Chip.kindReports; (repeat' split) <;> simp
@[simp] theorem Chip.kindReports_hlc (c : Chip) (k : RecordKind) (r : JRecord) : (c.kindReports k r).hlc = c.hlc := by
  unfold Chip.kindReports; (repeat' split) <;> simp
@[simp] theorem Chip.kindReports_pins (c : Chip) (k : RecordKind) (r : JRecord) : (c.kindReports k r).pins = c.pins := by
  unfold Chip.kindReports; (repeat' split) <;> simp
@[simp] theorem Chip.kindReports_free (c : Chip) (k : RecordKind) (r : JRecord) : (c.kindReports k r).free = c.free := by
  unfold Chip.kindReports; (repeat' split) <;> simp

/-! `post` -/
@[simp] theorem Chip.post_ap (c : Chip) (o : OwnOp) (s : PostStep) : (c.post o s).ap = c.ap := by simp [Chip.post]
@[simp] theorem Chip.post_su (c : Chip) (o : OwnOp) (s : PostStep) : (c.post o s).su = c.su := by simp [Chip.post]
@[simp] theorem Chip.post_ju (c : Chip) (o : OwnOp) (s : PostStep) : (c.post o s).ju = c.ju := by simp [Chip.post]
@[simp] theorem Chip.post_cu (c : Chip) (o : OwnOp) (s : PostStep) : (c.post o s).cu = c.cu := by simp [Chip.post]
@[simp] theorem Chip.post_scu (c : Chip) (o : OwnOp) (s : PostStep) : (c.post o s).scu = c.scu := by simp [Chip.post]
@[simp] theorem Chip.post_slc (c : Chip) (o : OwnOp) (s : PostStep) : (c.post o s).slc = c.slc := by simp [Chip.post]
@[simp] theorem Chip.post_pru (c : Chip) (o : OwnOp) (s : PostStep) : (c.post o s).pru = c.pru := by simp [Chip.post]
@[simp] theorem Chip.post_fd (c : Chip) (o : OwnOp) (s : PostStep) : (c.post o s).fd = c.fd := by simp [Chip.post]
@[simp] theorem Chip.post_hlc (c : Chip) (o : OwnOp) (s : PostStep) : (c.post o s).hlc = c.hlc := by simp [Chip.post]
@[simp] theorem Chip.post_pins (c : Chip) (o : OwnOp) (s : PostStep) : (c.post o s).pins = c.pins := by simp [Chip.post]
@[simp] theorem Chip.post_free (c : Chip) (o : OwnOp) (s : PostStep) : (c.post o s).free = c.free := by simp [Chip.post]

/-! `refusePosting` -/
@[simp] theorem Chip.refusePosting_ap (c : Chip) (x : Fin 13) (r : Reason) (d : Nat) : (c.refusePosting x r d).ap = c.ap := by simp [Chip.refusePosting]
@[simp] theorem Chip.refusePosting_su (c : Chip) (x : Fin 13) (r : Reason) (d : Nat) : (c.refusePosting x r d).su = c.su := by simp [Chip.refusePosting]
@[simp] theorem Chip.refusePosting_ju (c : Chip) (x : Fin 13) (r : Reason) (d : Nat) : (c.refusePosting x r d).ju = c.ju := by simp [Chip.refusePosting]
@[simp] theorem Chip.refusePosting_cu (c : Chip) (x : Fin 13) (r : Reason) (d : Nat) : (c.refusePosting x r d).cu = c.cu := by simp [Chip.refusePosting]
@[simp] theorem Chip.refusePosting_scu (c : Chip) (x : Fin 13) (r : Reason) (d : Nat) : (c.refusePosting x r d).scu = c.scu := by simp [Chip.refusePosting]
@[simp] theorem Chip.refusePosting_slc (c : Chip) (x : Fin 13) (r : Reason) (d : Nat) : (c.refusePosting x r d).slc = c.slc := by simp [Chip.refusePosting]
@[simp] theorem Chip.refusePosting_pru (c : Chip) (x : Fin 13) (r : Reason) (d : Nat) : (c.refusePosting x r d).pru = c.pru := by simp [Chip.refusePosting]
@[simp] theorem Chip.refusePosting_fd (c : Chip) (x : Fin 13) (r : Reason) (d : Nat) : (c.refusePosting x r d).fd = c.fd := by simp [Chip.refusePosting]
@[simp] theorem Chip.refusePosting_hlc (c : Chip) (x : Fin 13) (r : Reason) (d : Nat) : (c.refusePosting x r d).hlc = c.hlc := by simp [Chip.refusePosting]
@[simp] theorem Chip.refusePosting_pins (c : Chip) (x : Fin 13) (r : Reason) (d : Nat) : (c.refusePosting x r d).pins = c.pins := by simp [Chip.refusePosting]
@[simp] theorem Chip.refusePosting_free (c : Chip) (x : Fin 13) (r : Reason) (d : Nat) : (c.refusePosting x r d).free = c.free := by simp [Chip.refusePosting]

/-! `readSlot` -/
@[simp] theorem Chip.readSlot_ap (c : Chip) (x : Fin 13) : (c.readSlot x).ap = c.ap := by simp [Chip.readSlot]
@[simp] theorem Chip.readSlot_su (c : Chip) (x : Fin 13) : (c.readSlot x).su = c.su := by simp [Chip.readSlot]
@[simp] theorem Chip.readSlot_cu (c : Chip) (x : Fin 13) : (c.readSlot x).cu = c.cu := by simp [Chip.readSlot]
@[simp] theorem Chip.readSlot_scu (c : Chip) (x : Fin 13) : (c.readSlot x).scu = c.scu := by simp [Chip.readSlot]
@[simp] theorem Chip.readSlot_slc (c : Chip) (x : Fin 13) : (c.readSlot x).slc = c.slc := by simp [Chip.readSlot]
@[simp] theorem Chip.readSlot_pru (c : Chip) (x : Fin 13) : (c.readSlot x).pru = c.pru := by simp [Chip.readSlot]
@[simp] theorem Chip.readSlot_fd (c : Chip) (x : Fin 13) : (c.readSlot x).fd = c.fd := by simp [Chip.readSlot]
@[simp] theorem Chip.readSlot_hlc (c : Chip) (x : Fin 13) : (c.readSlot x).hlc = c.hlc := by simp [Chip.readSlot]
@[simp] theorem Chip.readSlot_pins (c : Chip) (x : Fin 13) : (c.readSlot x).pins = c.pins := by simp [Chip.readSlot]
@[simp] theorem Chip.readSlot_free (c : Chip) (x : Fin 13) : (c.readSlot x).free = c.free := by simp [Chip.readSlot]

/-! `resolveFrom` -/
@[simp] theorem Chip.resolveFrom_ap (c : Chip) (k b : Nat) : (c.resolveFrom k b).ap = c.ap := by
  unfold Chip.resolveFrom; dsimp only; (repeat' split) <;> simp
@[simp] theorem Chip.resolveFrom_su (c : Chip) (k b : Nat) : (c.resolveFrom k b).su = c.su := by
  unfold Chip.resolveFrom; dsimp only; (repeat' split) <;> simp
@[simp] theorem Chip.resolveFrom_cu (c : Chip) (k b : Nat) : (c.resolveFrom k b).cu = c.cu := by
  unfold Chip.resolveFrom; dsimp only; (repeat' split) <;> simp
@[simp] theorem Chip.resolveFrom_scu (c : Chip) (k b : Nat) : (c.resolveFrom k b).scu = c.scu := by
  unfold Chip.resolveFrom; dsimp only; (repeat' split) <;> simp
@[simp] theorem Chip.resolveFrom_slc (c : Chip) (k b : Nat) : (c.resolveFrom k b).slc = c.slc := by
  unfold Chip.resolveFrom; dsimp only; (repeat' split) <;> simp
@[simp] theorem Chip.resolveFrom_pru (c : Chip) (k b : Nat) : (c.resolveFrom k b).pru = c.pru := by
  unfold Chip.resolveFrom; dsimp only; (repeat' split) <;> simp
@[simp] theorem Chip.resolveFrom_fd (c : Chip) (k b : Nat) : (c.resolveFrom k b).fd = c.fd := by
  unfold Chip.resolveFrom; dsimp only; (repeat' split) <;> simp
@[simp] theorem Chip.resolveFrom_hlc (c : Chip) (k b : Nat) : (c.resolveFrom k b).hlc = c.hlc := by
  unfold Chip.resolveFrom; dsimp only; (repeat' split) <;> simp
@[simp] theorem Chip.resolveFrom_pins (c : Chip) (k b : Nat) : (c.resolveFrom k b).pins = c.pins := by
  unfold Chip.resolveFrom; dsimp only; (repeat' split) <;> simp
@[simp] theorem Chip.resolveFrom_free (c : Chip) (k b : Nat) : (c.resolveFrom k b).free = c.free := by
  unfold Chip.resolveFrom; dsimp only; (repeat' split) <;> simp

/-! `resolveSlots` -/
@[simp] theorem Chip.resolveSlots_ap (c : Chip) : (c.resolveSlots).ap = c.ap := by simp [Chip.resolveSlots]
@[simp] theorem Chip.resolveSlots_su (c : Chip) : (c.resolveSlots).su = c.su := by simp [Chip.resolveSlots]
@[simp] theorem Chip.resolveSlots_cu (c : Chip) : (c.resolveSlots).cu = c.cu := by simp [Chip.resolveSlots]
@[simp] theorem Chip.resolveSlots_scu (c : Chip) : (c.resolveSlots).scu = c.scu := by simp [Chip.resolveSlots]
@[simp] theorem Chip.resolveSlots_slc (c : Chip) : (c.resolveSlots).slc = c.slc := by simp [Chip.resolveSlots]
@[simp] theorem Chip.resolveSlots_pru (c : Chip) : (c.resolveSlots).pru = c.pru := by simp [Chip.resolveSlots]
@[simp] theorem Chip.resolveSlots_fd (c : Chip) : (c.resolveSlots).fd = c.fd := by simp [Chip.resolveSlots]
@[simp] theorem Chip.resolveSlots_hlc (c : Chip) : (c.resolveSlots).hlc = c.hlc := by simp [Chip.resolveSlots]
@[simp] theorem Chip.resolveSlots_pins (c : Chip) : (c.resolveSlots).pins = c.pins := by simp [Chip.resolveSlots]
@[simp] theorem Chip.resolveSlots_free (c : Chip) : (c.resolveSlots).free = c.free := by simp [Chip.resolveSlots]

/-! `juReport` -/
@[simp] theorem Chip.juReport_ap (c : Chip) (b : Bool) (a : Nat) : (c.juReport b a).ap = c.ap := by simp [Chip.juReport, apply_ite Chip.ap]
@[simp] theorem Chip.juReport_ju (c : Chip) (b : Bool) (a : Nat) : (c.juReport b a).ju = c.ju := by simp [Chip.juReport, apply_ite Chip.ju]
@[simp] theorem Chip.juReport_cu (c : Chip) (b : Bool) (a : Nat) : (c.juReport b a).cu = c.cu := by simp [Chip.juReport, apply_ite Chip.cu]
@[simp] theorem Chip.juReport_scu (c : Chip) (b : Bool) (a : Nat) : (c.juReport b a).scu = c.scu := by simp [Chip.juReport, apply_ite Chip.scu]
@[simp] theorem Chip.juReport_slc (c : Chip) (b : Bool) (a : Nat) : (c.juReport b a).slc = c.slc := by simp [Chip.juReport, apply_ite Chip.slc]
@[simp] theorem Chip.juReport_pru (c : Chip) (b : Bool) (a : Nat) : (c.juReport b a).pru = c.pru := by simp [Chip.juReport, apply_ite Chip.pru]
@[simp] theorem Chip.juReport_fd (c : Chip) (b : Bool) (a : Nat) : (c.juReport b a).fd = c.fd := by simp [Chip.juReport, apply_ite Chip.fd]
@[simp] theorem Chip.juReport_hlc (c : Chip) (b : Bool) (a : Nat) : (c.juReport b a).hlc = c.hlc := by simp [Chip.juReport, apply_ite Chip.hlc]
@[simp] theorem Chip.juReport_pins (c : Chip) (b : Bool) (a : Nat) : (c.juReport b a).pins = c.pins := by simp [Chip.juReport, apply_ite Chip.pins]
@[simp] theorem Chip.juReport_free (c : Chip) (b : Bool) (a : Nat) : (c.juReport b a).free = c.free := by simp [Chip.juReport, apply_ite Chip.free]

/-! `writeControl` -/
@[simp] theorem Chip.writeControl_ap (c : Chip) (p : Fin 12) (o : Nat) (w : Word) : (c.writeControl p o w).ap = c.ap := by simp [Chip.writeControl, apply_ite Chip.ap]
@[simp] theorem Chip.writeControl_su (c : Chip) (p : Fin 12) (o : Nat) (w : Word) : (c.writeControl p o w).su = c.su := by simp [Chip.writeControl, apply_ite Chip.su]
@[simp] theorem Chip.writeControl_ju (c : Chip) (p : Fin 12) (o : Nat) (w : Word) : (c.writeControl p o w).ju = c.ju := by simp [Chip.writeControl, apply_ite Chip.ju]
@[simp] theorem Chip.writeControl_cu (c : Chip) (p : Fin 12) (o : Nat) (w : Word) : (c.writeControl p o w).cu = c.cu := by simp [Chip.writeControl, apply_ite Chip.cu]
@[simp] theorem Chip.writeControl_scu (c : Chip) (p : Fin 12) (o : Nat) (w : Word) : (c.writeControl p o w).scu = c.scu := by simp [Chip.writeControl, apply_ite Chip.scu]
@[simp] theorem Chip.writeControl_slc (c : Chip) (p : Fin 12) (o : Nat) (w : Word) : (c.writeControl p o w).slc = c.slc := by simp [Chip.writeControl, apply_ite Chip.slc]
@[simp] theorem Chip.writeControl_pru (c : Chip) (p : Fin 12) (o : Nat) (w : Word) : (c.writeControl p o w).pru = c.pru := by simp [Chip.writeControl, apply_ite Chip.pru]
@[simp] theorem Chip.writeControl_fd (c : Chip) (p : Fin 12) (o : Nat) (w : Word) : (c.writeControl p o w).fd = c.fd := by simp [Chip.writeControl, apply_ite Chip.fd]
@[simp] theorem Chip.writeControl_hlc (c : Chip) (p : Fin 12) (o : Nat) (w : Word) : (c.writeControl p o w).hlc = c.hlc := by simp [Chip.writeControl, apply_ite Chip.hlc]
@[simp] theorem Chip.writeControl_pins (c : Chip) (p : Fin 12) (o : Nat) (w : Word) : (c.writeControl p o w).pins = c.pins := by simp [Chip.writeControl, apply_ite Chip.pins]
@[simp] theorem Chip.writeControl_free (c : Chip) (p : Fin 12) (o : Nat) (w : Word) : (c.writeControl p o w).free = c.free := by simp [Chip.writeControl, apply_ite Chip.free]

/-! `writeTerminal` -/
@[simp] theorem Chip.writeTerminal_ap (c : Chip) (p : Fin 12) : (c.writeTerminal p).ap = c.ap := by simp [Chip.writeTerminal]
@[simp] theorem Chip.writeTerminal_su (c : Chip) (p : Fin 12) : (c.writeTerminal p).su = c.su := by simp [Chip.writeTerminal]
@[simp] theorem Chip.writeTerminal_ju (c : Chip) (p : Fin 12) : (c.writeTerminal p).ju = c.ju := by simp [Chip.writeTerminal]
@[simp] theorem Chip.writeTerminal_cu (c : Chip) (p : Fin 12) : (c.writeTerminal p).cu = c.cu := by simp [Chip.writeTerminal]
@[simp] theorem Chip.writeTerminal_scu (c : Chip) (p : Fin 12) : (c.writeTerminal p).scu = c.scu := by simp [Chip.writeTerminal]
@[simp] theorem Chip.writeTerminal_slc (c : Chip) (p : Fin 12) : (c.writeTerminal p).slc = c.slc := by simp [Chip.writeTerminal]
@[simp] theorem Chip.writeTerminal_pru (c : Chip) (p : Fin 12) : (c.writeTerminal p).pru = c.pru := by simp [Chip.writeTerminal]
@[simp] theorem Chip.writeTerminal_fd (c : Chip) (p : Fin 12) : (c.writeTerminal p).fd = c.fd := by simp [Chip.writeTerminal]
@[simp] theorem Chip.writeTerminal_hlc (c : Chip) (p : Fin 12) : (c.writeTerminal p).hlc = c.hlc := by simp [Chip.writeTerminal]
@[simp] theorem Chip.writeTerminal_pins (c : Chip) (p : Fin 12) : (c.writeTerminal p).pins = c.pins := by simp [Chip.writeTerminal]
@[simp] theorem Chip.writeTerminal_free (c : Chip) (p : Fin 12) : (c.writeTerminal p).free = c.free := by simp [Chip.writeTerminal]

/-! `writeKeyWord` -/
@[simp] theorem Chip.writeKeyWord_ap (c : Chip) (p : Fin 12) : (c.writeKeyWord p).ap = c.ap := by simp [Chip.writeKeyWord, apply_ite Chip.ap]
@[simp] theorem Chip.writeKeyWord_su (c : Chip) (p : Fin 12) : (c.writeKeyWord p).su = c.su := by simp [Chip.writeKeyWord, apply_ite Chip.su]
@[simp] theorem Chip.writeKeyWord_ju (c : Chip) (p : Fin 12) : (c.writeKeyWord p).ju = c.ju := by simp [Chip.writeKeyWord, apply_ite Chip.ju]
@[simp] theorem Chip.writeKeyWord_cu (c : Chip) (p : Fin 12) : (c.writeKeyWord p).cu = c.cu := by simp [Chip.writeKeyWord, apply_ite Chip.cu]
@[simp] theorem Chip.writeKeyWord_scu (c : Chip) (p : Fin 12) : (c.writeKeyWord p).scu = c.scu := by simp [Chip.writeKeyWord, apply_ite Chip.scu]
@[simp] theorem Chip.writeKeyWord_slc (c : Chip) (p : Fin 12) : (c.writeKeyWord p).slc = c.slc := by simp [Chip.writeKeyWord, apply_ite Chip.slc]
@[simp] theorem Chip.writeKeyWord_pru (c : Chip) (p : Fin 12) : (c.writeKeyWord p).pru = c.pru := by simp [Chip.writeKeyWord, apply_ite Chip.pru]
@[simp] theorem Chip.writeKeyWord_fd (c : Chip) (p : Fin 12) : (c.writeKeyWord p).fd = c.fd := by simp [Chip.writeKeyWord, apply_ite Chip.fd]
@[simp] theorem Chip.writeKeyWord_hlc (c : Chip) (p : Fin 12) : (c.writeKeyWord p).hlc = c.hlc := by simp [Chip.writeKeyWord, apply_ite Chip.hlc]
@[simp] theorem Chip.writeKeyWord_pins (c : Chip) (p : Fin 12) : (c.writeKeyWord p).pins = c.pins := by simp [Chip.writeKeyWord, apply_ite Chip.pins]
@[simp] theorem Chip.writeKeyWord_free (c : Chip) (p : Fin 12) : (c.writeKeyWord p).free = c.free := by simp [Chip.writeKeyWord, apply_ite Chip.free]

/-! `takeLine` -/
@[simp] theorem Chip.takeLine_ap (c : Chip) (l : Fin 3) (d : Fin 4) (f : LineFrame) : (c.takeLine l d f).ap = c.ap := by simp [Chip.takeLine]
@[simp] theorem Chip.takeLine_own (c : Chip) (l : Fin 3) (d : Fin 4) (f : LineFrame) : (c.takeLine l d f).own = c.own := by simp [Chip.takeLine]
@[simp] theorem Chip.takeLine_su (c : Chip) (l : Fin 3) (d : Fin 4) (f : LineFrame) : (c.takeLine l d f).su = c.su := by simp [Chip.takeLine]
@[simp] theorem Chip.takeLine_ju (c : Chip) (l : Fin 3) (d : Fin 4) (f : LineFrame) : (c.takeLine l d f).ju = c.ju := by simp [Chip.takeLine]
@[simp] theorem Chip.takeLine_cu (c : Chip) (l : Fin 3) (d : Fin 4) (f : LineFrame) : (c.takeLine l d f).cu = c.cu := by simp [Chip.takeLine]
@[simp] theorem Chip.takeLine_scu (c : Chip) (l : Fin 3) (d : Fin 4) (f : LineFrame) : (c.takeLine l d f).scu = c.scu := by simp [Chip.takeLine]
@[simp] theorem Chip.takeLine_pru (c : Chip) (l : Fin 3) (d : Fin 4) (f : LineFrame) : (c.takeLine l d f).pru = c.pru := by simp [Chip.takeLine]
@[simp] theorem Chip.takeLine_fd (c : Chip) (l : Fin 3) (d : Fin 4) (f : LineFrame) : (c.takeLine l d f).fd = c.fd := by simp [Chip.takeLine]
@[simp] theorem Chip.takeLine_hlc (c : Chip) (l : Fin 3) (d : Fin 4) (f : LineFrame) : (c.takeLine l d f).hlc = c.hlc := by simp [Chip.takeLine]
@[simp] theorem Chip.takeLine_pins (c : Chip) (l : Fin 3) (d : Fin 4) (f : LineFrame) : (c.takeLine l d f).pins = c.pins := by simp [Chip.takeLine]
@[simp] theorem Chip.takeLine_free (c : Chip) (l : Fin 3) (d : Fin 4) (f : LineFrame) : (c.takeLine l d f).free = c.free := by simp [Chip.takeLine]

/-! `setAttention` -/
@[simp] theorem Chip.setAttention_ap (c : Chip) (p : Fin 12) (b : Bool) : (c.setAttention p b).ap = c.ap := by simp [Chip.setAttention]
@[simp] theorem Chip.setAttention_su (c : Chip) (p : Fin 12) (b : Bool) : (c.setAttention p b).su = c.su := by simp [Chip.setAttention]
@[simp] theorem Chip.setAttention_ju (c : Chip) (p : Fin 12) (b : Bool) : (c.setAttention p b).ju = c.ju := by simp [Chip.setAttention]
@[simp] theorem Chip.setAttention_cu (c : Chip) (p : Fin 12) (b : Bool) : (c.setAttention p b).cu = c.cu := by simp [Chip.setAttention]
@[simp] theorem Chip.setAttention_pru (c : Chip) (p : Fin 12) (b : Bool) : (c.setAttention p b).pru = c.pru := by simp [Chip.setAttention]
@[simp] theorem Chip.setAttention_fd (c : Chip) (p : Fin 12) (b : Bool) : (c.setAttention p b).fd = c.fd := by simp [Chip.setAttention]
@[simp] theorem Chip.setAttention_hlc (c : Chip) (p : Fin 12) (b : Bool) : (c.setAttention p b).hlc = c.hlc := by simp [Chip.setAttention]
@[simp] theorem Chip.setAttention_pins (c : Chip) (p : Fin 12) (b : Bool) : (c.setAttention p b).pins = c.pins := by simp [Chip.setAttention]
@[simp] theorem Chip.setAttention_free (c : Chip) (p : Fin 12) (b : Bool) : (c.setAttention p b).free = c.free := by simp [Chip.setAttention]

/-! `setSensor` -/
@[simp] theorem Chip.setSensor_ap (c : Chip) (p : Fin 12) (s : Sensor) : (c.setSensor p s).ap = c.ap := by
  unfold Chip.setSensor; dsimp only; (repeat' split) <;> simp
@[simp] theorem Chip.setSensor_su (c : Chip) (p : Fin 12) (s : Sensor) : (c.setSensor p s).su = c.su := by
  unfold Chip.setSensor; dsimp only; (repeat' split) <;> simp
@[simp] theorem Chip.setSensor_ju (c : Chip) (p : Fin 12) (s : Sensor) : (c.setSensor p s).ju = c.ju := by
  unfold Chip.setSensor; dsimp only; (repeat' split) <;> simp
@[simp] theorem Chip.setSensor_cu (c : Chip) (p : Fin 12) (s : Sensor) : (c.setSensor p s).cu = c.cu := by
  unfold Chip.setSensor; dsimp only; (repeat' split) <;> simp
@[simp] theorem Chip.setSensor_pru (c : Chip) (p : Fin 12) (s : Sensor) : (c.setSensor p s).pru = c.pru := by
  unfold Chip.setSensor; dsimp only; (repeat' split) <;> simp
@[simp] theorem Chip.setSensor_fd (c : Chip) (p : Fin 12) (s : Sensor) : (c.setSensor p s).fd = c.fd := by
  unfold Chip.setSensor; dsimp only; (repeat' split) <;> simp
@[simp] theorem Chip.setSensor_hlc (c : Chip) (p : Fin 12) (s : Sensor) : (c.setSensor p s).hlc = c.hlc := by
  unfold Chip.setSensor; dsimp only; (repeat' split) <;> simp
@[simp] theorem Chip.setSensor_pins (c : Chip) (p : Fin 12) (s : Sensor) : (c.setSensor p s).pins = c.pins := by
  unfold Chip.setSensor; dsimp only; (repeat' split) <;> simp
@[simp] theorem Chip.setSensor_free (c : Chip) (p : Fin 12) (s : Sensor) : (c.setSensor p s).free = c.free := by
  unfold Chip.setSensor; dsimp only; (repeat' split) <;> simp

/-! `pulse` -/
@[simp] theorem Chip.pulse_ap (c : Chip) (p : Fin 12) : (c.pulse p).ap = c.ap := by simp [Chip.pulse]
@[simp] theorem Chip.pulse_own (c : Chip) (p : Fin 12) : (c.pulse p).own = c.own := by simp [Chip.pulse]
@[simp] theorem Chip.pulse_su (c : Chip) (p : Fin 12) : (c.pulse p).su = c.su := by simp [Chip.pulse]
@[simp] theorem Chip.pulse_ju (c : Chip) (p : Fin 12) : (c.pulse p).ju = c.ju := by simp [Chip.pulse]
@[simp] theorem Chip.pulse_cu (c : Chip) (p : Fin 12) : (c.pulse p).cu = c.cu := by simp [Chip.pulse]
@[simp] theorem Chip.pulse_scu (c : Chip) (p : Fin 12) : (c.pulse p).scu = c.scu := by simp [Chip.pulse]
@[simp] theorem Chip.pulse_pru (c : Chip) (p : Fin 12) : (c.pulse p).pru = c.pru := by simp [Chip.pulse]
@[simp] theorem Chip.pulse_fd (c : Chip) (p : Fin 12) : (c.pulse p).fd = c.fd := by simp [Chip.pulse]
@[simp] theorem Chip.pulse_hlc (c : Chip) (p : Fin 12) : (c.pulse p).hlc = c.hlc := by simp [Chip.pulse]
@[simp] theorem Chip.pulse_pins (c : Chip) (p : Fin 12) : (c.pulse p).pins = c.pins := by simp [Chip.pulse]
@[simp] theorem Chip.pulse_free (c : Chip) (p : Fin 12) : (c.pulse p).free = c.free := by simp [Chip.pulse]

/-! `placeFrom` -/
@[simp] theorem Chip.placeFrom_ap (c : Chip) (l : Fin 3) (js : List KeyJob) : (c.placeFrom l js).ap = c.ap := by
  induction js generalizing c with
  | nil => rfl
  | cons j rest ih =>
    simp only [Chip.placeFrom]; (repeat' split) <;> simp [ih]
@[simp] theorem Chip.placeFrom_ju (c : Chip) (l : Fin 3) (js : List KeyJob) : (c.placeFrom l js).ju = c.ju := by
  induction js generalizing c with
  | nil => rfl
  | cons j rest ih =>
    simp only [Chip.placeFrom]; (repeat' split) <;> simp [ih]
@[simp] theorem Chip.placeFrom_cu (c : Chip) (l : Fin 3) (js : List KeyJob) : (c.placeFrom l js).cu = c.cu := by
  induction js generalizing c with
  | nil => rfl
  | cons j rest ih =>
    simp only [Chip.placeFrom]; (repeat' split) <;> simp [ih]
@[simp] theorem Chip.placeFrom_scu (c : Chip) (l : Fin 3) (js : List KeyJob) : (c.placeFrom l js).scu = c.scu := by
  induction js generalizing c with
  | nil => rfl
  | cons j rest ih =>
    simp only [Chip.placeFrom]; (repeat' split) <;> simp [ih]
@[simp] theorem Chip.placeFrom_pru (c : Chip) (l : Fin 3) (js : List KeyJob) : (c.placeFrom l js).pru = c.pru := by
  induction js generalizing c with
  | nil => rfl
  | cons j rest ih =>
    simp only [Chip.placeFrom]; (repeat' split) <;> simp [ih]
@[simp] theorem Chip.placeFrom_fd (c : Chip) (l : Fin 3) (js : List KeyJob) : (c.placeFrom l js).fd = c.fd := by
  induction js generalizing c with
  | nil => rfl
  | cons j rest ih =>
    simp only [Chip.placeFrom]; (repeat' split) <;> simp [ih]
@[simp] theorem Chip.placeFrom_hlc (c : Chip) (l : Fin 3) (js : List KeyJob) : (c.placeFrom l js).hlc = c.hlc := by
  induction js generalizing c with
  | nil => rfl
  | cons j rest ih =>
    simp only [Chip.placeFrom]; (repeat' split) <;> simp [ih]
@[simp] theorem Chip.placeFrom_pins (c : Chip) (l : Fin 3) (js : List KeyJob) : (c.placeFrom l js).pins = c.pins := by
  induction js generalizing c with
  | nil => rfl
  | cons j rest ih =>
    simp only [Chip.placeFrom]; (repeat' split) <;> simp [ih]
@[simp] theorem Chip.placeFrom_free (c : Chip) (l : Fin 3) (js : List KeyJob) : (c.placeFrom l js).free = c.free := by
  induction js generalizing c with
  | nil => rfl
  | cons j rest ih =>
    simp only [Chip.placeFrom]; (repeat' split) <;> simp [ih]

/-! `placeNext` -/
@[simp] theorem Chip.placeNext_ap (c : Chip) (l : Fin 3) : (c.placeNext l).ap = c.ap := by simp [Chip.placeNext, apply_ite Chip.ap]
@[simp] theorem Chip.placeNext_ju (c : Chip) (l : Fin 3) : (c.placeNext l).ju = c.ju := by simp [Chip.placeNext, apply_ite Chip.ju]
@[simp] theorem Chip.placeNext_cu (c : Chip) (l : Fin 3) : (c.placeNext l).cu = c.cu := by simp [Chip.placeNext, apply_ite Chip.cu]
@[simp] theorem Chip.placeNext_scu (c : Chip) (l : Fin 3) : (c.placeNext l).scu = c.scu := by simp [Chip.placeNext, apply_ite Chip.scu]
@[simp] theorem Chip.placeNext_pru (c : Chip) (l : Fin 3) : (c.placeNext l).pru = c.pru := by simp [Chip.placeNext, apply_ite Chip.pru]
@[simp] theorem Chip.placeNext_fd (c : Chip) (l : Fin 3) : (c.placeNext l).fd = c.fd := by simp [Chip.placeNext, apply_ite Chip.fd]
@[simp] theorem Chip.placeNext_hlc (c : Chip) (l : Fin 3) : (c.placeNext l).hlc = c.hlc := by simp [Chip.placeNext, apply_ite Chip.hlc]
@[simp] theorem Chip.placeNext_pins (c : Chip) (l : Fin 3) : (c.placeNext l).pins = c.pins := by simp [Chip.placeNext, apply_ite Chip.pins]
@[simp] theorem Chip.placeNext_free (c : Chip) (l : Fin 3) : (c.placeNext l).free = c.free := by simp [Chip.placeNext, apply_ite Chip.free]

/-! `placed` -/
@[simp] theorem Chip.placed_ap (c : Chip) (l : Fin 3) : (c.placed l).ap = c.ap := by simp [Chip.placed]
@[simp] theorem Chip.placed_ju (c : Chip) (l : Fin 3) : (c.placed l).ju = c.ju := by simp [Chip.placed]
@[simp] theorem Chip.placed_cu (c : Chip) (l : Fin 3) : (c.placed l).cu = c.cu := by simp [Chip.placed]
@[simp] theorem Chip.placed_scu (c : Chip) (l : Fin 3) : (c.placed l).scu = c.scu := by simp [Chip.placed]
@[simp] theorem Chip.placed_pru (c : Chip) (l : Fin 3) : (c.placed l).pru = c.pru := by simp [Chip.placed]
@[simp] theorem Chip.placed_fd (c : Chip) (l : Fin 3) : (c.placed l).fd = c.fd := by simp [Chip.placed]
@[simp] theorem Chip.placed_hlc (c : Chip) (l : Fin 3) : (c.placed l).hlc = c.hlc := by simp [Chip.placed]
@[simp] theorem Chip.placed_pins (c : Chip) (l : Fin 3) : (c.placed l).pins = c.pins := by simp [Chip.placed]
@[simp] theorem Chip.placed_free (c : Chip) (l : Fin 3) : (c.placed l).free = c.free := by simp [Chip.placed]
@[simp] theorem Chip.scuKey_ap (c : Chip) (p : Fin 12) : (c.scuKey p).2.ap = c.ap := by
  unfold Chip.scuKey; try dsimp only
  split <;> simp
@[simp] theorem Chip.scuKey_su (c : Chip) (p : Fin 12) : (c.scuKey p).2.su = c.su := by
  unfold Chip.scuKey; try dsimp only
  split <;> simp
@[simp] theorem Chip.scuKey_ju (c : Chip) (p : Fin 12) : (c.scuKey p).2.ju = c.ju := by
  unfold Chip.scuKey; try dsimp only
  split <;> simp
@[simp] theorem Chip.scuKey_cu (c : Chip) (p : Fin 12) : (c.scuKey p).2.cu = c.cu := by
  unfold Chip.scuKey; try dsimp only
  split <;> simp
@[simp] theorem Chip.scuKey_pru (c : Chip) (p : Fin 12) : (c.scuKey p).2.pru = c.pru := by
  unfold Chip.scuKey; try dsimp only
  split <;> simp
@[simp] theorem Chip.scuKey_fd (c : Chip) (p : Fin 12) : (c.scuKey p).2.fd = c.fd := by
  unfold Chip.scuKey; try dsimp only
  split <;> simp
@[simp] theorem Chip.scuKey_hlc (c : Chip) (p : Fin 12) : (c.scuKey p).2.hlc = c.hlc := by
  unfold Chip.scuKey; try dsimp only
  split <;> simp
@[simp] theorem Chip.scuKey_pins (c : Chip) (p : Fin 12) : (c.scuKey p).2.pins = c.pins := by
  unfold Chip.scuKey; try dsimp only
  split <;> simp
@[simp] theorem Chip.scuKey_free (c : Chip) (p : Fin 12) : (c.scuKey p).2.free = c.free := by
  unfold Chip.scuKey; try dsimp only
  split <;> simp

/-! `takeKey` -/
@[simp] theorem Chip.takeKey_ap (c : Chip) (p : Fin 12) (st : Nat) (k : BitVec 16) : (c.takeKey p st k).ap = c.ap := by
  unfold Chip.takeKey
  split <;> rename_i h
  · rw [← Chip.scuKey_ap c p, h]
  · rw [← Chip.scuKey_ap c p, h]; try dsimp only
    (repeat' split) <;> simp
@[simp] theorem Chip.takeKey_su (c : Chip) (p : Fin 12) (st : Nat) (k : BitVec 16) : (c.takeKey p st k).su = c.su := by
  unfold Chip.takeKey
  split <;> rename_i h
  · rw [← Chip.scuKey_su c p, h]
  · rw [← Chip.scuKey_su c p, h]; try dsimp only
    (repeat' split) <;> simp
@[simp] theorem Chip.takeKey_ju (c : Chip) (p : Fin 12) (st : Nat) (k : BitVec 16) : (c.takeKey p st k).ju = c.ju := by
  unfold Chip.takeKey
  split <;> rename_i h
  · rw [← Chip.scuKey_ju c p, h]
  · rw [← Chip.scuKey_ju c p, h]; try dsimp only
    (repeat' split) <;> simp
@[simp] theorem Chip.takeKey_cu (c : Chip) (p : Fin 12) (st : Nat) (k : BitVec 16) : (c.takeKey p st k).cu = c.cu := by
  unfold Chip.takeKey
  split <;> rename_i h
  · rw [← Chip.scuKey_cu c p, h]
  · rw [← Chip.scuKey_cu c p, h]; try dsimp only
    (repeat' split) <;> simp
@[simp] theorem Chip.takeKey_pru (c : Chip) (p : Fin 12) (st : Nat) (k : BitVec 16) : (c.takeKey p st k).pru = c.pru := by
  unfold Chip.takeKey
  split <;> rename_i h
  · rw [← Chip.scuKey_pru c p, h]
  · rw [← Chip.scuKey_pru c p, h]; try dsimp only
    (repeat' split) <;> simp
@[simp] theorem Chip.takeKey_fd (c : Chip) (p : Fin 12) (st : Nat) (k : BitVec 16) : (c.takeKey p st k).fd = c.fd := by
  unfold Chip.takeKey
  split <;> rename_i h
  · rw [← Chip.scuKey_fd c p, h]
  · rw [← Chip.scuKey_fd c p, h]; try dsimp only
    (repeat' split) <;> simp
@[simp] theorem Chip.takeKey_hlc (c : Chip) (p : Fin 12) (st : Nat) (k : BitVec 16) : (c.takeKey p st k).hlc = c.hlc := by
  unfold Chip.takeKey
  split <;> rename_i h
  · rw [← Chip.scuKey_hlc c p, h]
  · rw [← Chip.scuKey_hlc c p, h]; try dsimp only
    (repeat' split) <;> simp
@[simp] theorem Chip.takeKey_pins (c : Chip) (p : Fin 12) (st : Nat) (k : BitVec 16) : (c.takeKey p st k).pins = c.pins := by
  unfold Chip.takeKey
  split <;> rename_i h
  · rw [← Chip.scuKey_pins c p, h]
  · rw [← Chip.scuKey_pins c p, h]; try dsimp only
    (repeat' split) <;> simp
@[simp] theorem Chip.takeKey_free (c : Chip) (p : Fin 12) (st : Nat) (k : BitVec 16) : (c.takeKey p st k).free = c.free := by
  unfold Chip.takeKey
  split <;> rename_i h
  · rw [← Chip.scuKey_free c p, h]
  · rw [← Chip.scuKey_free c p, h]; try dsimp only
    (repeat' split) <;> simp

/-! `exchangeEnds` -/
@[simp] theorem Chip.exchangeEnds_ap (c : Chip) (l : Fin 3) (d : Fin 4) : (c.exchangeEnds l d).ap = c.ap := by simp [Chip.exchangeEnds]
@[simp] theorem Chip.exchangeEnds_own (c : Chip) (l : Fin 3) (d : Fin 4) : (c.exchangeEnds l d).own = c.own := by simp [Chip.exchangeEnds]
@[simp] theorem Chip.exchangeEnds_su (c : Chip) (l : Fin 3) (d : Fin 4) : (c.exchangeEnds l d).su = c.su := by simp [Chip.exchangeEnds]
@[simp] theorem Chip.exchangeEnds_ju (c : Chip) (l : Fin 3) (d : Fin 4) : (c.exchangeEnds l d).ju = c.ju := by simp [Chip.exchangeEnds]
@[simp] theorem Chip.exchangeEnds_cu (c : Chip) (l : Fin 3) (d : Fin 4) : (c.exchangeEnds l d).cu = c.cu := by simp [Chip.exchangeEnds]
@[simp] theorem Chip.exchangeEnds_scu (c : Chip) (l : Fin 3) (d : Fin 4) : (c.exchangeEnds l d).scu = c.scu := by simp [Chip.exchangeEnds]
@[simp] theorem Chip.exchangeEnds_pru (c : Chip) (l : Fin 3) (d : Fin 4) : (c.exchangeEnds l d).pru = c.pru := by simp [Chip.exchangeEnds]
@[simp] theorem Chip.exchangeEnds_fd (c : Chip) (l : Fin 3) (d : Fin 4) : (c.exchangeEnds l d).fd = c.fd := by simp [Chip.exchangeEnds]
@[simp] theorem Chip.exchangeEnds_hlc (c : Chip) (l : Fin 3) (d : Fin 4) : (c.exchangeEnds l d).hlc = c.hlc := by simp [Chip.exchangeEnds]
@[simp] theorem Chip.exchangeEnds_pins (c : Chip) (l : Fin 3) (d : Fin 4) : (c.exchangeEnds l d).pins = c.pins := by simp [Chip.exchangeEnds]
@[simp] theorem Chip.exchangeEnds_free (c : Chip) (l : Fin 3) (d : Fin 4) : (c.exchangeEnds l d).free = c.free := by simp [Chip.exchangeEnds]

/-! `byteSeen` -/
@[simp] theorem Chip.byteSeen_ap (c : Chip) (l : Fin 3) : (c.byteSeen l).ap = c.ap := by simp [Chip.byteSeen]
@[simp] theorem Chip.byteSeen_own (c : Chip) (l : Fin 3) : (c.byteSeen l).own = c.own := by simp [Chip.byteSeen]
@[simp] theorem Chip.byteSeen_su (c : Chip) (l : Fin 3) : (c.byteSeen l).su = c.su := by simp [Chip.byteSeen]
@[simp] theorem Chip.byteSeen_ju (c : Chip) (l : Fin 3) : (c.byteSeen l).ju = c.ju := by simp [Chip.byteSeen]
@[simp] theorem Chip.byteSeen_cu (c : Chip) (l : Fin 3) : (c.byteSeen l).cu = c.cu := by simp [Chip.byteSeen]
@[simp] theorem Chip.byteSeen_scu (c : Chip) (l : Fin 3) : (c.byteSeen l).scu = c.scu := by simp [Chip.byteSeen]
@[simp] theorem Chip.byteSeen_pru (c : Chip) (l : Fin 3) : (c.byteSeen l).pru = c.pru := by simp [Chip.byteSeen]
@[simp] theorem Chip.byteSeen_fd (c : Chip) (l : Fin 3) : (c.byteSeen l).fd = c.fd := by simp [Chip.byteSeen]
@[simp] theorem Chip.byteSeen_hlc (c : Chip) (l : Fin 3) : (c.byteSeen l).hlc = c.hlc := by simp [Chip.byteSeen]
@[simp] theorem Chip.byteSeen_pins (c : Chip) (l : Fin 3) : (c.byteSeen l).pins = c.pins := by simp [Chip.byteSeen]
@[simp] theorem Chip.byteSeen_free (c : Chip) (l : Fin 3) : (c.byteSeen l).free = c.free := by simp [Chip.byteSeen]

/-! `undelivered` -/
@[simp] theorem Chip.undelivered_ap (c : Chip) (p : Fin 12) (f : LineFrame) : (c.undelivered p f).ap = c.ap := by
  unfold Chip.undelivered; (repeat' split) <;> simp
@[simp] theorem Chip.undelivered_su (c : Chip) (p : Fin 12) (f : LineFrame) : (c.undelivered p f).su = c.su := by
  unfold Chip.undelivered; (repeat' split) <;> simp
@[simp] theorem Chip.undelivered_ju (c : Chip) (p : Fin 12) (f : LineFrame) : (c.undelivered p f).ju = c.ju := by
  unfold Chip.undelivered; (repeat' split) <;> simp
@[simp] theorem Chip.undelivered_cu (c : Chip) (p : Fin 12) (f : LineFrame) : (c.undelivered p f).cu = c.cu := by
  unfold Chip.undelivered; (repeat' split) <;> simp
@[simp] theorem Chip.undelivered_pru (c : Chip) (p : Fin 12) (f : LineFrame) : (c.undelivered p f).pru = c.pru := by
  unfold Chip.undelivered; (repeat' split) <;> simp
@[simp] theorem Chip.undelivered_fd (c : Chip) (p : Fin 12) (f : LineFrame) : (c.undelivered p f).fd = c.fd := by
  unfold Chip.undelivered; (repeat' split) <;> simp
@[simp] theorem Chip.undelivered_hlc (c : Chip) (p : Fin 12) (f : LineFrame) : (c.undelivered p f).hlc = c.hlc := by
  unfold Chip.undelivered; (repeat' split) <;> simp
@[simp] theorem Chip.undelivered_pins (c : Chip) (p : Fin 12) (f : LineFrame) : (c.undelivered p f).pins = c.pins := by
  unfold Chip.undelivered; (repeat' split) <;> simp
@[simp] theorem Chip.undelivered_free (c : Chip) (p : Fin 12) (f : LineFrame) : (c.undelivered p f).free = c.free := by
  unfold Chip.undelivered; (repeat' split) <;> simp

/-! `terminalLost` -/
@[simp] theorem Chip.terminalLost_ap (c : Chip) (p : Fin 12) : (c.terminalLost p).ap = c.ap := by simp [Chip.terminalLost]
@[simp] theorem Chip.terminalLost_ju (c : Chip) (p : Fin 12) : (c.terminalLost p).ju = c.ju := by simp [Chip.terminalLost]
@[simp] theorem Chip.terminalLost_cu (c : Chip) (p : Fin 12) : (c.terminalLost p).cu = c.cu := by simp [Chip.terminalLost]
@[simp] theorem Chip.terminalLost_pru (c : Chip) (p : Fin 12) : (c.terminalLost p).pru = c.pru := by simp [Chip.terminalLost]
@[simp] theorem Chip.terminalLost_fd (c : Chip) (p : Fin 12) : (c.terminalLost p).fd = c.fd := by simp [Chip.terminalLost]
@[simp] theorem Chip.terminalLost_hlc (c : Chip) (p : Fin 12) : (c.terminalLost p).hlc = c.hlc := by simp [Chip.terminalLost]
@[simp] theorem Chip.terminalLost_pins (c : Chip) (p : Fin 12) : (c.terminalLost p).pins = c.pins := by simp [Chip.terminalLost]
@[simp] theorem Chip.terminalLost_free (c : Chip) (p : Fin 12) : (c.terminalLost p).free = c.free := by simp [Chip.terminalLost]

/-! `attachFails` -/
@[simp] theorem Chip.attachFails_ap (c : Chip) (p : Fin 12) : (c.attachFails p).ap = c.ap := by simp [Chip.attachFails]
@[simp] theorem Chip.attachFails_su (c : Chip) (p : Fin 12) : (c.attachFails p).su = c.su := by simp [Chip.attachFails]
@[simp] theorem Chip.attachFails_ju (c : Chip) (p : Fin 12) : (c.attachFails p).ju = c.ju := by simp [Chip.attachFails]
@[simp] theorem Chip.attachFails_cu (c : Chip) (p : Fin 12) : (c.attachFails p).cu = c.cu := by simp [Chip.attachFails]
@[simp] theorem Chip.attachFails_scu (c : Chip) (p : Fin 12) : (c.attachFails p).scu = c.scu := by simp [Chip.attachFails]
@[simp] theorem Chip.attachFails_pru (c : Chip) (p : Fin 12) : (c.attachFails p).pru = c.pru := by simp [Chip.attachFails]
@[simp] theorem Chip.attachFails_fd (c : Chip) (p : Fin 12) : (c.attachFails p).fd = c.fd := by simp [Chip.attachFails]
@[simp] theorem Chip.attachFails_hlc (c : Chip) (p : Fin 12) : (c.attachFails p).hlc = c.hlc := by simp [Chip.attachFails]
@[simp] theorem Chip.attachFails_pins (c : Chip) (p : Fin 12) : (c.attachFails p).pins = c.pins := by simp [Chip.attachFails]
@[simp] theorem Chip.attachFails_free (c : Chip) (p : Fin 12) : (c.attachFails p).free = c.free := by simp [Chip.attachFails]

/-! `miss` -/
@[simp] theorem Chip.miss_ap (c : Chip) (l : Fin 3) (d : Fin 4) (f : LineFrame) : (c.miss l d f).ap = c.ap := by simp [Chip.miss, apply_ite Chip.ap]
@[simp] theorem Chip.miss_ju (c : Chip) (l : Fin 3) (d : Fin 4) (f : LineFrame) : (c.miss l d f).ju = c.ju := by simp [Chip.miss, apply_ite Chip.ju]
@[simp] theorem Chip.miss_cu (c : Chip) (l : Fin 3) (d : Fin 4) (f : LineFrame) : (c.miss l d f).cu = c.cu := by simp [Chip.miss, apply_ite Chip.cu]
@[simp] theorem Chip.miss_pru (c : Chip) (l : Fin 3) (d : Fin 4) (f : LineFrame) : (c.miss l d f).pru = c.pru := by simp [Chip.miss, apply_ite Chip.pru]
@[simp] theorem Chip.miss_fd (c : Chip) (l : Fin 3) (d : Fin 4) (f : LineFrame) : (c.miss l d f).fd = c.fd := by simp [Chip.miss, apply_ite Chip.fd]
@[simp] theorem Chip.miss_hlc (c : Chip) (l : Fin 3) (d : Fin 4) (f : LineFrame) : (c.miss l d f).hlc = c.hlc := by simp [Chip.miss, apply_ite Chip.hlc]
@[simp] theorem Chip.miss_pins (c : Chip) (l : Fin 3) (d : Fin 4) (f : LineFrame) : (c.miss l d f).pins = c.pins := by simp [Chip.miss, apply_ite Chip.pins]
@[simp] theorem Chip.miss_free (c : Chip) (l : Fin 3) (d : Fin 4) (f : LineFrame) : (c.miss l d f).free = c.free := by simp [Chip.miss, apply_ite Chip.free]

/-! `readSensor` -/
@[simp] theorem Chip.readSensor_ap (c : Chip) (p : Fin 12) (o : Option Bool) : (c.readSensor p o).ap = c.ap := by
  unfold Chip.readSensor; split <;> simp
@[simp] theorem Chip.readSensor_ju (c : Chip) (p : Fin 12) (o : Option Bool) : (c.readSensor p o).ju = c.ju := by
  unfold Chip.readSensor; split <;> simp
@[simp] theorem Chip.readSensor_cu (c : Chip) (p : Fin 12) (o : Option Bool) : (c.readSensor p o).cu = c.cu := by
  unfold Chip.readSensor; split <;> simp
@[simp] theorem Chip.readSensor_pru (c : Chip) (p : Fin 12) (o : Option Bool) : (c.readSensor p o).pru = c.pru := by
  unfold Chip.readSensor; split <;> simp
@[simp] theorem Chip.readSensor_fd (c : Chip) (p : Fin 12) (o : Option Bool) : (c.readSensor p o).fd = c.fd := by
  unfold Chip.readSensor; split <;> simp
@[simp] theorem Chip.readSensor_hlc (c : Chip) (p : Fin 12) (o : Option Bool) : (c.readSensor p o).hlc = c.hlc := by
  unfold Chip.readSensor; split <;> simp
@[simp] theorem Chip.readSensor_pins (c : Chip) (p : Fin 12) (o : Option Bool) : (c.readSensor p o).pins = c.pins := by
  unfold Chip.readSensor; split <;> simp
@[simp] theorem Chip.readSensor_free (c : Chip) (p : Fin 12) (o : Option Bool) : (c.readSensor p o).free = c.free := by
  unfold Chip.readSensor; split <;> simp

/-! `acked` -/
@[simp] theorem Chip.acked_ap (c : Chip) (l : Fin 3) (d : Fin 4) (f : LineFrame) (o : Option Bool) (ks : List (BitVec 16)) : (c.acked l d f o ks).ap = c.ap := by
  unfold Chip.acked; try dsimp only
  rw [Chip.placeNext_ap, foldl_keeps Chip.ap _ (by intros; simp), Chip.readSensor_ap]
  split <;> simp
@[simp] theorem Chip.acked_ju (c : Chip) (l : Fin 3) (d : Fin 4) (f : LineFrame) (o : Option Bool) (ks : List (BitVec 16)) : (c.acked l d f o ks).ju = c.ju := by
  unfold Chip.acked; try dsimp only
  rw [Chip.placeNext_ju, foldl_keeps Chip.ju _ (by intros; simp), Chip.readSensor_ju]
  split <;> simp
@[simp] theorem Chip.acked_cu (c : Chip) (l : Fin 3) (d : Fin 4) (f : LineFrame) (o : Option Bool) (ks : List (BitVec 16)) : (c.acked l d f o ks).cu = c.cu := by
  unfold Chip.acked; try dsimp only
  rw [Chip.placeNext_cu, foldl_keeps Chip.cu _ (by intros; simp), Chip.readSensor_cu]
  split <;> simp
@[simp] theorem Chip.acked_pru (c : Chip) (l : Fin 3) (d : Fin 4) (f : LineFrame) (o : Option Bool) (ks : List (BitVec 16)) : (c.acked l d f o ks).pru = c.pru := by
  unfold Chip.acked; try dsimp only
  rw [Chip.placeNext_pru, foldl_keeps Chip.pru _ (by intros; simp), Chip.readSensor_pru]
  split <;> simp
@[simp] theorem Chip.acked_fd (c : Chip) (l : Fin 3) (d : Fin 4) (f : LineFrame) (o : Option Bool) (ks : List (BitVec 16)) : (c.acked l d f o ks).fd = c.fd := by
  unfold Chip.acked; try dsimp only
  rw [Chip.placeNext_fd, foldl_keeps Chip.fd _ (by intros; simp), Chip.readSensor_fd]
  split <;> simp
@[simp] theorem Chip.acked_hlc (c : Chip) (l : Fin 3) (d : Fin 4) (f : LineFrame) (o : Option Bool) (ks : List (BitVec 16)) : (c.acked l d f o ks).hlc = c.hlc := by
  unfold Chip.acked; try dsimp only
  rw [Chip.placeNext_hlc, foldl_keeps Chip.hlc _ (by intros; simp), Chip.readSensor_hlc]
  split <;> simp
@[simp] theorem Chip.acked_pins (c : Chip) (l : Fin 3) (d : Fin 4) (f : LineFrame) (o : Option Bool) (ks : List (BitVec 16)) : (c.acked l d f o ks).pins = c.pins := by
  unfold Chip.acked; try dsimp only
  rw [Chip.placeNext_pins, foldl_keeps Chip.pins _ (by intros; simp), Chip.readSensor_pins]
  split <;> simp
@[simp] theorem Chip.acked_free (c : Chip) (l : Fin 3) (d : Fin 4) (f : LineFrame) (o : Option Bool) (ks : List (BitVec 16)) : (c.acked l d f o ks).free = c.free := by
  unfold Chip.acked; try dsimp only
  rw [Chip.placeNext_free, foldl_keeps Chip.free _ (by intros; simp), Chip.readSensor_free]
  split <;> simp

/-! `naked` -/
@[simp] theorem Chip.naked_ap (c : Chip) (l : Fin 3) (d : Fin 4) (f : LineFrame) : (c.naked l d f).ap = c.ap := by simp [Chip.naked]
@[simp] theorem Chip.naked_su (c : Chip) (l : Fin 3) (d : Fin 4) (f : LineFrame) : (c.naked l d f).su = c.su := by simp [Chip.naked]
@[simp] theorem Chip.naked_ju (c : Chip) (l : Fin 3) (d : Fin 4) (f : LineFrame) : (c.naked l d f).ju = c.ju := by simp [Chip.naked]
@[simp] theorem Chip.naked_cu (c : Chip) (l : Fin 3) (d : Fin 4) (f : LineFrame) : (c.naked l d f).cu = c.cu := by simp [Chip.naked]
@[simp] theorem Chip.naked_pru (c : Chip) (l : Fin 3) (d : Fin 4) (f : LineFrame) : (c.naked l d f).pru = c.pru := by simp [Chip.naked]
@[simp] theorem Chip.naked_fd (c : Chip) (l : Fin 3) (d : Fin 4) (f : LineFrame) : (c.naked l d f).fd = c.fd := by simp [Chip.naked]
@[simp] theorem Chip.naked_hlc (c : Chip) (l : Fin 3) (d : Fin 4) (f : LineFrame) : (c.naked l d f).hlc = c.hlc := by simp [Chip.naked]
@[simp] theorem Chip.naked_pins (c : Chip) (l : Fin 3) (d : Fin 4) (f : LineFrame) : (c.naked l d f).pins = c.pins := by simp [Chip.naked]
@[simp] theorem Chip.naked_free (c : Chip) (l : Fin 3) (d : Fin 4) (f : LineFrame) : (c.naked l d f).free = c.free := by simp [Chip.naked]

/-! `idented` -/
@[simp] theorem Chip.idented_ap (c : Chip) (l : Fin 3) (d : Fin 4) (b : Option Bool) (x y : Byte) : (c.idented l d b x y).ap = c.ap := by simp [Chip.idented]
@[simp] theorem Chip.idented_ju (c : Chip) (l : Fin 3) (d : Fin 4) (b : Option Bool) (x y : Byte) : (c.idented l d b x y).ju = c.ju := by simp [Chip.idented]
@[simp] theorem Chip.idented_cu (c : Chip) (l : Fin 3) (d : Fin 4) (b : Option Bool) (x y : Byte) : (c.idented l d b x y).cu = c.cu := by simp [Chip.idented]
@[simp] theorem Chip.idented_pru (c : Chip) (l : Fin 3) (d : Fin 4) (b : Option Bool) (x y : Byte) : (c.idented l d b x y).pru = c.pru := by simp [Chip.idented]
@[simp] theorem Chip.idented_fd (c : Chip) (l : Fin 3) (d : Fin 4) (b : Option Bool) (x y : Byte) : (c.idented l d b x y).fd = c.fd := by simp [Chip.idented]
@[simp] theorem Chip.idented_hlc (c : Chip) (l : Fin 3) (d : Fin 4) (b : Option Bool) (x y : Byte) : (c.idented l d b x y).hlc = c.hlc := by simp [Chip.idented]
@[simp] theorem Chip.idented_pins (c : Chip) (l : Fin 3) (d : Fin 4) (b : Option Bool) (x y : Byte) : (c.idented l d b x y).pins = c.pins := by simp [Chip.idented]
@[simp] theorem Chip.idented_free (c : Chip) (l : Fin 3) (d : Fin 4) (b : Option Bool) (x y : Byte) : (c.idented l d b x y).free = c.free := by simp [Chip.idented]

/-! `stopRowRead` -/
@[simp] theorem Chip.stopRowRead_ap (c : Chip) (l : Fin 3) : (c.stopRowRead l).ap = c.ap := rfl
@[simp] theorem Chip.stopRowRead_su (c : Chip) (l : Fin 3) : (c.stopRowRead l).su = c.su := rfl
@[simp] theorem Chip.stopRowRead_ju (c : Chip) (l : Fin 3) : (c.stopRowRead l).ju = c.ju := rfl
@[simp] theorem Chip.stopRowRead_cu (c : Chip) (l : Fin 3) : (c.stopRowRead l).cu = c.cu := rfl
@[simp] theorem Chip.stopRowRead_scu (c : Chip) (l : Fin 3) : (c.stopRowRead l).scu = c.scu := rfl
@[simp] theorem Chip.stopRowRead_pru (c : Chip) (l : Fin 3) : (c.stopRowRead l).pru = c.pru := rfl
@[simp] theorem Chip.stopRowRead_fd (c : Chip) (l : Fin 3) : (c.stopRowRead l).fd = c.fd := rfl
@[simp] theorem Chip.stopRowRead_hlc (c : Chip) (l : Fin 3) : (c.stopRowRead l).hlc = c.hlc := rfl
@[simp] theorem Chip.stopRowRead_pins (c : Chip) (l : Fin 3) : (c.stopRowRead l).pins = c.pins := rfl
@[simp] theorem Chip.stopRowRead_free (c : Chip) (l : Fin 3) : (c.stopRowRead l).free = c.free := rfl

/-! `dropRestart` -/
@[simp] theorem Chip.dropRestart_ap (c : Chip) (p : Fin 12) : (c.dropRestart p).ap = c.ap := by simp [Chip.dropRestart]
@[simp] theorem Chip.dropRestart_su (c : Chip) (p : Fin 12) : (c.dropRestart p).su = c.su := by simp [Chip.dropRestart]
@[simp] theorem Chip.dropRestart_ju (c : Chip) (p : Fin 12) : (c.dropRestart p).ju = c.ju := by simp [Chip.dropRestart]
@[simp] theorem Chip.dropRestart_cu (c : Chip) (p : Fin 12) : (c.dropRestart p).cu = c.cu := by simp [Chip.dropRestart]
@[simp] theorem Chip.dropRestart_pru (c : Chip) (p : Fin 12) : (c.dropRestart p).pru = c.pru := by simp [Chip.dropRestart]
@[simp] theorem Chip.dropRestart_fd (c : Chip) (p : Fin 12) : (c.dropRestart p).fd = c.fd := by simp [Chip.dropRestart]
@[simp] theorem Chip.dropRestart_hlc (c : Chip) (p : Fin 12) : (c.dropRestart p).hlc = c.hlc := by simp [Chip.dropRestart]
@[simp] theorem Chip.dropRestart_pins (c : Chip) (p : Fin 12) : (c.dropRestart p).pins = c.pins := by simp [Chip.dropRestart]
@[simp] theorem Chip.dropRestart_free (c : Chip) (p : Fin 12) : (c.dropRestart p).free = c.free := by simp [Chip.dropRestart]

/-! `lineRestart` -/
@[simp] theorem Chip.lineRestart_ap (c : Chip) (l : Fin 3) : (c.lineRestart l).ap = c.ap := by
  unfold Chip.lineRestart; try dsimp only
  rw [foldl_keeps Chip.ap _ (by intros; simp)]
  simp
@[simp] theorem Chip.lineRestart_su (c : Chip) (l : Fin 3) : (c.lineRestart l).su = c.su := by
  unfold Chip.lineRestart; try dsimp only
  rw [foldl_keeps Chip.su _ (by intros; simp)]
  simp
@[simp] theorem Chip.lineRestart_ju (c : Chip) (l : Fin 3) : (c.lineRestart l).ju = c.ju := by
  unfold Chip.lineRestart; try dsimp only
  rw [foldl_keeps Chip.ju _ (by intros; simp)]
  simp
@[simp] theorem Chip.lineRestart_cu (c : Chip) (l : Fin 3) : (c.lineRestart l).cu = c.cu := by
  unfold Chip.lineRestart; try dsimp only
  rw [foldl_keeps Chip.cu _ (by intros; simp)]
  simp
@[simp] theorem Chip.lineRestart_pru (c : Chip) (l : Fin 3) : (c.lineRestart l).pru = c.pru := by
  unfold Chip.lineRestart; try dsimp only
  rw [foldl_keeps Chip.pru _ (by intros; simp)]
  simp
@[simp] theorem Chip.lineRestart_fd (c : Chip) (l : Fin 3) : (c.lineRestart l).fd = c.fd := by
  unfold Chip.lineRestart; try dsimp only
  rw [foldl_keeps Chip.fd _ (by intros; simp)]
  simp
@[simp] theorem Chip.lineRestart_hlc (c : Chip) (l : Fin 3) : (c.lineRestart l).hlc = c.hlc := by
  unfold Chip.lineRestart; try dsimp only
  rw [foldl_keeps Chip.hlc _ (by intros; simp)]
  simp
@[simp] theorem Chip.lineRestart_pins (c : Chip) (l : Fin 3) : (c.lineRestart l).pins = c.pins := by
  unfold Chip.lineRestart; try dsimp only
  rw [foldl_keeps Chip.pins _ (by intros; simp)]
  simp
@[simp] theorem Chip.lineRestart_free (c : Chip) (l : Fin 3) : (c.lineRestart l).free = c.free := by
  unfold Chip.lineRestart; try dsimp only
  rw [foldl_keeps Chip.free _ (by intros; simp)]
  simp

/-! `finishWithLast` -/
@[simp] theorem Chip.finishWithLast_ap (c : Chip) (u : Fin 9) (b : Nat) : (c.finishWithLast u b).ap = c.ap := by
  unfold Chip.finishWithLast; dsimp only; (repeat' split) <;> simp
@[simp] theorem Chip.finishWithLast_su (c : Chip) (u : Fin 9) (b : Nat) : (c.finishWithLast u b).su = c.su := by
  unfold Chip.finishWithLast; dsimp only; (repeat' split) <;> simp
@[simp] theorem Chip.finishWithLast_ju (c : Chip) (u : Fin 9) (b : Nat) : (c.finishWithLast u b).ju = c.ju := by
  unfold Chip.finishWithLast; dsimp only; (repeat' split) <;> simp
@[simp] theorem Chip.finishWithLast_cu (c : Chip) (u : Fin 9) (b : Nat) : (c.finishWithLast u b).cu = c.cu := by
  unfold Chip.finishWithLast; dsimp only; (repeat' split) <;> simp
@[simp] theorem Chip.finishWithLast_scu (c : Chip) (u : Fin 9) (b : Nat) : (c.finishWithLast u b).scu = c.scu := by
  unfold Chip.finishWithLast; dsimp only; (repeat' split) <;> simp
@[simp] theorem Chip.finishWithLast_slc (c : Chip) (u : Fin 9) (b : Nat) : (c.finishWithLast u b).slc = c.slc := by
  unfold Chip.finishWithLast; dsimp only; (repeat' split) <;> simp
@[simp] theorem Chip.finishWithLast_pru (c : Chip) (u : Fin 9) (b : Nat) : (c.finishWithLast u b).pru = c.pru := by
  unfold Chip.finishWithLast; dsimp only; (repeat' split) <;> simp
@[simp] theorem Chip.finishWithLast_fd (c : Chip) (u : Fin 9) (b : Nat) : (c.finishWithLast u b).fd = c.fd := by
  unfold Chip.finishWithLast; dsimp only; (repeat' split) <;> simp
@[simp] theorem Chip.finishWithLast_hlc (c : Chip) (u : Fin 9) (b : Nat) : (c.finishWithLast u b).hlc = c.hlc := by
  unfold Chip.finishWithLast; dsimp only; (repeat' split) <;> simp
@[simp] theorem Chip.finishWithLast_pins (c : Chip) (u : Fin 9) (b : Nat) : (c.finishWithLast u b).pins = c.pins := by
  unfold Chip.finishWithLast; dsimp only; (repeat' split) <;> simp
@[simp] theorem Chip.finishWithLast_free (c : Chip) (u : Fin 9) (b : Nat) : (c.finishWithLast u b).free = c.free := by
  unfold Chip.finishWithLast; dsimp only; (repeat' split) <;> simp

/-! `serveLineReset` -/
@[simp] theorem Chip.serveLineReset_ap (c : Chip) (l : Fin 3) : (c.serveLineReset l).ap = c.ap := by simp [Chip.serveLineReset]
@[simp] theorem Chip.serveLineReset_su (c : Chip) (l : Fin 3) : (c.serveLineReset l).su = c.su := by simp [Chip.serveLineReset]
@[simp] theorem Chip.serveLineReset_ju (c : Chip) (l : Fin 3) : (c.serveLineReset l).ju = c.ju := by simp [Chip.serveLineReset]
@[simp] theorem Chip.serveLineReset_cu (c : Chip) (l : Fin 3) : (c.serveLineReset l).cu = c.cu := by simp [Chip.serveLineReset]
@[simp] theorem Chip.serveLineReset_pru (c : Chip) (l : Fin 3) : (c.serveLineReset l).pru = c.pru := by simp [Chip.serveLineReset]
@[simp] theorem Chip.serveLineReset_fd (c : Chip) (l : Fin 3) : (c.serveLineReset l).fd = c.fd := by simp [Chip.serveLineReset]
@[simp] theorem Chip.serveLineReset_hlc (c : Chip) (l : Fin 3) : (c.serveLineReset l).hlc = c.hlc := by simp [Chip.serveLineReset]
@[simp] theorem Chip.serveLineReset_pins (c : Chip) (l : Fin 3) : (c.serveLineReset l).pins = c.pins := by simp [Chip.serveLineReset]
@[simp] theorem Chip.serveLineReset_free (c : Chip) (l : Fin 3) : (c.serveLineReset l).free = c.free := by simp [Chip.serveLineReset]

/-! `serveDrawerRelease` -/
@[simp] theorem Chip.serveDrawerRelease_ap (c : Chip) (p : Fin 12) : (c.serveDrawerRelease p).ap = c.ap := by
  unfold Chip.serveDrawerRelease; (repeat' split) <;> simp
@[simp] theorem Chip.serveDrawerRelease_su (c : Chip) (p : Fin 12) : (c.serveDrawerRelease p).su = c.su := by
  unfold Chip.serveDrawerRelease; (repeat' split) <;> simp
@[simp] theorem Chip.serveDrawerRelease_ju (c : Chip) (p : Fin 12) : (c.serveDrawerRelease p).ju = c.ju := by
  unfold Chip.serveDrawerRelease; (repeat' split) <;> simp
@[simp] theorem Chip.serveDrawerRelease_cu (c : Chip) (p : Fin 12) : (c.serveDrawerRelease p).cu = c.cu := by
  unfold Chip.serveDrawerRelease; (repeat' split) <;> simp
@[simp] theorem Chip.serveDrawerRelease_scu (c : Chip) (p : Fin 12) : (c.serveDrawerRelease p).scu = c.scu := by
  unfold Chip.serveDrawerRelease; (repeat' split) <;> simp
@[simp] theorem Chip.serveDrawerRelease_pru (c : Chip) (p : Fin 12) : (c.serveDrawerRelease p).pru = c.pru := by
  unfold Chip.serveDrawerRelease; (repeat' split) <;> simp
@[simp] theorem Chip.serveDrawerRelease_fd (c : Chip) (p : Fin 12) : (c.serveDrawerRelease p).fd = c.fd := by
  unfold Chip.serveDrawerRelease; (repeat' split) <;> simp
@[simp] theorem Chip.serveDrawerRelease_hlc (c : Chip) (p : Fin 12) : (c.serveDrawerRelease p).hlc = c.hlc := by
  unfold Chip.serveDrawerRelease; (repeat' split) <;> simp
@[simp] theorem Chip.serveDrawerRelease_pins (c : Chip) (p : Fin 12) : (c.serveDrawerRelease p).pins = c.pins := by
  unfold Chip.serveDrawerRelease; (repeat' split) <;> simp
@[simp] theorem Chip.serveDrawerRelease_free (c : Chip) (p : Fin 12) : (c.serveDrawerRelease p).free = c.free := by
  unfold Chip.serveDrawerRelease; (repeat' split) <;> simp

/-! `askKeyInit` -/
@[simp] theorem Chip.askKeyInit_ap (c : Chip) (p : Fin 12) : (c.askKeyInit p).ap = c.ap := by simp [Chip.askKeyInit, apply_ite Chip.ap]
@[simp] theorem Chip.askKeyInit_su (c : Chip) (p : Fin 12) : (c.askKeyInit p).su = c.su := by simp [Chip.askKeyInit, apply_ite Chip.su]
@[simp] theorem Chip.askKeyInit_ju (c : Chip) (p : Fin 12) : (c.askKeyInit p).ju = c.ju := by simp [Chip.askKeyInit, apply_ite Chip.ju]
@[simp] theorem Chip.askKeyInit_cu (c : Chip) (p : Fin 12) : (c.askKeyInit p).cu = c.cu := by simp [Chip.askKeyInit, apply_ite Chip.cu]
@[simp] theorem Chip.askKeyInit_scu (c : Chip) (p : Fin 12) : (c.askKeyInit p).scu = c.scu := by simp [Chip.askKeyInit, apply_ite Chip.scu]
@[simp] theorem Chip.askKeyInit_pru (c : Chip) (p : Fin 12) : (c.askKeyInit p).pru = c.pru := by simp [Chip.askKeyInit, apply_ite Chip.pru]
@[simp] theorem Chip.askKeyInit_fd (c : Chip) (p : Fin 12) : (c.askKeyInit p).fd = c.fd := by simp [Chip.askKeyInit, apply_ite Chip.fd]
@[simp] theorem Chip.askKeyInit_hlc (c : Chip) (p : Fin 12) : (c.askKeyInit p).hlc = c.hlc := by simp [Chip.askKeyInit, apply_ite Chip.hlc]
@[simp] theorem Chip.askKeyInit_pins (c : Chip) (p : Fin 12) : (c.askKeyInit p).pins = c.pins := by simp [Chip.askKeyInit, apply_ite Chip.pins]
@[simp] theorem Chip.askKeyInit_free (c : Chip) (p : Fin 12) : (c.askKeyInit p).free = c.free := by simp [Chip.askKeyInit, apply_ite Chip.free]

/-! `slcLoaded` -/
@[simp] theorem Chip.slcLoaded_ap (c : Chip) : (c.slcLoaded).ap = c.ap := by
  unfold Chip.slcLoaded; try dsimp only
  rw [foldl_keeps Chip.ap _ (by intros; simp), foldl_keeps Chip.ap _ (by intros; simp)]
@[simp] theorem Chip.slcLoaded_su (c : Chip) : (c.slcLoaded).su = c.su := by
  unfold Chip.slcLoaded; try dsimp only
  rw [foldl_keeps Chip.su _ (by intros; simp), foldl_keeps Chip.su _ (by intros; simp)]
@[simp] theorem Chip.slcLoaded_ju (c : Chip) : (c.slcLoaded).ju = c.ju := by
  unfold Chip.slcLoaded; try dsimp only
  rw [foldl_keeps Chip.ju _ (by intros; simp), foldl_keeps Chip.ju _ (by intros; simp)]
@[simp] theorem Chip.slcLoaded_cu (c : Chip) : (c.slcLoaded).cu = c.cu := by
  unfold Chip.slcLoaded; try dsimp only
  rw [foldl_keeps Chip.cu _ (by intros; simp), foldl_keeps Chip.cu _ (by intros; simp)]
@[simp] theorem Chip.slcLoaded_scu (c : Chip) : (c.slcLoaded).scu = c.scu := by
  unfold Chip.slcLoaded; try dsimp only
  rw [foldl_keeps Chip.scu _ (by intros; simp), foldl_keeps Chip.scu _ (by intros; simp)]
@[simp] theorem Chip.slcLoaded_pru (c : Chip) : (c.slcLoaded).pru = c.pru := by
  unfold Chip.slcLoaded; try dsimp only
  rw [foldl_keeps Chip.pru _ (by intros; simp), foldl_keeps Chip.pru _ (by intros; simp)]
@[simp] theorem Chip.slcLoaded_fd (c : Chip) : (c.slcLoaded).fd = c.fd := by
  unfold Chip.slcLoaded; try dsimp only
  rw [foldl_keeps Chip.fd _ (by intros; simp), foldl_keeps Chip.fd _ (by intros; simp)]
@[simp] theorem Chip.slcLoaded_hlc (c : Chip) : (c.slcLoaded).hlc = c.hlc := by
  unfold Chip.slcLoaded; try dsimp only
  rw [foldl_keeps Chip.hlc _ (by intros; simp), foldl_keeps Chip.hlc _ (by intros; simp)]
@[simp] theorem Chip.slcLoaded_pins (c : Chip) : (c.slcLoaded).pins = c.pins := by
  unfold Chip.slcLoaded; try dsimp only
  rw [foldl_keeps Chip.pins _ (by intros; simp), foldl_keeps Chip.pins _ (by intros; simp)]
@[simp] theorem Chip.slcLoaded_free (c : Chip) : (c.slcLoaded).free = c.free := by
  unfold Chip.slcLoaded; try dsimp only
  rw [foldl_keeps Chip.free _ (by intros; simp), foldl_keeps Chip.free _ (by intros; simp)]

/-! `dropAbsent` -/
@[simp] theorem Chip.dropAbsent_ap (c : Chip) (l : Fin 3) : (c.dropAbsent l).ap = c.ap := rfl
@[simp] theorem Chip.dropAbsent_su (c : Chip) (l : Fin 3) : (c.dropAbsent l).su = c.su := rfl
@[simp] theorem Chip.dropAbsent_ju (c : Chip) (l : Fin 3) : (c.dropAbsent l).ju = c.ju := rfl
@[simp] theorem Chip.dropAbsent_cu (c : Chip) (l : Fin 3) : (c.dropAbsent l).cu = c.cu := rfl
@[simp] theorem Chip.dropAbsent_scu (c : Chip) (l : Fin 3) : (c.dropAbsent l).scu = c.scu := rfl
@[simp] theorem Chip.dropAbsent_pru (c : Chip) (l : Fin 3) : (c.dropAbsent l).pru = c.pru := rfl
@[simp] theorem Chip.dropAbsent_fd (c : Chip) (l : Fin 3) : (c.dropAbsent l).fd = c.fd := rfl
@[simp] theorem Chip.dropAbsent_hlc (c : Chip) (l : Fin 3) : (c.dropAbsent l).hlc = c.hlc := rfl
@[simp] theorem Chip.dropAbsent_pins (c : Chip) (l : Fin 3) : (c.dropAbsent l).pins = c.pins := rfl
@[simp] theorem Chip.dropAbsent_free (c : Chip) (l : Fin 3) : (c.dropAbsent l).free = c.free := rfl

/-! `slcMoved` -/
@[simp] theorem Chip.slcMoved_ap (c : Chip) : (c.slcMoved).ap = c.ap := by
  unfold Chip.slcMoved; try dsimp only
  rw [foldl_keeps Chip.ap _ (by intros; simp), foldl_keeps Chip.ap _ (by intros; simp),
    foldl_keeps Chip.ap _ (by intros; simp)]
@[simp] theorem Chip.slcMoved_ju (c : Chip) : (c.slcMoved).ju = c.ju := by
  unfold Chip.slcMoved; try dsimp only
  rw [foldl_keeps Chip.ju _ (by intros; simp), foldl_keeps Chip.ju _ (by intros; simp),
    foldl_keeps Chip.ju _ (by intros; simp)]
@[simp] theorem Chip.slcMoved_cu (c : Chip) : (c.slcMoved).cu = c.cu := by
  unfold Chip.slcMoved; try dsimp only
  rw [foldl_keeps Chip.cu _ (by intros; simp), foldl_keeps Chip.cu _ (by intros; simp),
    foldl_keeps Chip.cu _ (by intros; simp)]
@[simp] theorem Chip.slcMoved_scu (c : Chip) : (c.slcMoved).scu = c.scu := by
  unfold Chip.slcMoved; try dsimp only
  rw [foldl_keeps Chip.scu _ (by intros; simp), foldl_keeps Chip.scu _ (by intros; simp),
    foldl_keeps Chip.scu _ (by intros; simp)]
@[simp] theorem Chip.slcMoved_pru (c : Chip) : (c.slcMoved).pru = c.pru := by
  unfold Chip.slcMoved; try dsimp only
  rw [foldl_keeps Chip.pru _ (by intros; simp), foldl_keeps Chip.pru _ (by intros; simp),
    foldl_keeps Chip.pru _ (by intros; simp)]
@[simp] theorem Chip.slcMoved_fd (c : Chip) : (c.slcMoved).fd = c.fd := by
  unfold Chip.slcMoved; try dsimp only
  rw [foldl_keeps Chip.fd _ (by intros; simp), foldl_keeps Chip.fd _ (by intros; simp),
    foldl_keeps Chip.fd _ (by intros; simp)]
@[simp] theorem Chip.slcMoved_hlc (c : Chip) : (c.slcMoved).hlc = c.hlc := by
  unfold Chip.slcMoved; try dsimp only
  rw [foldl_keeps Chip.hlc _ (by intros; simp), foldl_keeps Chip.hlc _ (by intros; simp),
    foldl_keeps Chip.hlc _ (by intros; simp)]
@[simp] theorem Chip.slcMoved_pins (c : Chip) : (c.slcMoved).pins = c.pins := by
  unfold Chip.slcMoved; try dsimp only
  rw [foldl_keeps Chip.pins _ (by intros; simp), foldl_keeps Chip.pins _ (by intros; simp),
    foldl_keeps Chip.pins _ (by intros; simp)]
@[simp] theorem Chip.slcMoved_free (c : Chip) : (c.slcMoved).free = c.free := by
  unfold Chip.slcMoved; try dsimp only
  rw [foldl_keeps Chip.free _ (by intros; simp), foldl_keeps Chip.free _ (by intros; simp),
    foldl_keeps Chip.free _ (by intros; simp)]

/-! `scuLoaded` -/
@[simp] theorem Chip.scuLoaded_ap (c : Chip) : (c.scuLoaded).ap = c.ap := by
  unfold Chip.scuLoaded; try dsimp only
  rw [Chip.statusEventAll_ap, foldl_keeps Chip.ap _ (by intros; split <;> simp)]
@[simp] theorem Chip.scuLoaded_su (c : Chip) : (c.scuLoaded).su = c.su := by
  unfold Chip.scuLoaded; try dsimp only
  rw [Chip.statusEventAll_su, foldl_keeps Chip.su _ (by intros; split <;> simp)]
@[simp] theorem Chip.scuLoaded_ju (c : Chip) : (c.scuLoaded).ju = c.ju := by
  unfold Chip.scuLoaded; try dsimp only
  rw [Chip.statusEventAll_ju, foldl_keeps Chip.ju _ (by intros; split <;> simp)]
@[simp] theorem Chip.scuLoaded_cu (c : Chip) : (c.scuLoaded).cu = c.cu := by
  unfold Chip.scuLoaded; try dsimp only
  rw [Chip.statusEventAll_cu, foldl_keeps Chip.cu _ (by intros; split <;> simp)]
@[simp] theorem Chip.scuLoaded_slc (c : Chip) : (c.scuLoaded).slc = c.slc := by
  unfold Chip.scuLoaded; try dsimp only
  rw [Chip.statusEventAll_slc, foldl_keeps Chip.slc _ (by intros; split <;> simp)]
@[simp] theorem Chip.scuLoaded_pru (c : Chip) : (c.scuLoaded).pru = c.pru := by
  unfold Chip.scuLoaded; try dsimp only
  rw [Chip.statusEventAll_pru, foldl_keeps Chip.pru _ (by intros; split <;> simp)]
@[simp] theorem Chip.scuLoaded_fd (c : Chip) : (c.scuLoaded).fd = c.fd := by
  unfold Chip.scuLoaded; try dsimp only
  rw [Chip.statusEventAll_fd, foldl_keeps Chip.fd _ (by intros; split <;> simp)]
@[simp] theorem Chip.scuLoaded_hlc (c : Chip) : (c.scuLoaded).hlc = c.hlc := by
  unfold Chip.scuLoaded; try dsimp only
  rw [Chip.statusEventAll_hlc, foldl_keeps Chip.hlc _ (by intros; split <;> simp)]
@[simp] theorem Chip.scuLoaded_pins (c : Chip) : (c.scuLoaded).pins = c.pins := by
  unfold Chip.scuLoaded; try dsimp only
  rw [Chip.statusEventAll_pins, foldl_keeps Chip.pins _ (by intros; split <;> simp)]
@[simp] theorem Chip.scuLoaded_free (c : Chip) : (c.scuLoaded).free = c.free := by
  unfold Chip.scuLoaded; try dsimp only
  rw [Chip.statusEventAll_free, foldl_keeps Chip.free _ (by intros; split <;> simp)]

/-! `scuMoved` -/
@[simp] theorem Chip.scuMoved_ap (c : Chip) : (c.scuMoved).ap = c.ap := by
  unfold Chip.scuMoved; try dsimp only
  rw [Chip.statusEventAll_ap, foldl_keeps Chip.ap _ (by intros; simp), Chip.dropFanWrites_ap]
@[simp] theorem Chip.scuMoved_su (c : Chip) : (c.scuMoved).su = c.su := by
  unfold Chip.scuMoved; try dsimp only
  rw [Chip.statusEventAll_su, foldl_keeps Chip.su _ (by intros; simp), Chip.dropFanWrites_su]
@[simp] theorem Chip.scuMoved_ju (c : Chip) : (c.scuMoved).ju = c.ju := by
  unfold Chip.scuMoved; try dsimp only
  rw [Chip.statusEventAll_ju, foldl_keeps Chip.ju _ (by intros; simp), Chip.dropFanWrites_ju]
@[simp] theorem Chip.scuMoved_cu (c : Chip) : (c.scuMoved).cu = c.cu := by
  unfold Chip.scuMoved; try dsimp only
  rw [Chip.statusEventAll_cu, foldl_keeps Chip.cu _ (by intros; simp), Chip.dropFanWrites_cu]
@[simp] theorem Chip.scuMoved_slc (c : Chip) : (c.scuMoved).slc = c.slc := by
  unfold Chip.scuMoved; try dsimp only
  rw [Chip.statusEventAll_slc, foldl_keeps Chip.slc _ (by intros; simp), Chip.dropFanWrites_slc]
@[simp] theorem Chip.scuMoved_pru (c : Chip) : (c.scuMoved).pru = c.pru := by
  unfold Chip.scuMoved; try dsimp only
  rw [Chip.statusEventAll_pru, foldl_keeps Chip.pru _ (by intros; simp), Chip.dropFanWrites_pru]
@[simp] theorem Chip.scuMoved_fd (c : Chip) : (c.scuMoved).fd = c.fd := by
  unfold Chip.scuMoved; try dsimp only
  rw [Chip.statusEventAll_fd, foldl_keeps Chip.fd _ (by intros; simp), Chip.dropFanWrites_fd]
@[simp] theorem Chip.scuMoved_hlc (c : Chip) : (c.scuMoved).hlc = c.hlc := by
  unfold Chip.scuMoved; try dsimp only
  rw [Chip.statusEventAll_hlc, foldl_keeps Chip.hlc _ (by intros; simp), Chip.dropFanWrites_hlc]
@[simp] theorem Chip.scuMoved_pins (c : Chip) : (c.scuMoved).pins = c.pins := by
  unfold Chip.scuMoved; try dsimp only
  rw [Chip.statusEventAll_pins, foldl_keeps Chip.pins _ (by intros; simp), Chip.dropFanWrites_pins]
@[simp] theorem Chip.scuMoved_free (c : Chip) : (c.scuMoved).free = c.free := by
  unfold Chip.scuMoved; try dsimp only
  rw [Chip.statusEventAll_free, foldl_keeps Chip.free _ (by intros; simp), Chip.dropFanWrites_free]

/-! `restartAllIdle` -/
@[simp] theorem Chip.restartAllIdle_ap (c : Chip) : (c.restartAllIdle).ap = c.ap := by
  unfold Chip.restartAllIdle
  exact foldl_keeps Chip.ap _ (by intros; simp) _ _
@[simp] theorem Chip.restartAllIdle_own (c : Chip) : (c.restartAllIdle).own = c.own := by
  unfold Chip.restartAllIdle
  exact foldl_keeps Chip.own _ (by intros; simp) _ _
@[simp] theorem Chip.restartAllIdle_su (c : Chip) : (c.restartAllIdle).su = c.su := by
  unfold Chip.restartAllIdle
  exact foldl_keeps Chip.su _ (by intros; simp) _ _
@[simp] theorem Chip.restartAllIdle_ju (c : Chip) : (c.restartAllIdle).ju = c.ju := by
  unfold Chip.restartAllIdle
  exact foldl_keeps Chip.ju _ (by intros; simp) _ _
@[simp] theorem Chip.restartAllIdle_cu (c : Chip) : (c.restartAllIdle).cu = c.cu := by
  unfold Chip.restartAllIdle
  exact foldl_keeps Chip.cu _ (by intros; simp) _ _
@[simp] theorem Chip.restartAllIdle_slc (c : Chip) : (c.restartAllIdle).slc = c.slc := by
  unfold Chip.restartAllIdle
  exact foldl_keeps Chip.slc _ (by intros; simp) _ _
@[simp] theorem Chip.restartAllIdle_pru (c : Chip) : (c.restartAllIdle).pru = c.pru := by
  unfold Chip.restartAllIdle
  exact foldl_keeps Chip.pru _ (by intros; simp) _ _
@[simp] theorem Chip.restartAllIdle_fd (c : Chip) : (c.restartAllIdle).fd = c.fd := by
  unfold Chip.restartAllIdle
  exact foldl_keeps Chip.fd _ (by intros; simp) _ _
@[simp] theorem Chip.restartAllIdle_hlc (c : Chip) : (c.restartAllIdle).hlc = c.hlc := by
  unfold Chip.restartAllIdle
  exact foldl_keeps Chip.hlc _ (by intros; simp) _ _
@[simp] theorem Chip.restartAllIdle_pins (c : Chip) : (c.restartAllIdle).pins = c.pins := by
  unfold Chip.restartAllIdle
  exact foldl_keeps Chip.pins _ (by intros; simp) _ _
@[simp] theorem Chip.restartAllIdle_free (c : Chip) : (c.restartAllIdle).free = c.free := by
  unfold Chip.restartAllIdle
  exact foldl_keeps Chip.free _ (by intros; simp) _ _

/-! `periodBoundary` -/
@[simp] theorem Chip.periodBoundary_ap (c : Chip) (n : Fin 4) : (c.periodBoundary n).ap = c.ap := by simp [Chip.periodBoundary, apply_ite Chip.ap]
@[simp] theorem Chip.periodBoundary_own (c : Chip) (n : Fin 4) : (c.periodBoundary n).own = c.own := by simp [Chip.periodBoundary, apply_ite Chip.own]
@[simp] theorem Chip.periodBoundary_su (c : Chip) (n : Fin 4) : (c.periodBoundary n).su = c.su := by simp [Chip.periodBoundary, apply_ite Chip.su]
@[simp] theorem Chip.periodBoundary_ju (c : Chip) (n : Fin 4) : (c.periodBoundary n).ju = c.ju := by simp [Chip.periodBoundary, apply_ite Chip.ju]
@[simp] theorem Chip.periodBoundary_cu (c : Chip) (n : Fin 4) : (c.periodBoundary n).cu = c.cu := by simp [Chip.periodBoundary, apply_ite Chip.cu]
@[simp] theorem Chip.periodBoundary_scu (c : Chip) (n : Fin 4) : (c.periodBoundary n).scu = c.scu := by simp [Chip.periodBoundary, apply_ite Chip.scu]
@[simp] theorem Chip.periodBoundary_slc (c : Chip) (n : Fin 4) : (c.periodBoundary n).slc = c.slc := by simp [Chip.periodBoundary, apply_ite Chip.slc]
@[simp] theorem Chip.periodBoundary_pru (c : Chip) (n : Fin 4) : (c.periodBoundary n).pru = c.pru := by simp [Chip.periodBoundary, apply_ite Chip.pru]
@[simp] theorem Chip.periodBoundary_hlc (c : Chip) (n : Fin 4) : (c.periodBoundary n).hlc = c.hlc := by simp [Chip.periodBoundary, apply_ite Chip.hlc]
@[simp] theorem Chip.periodBoundary_pins (c : Chip) (n : Fin 4) : (c.periodBoundary n).pins = c.pins := by simp [Chip.periodBoundary, apply_ite Chip.pins]
@[simp] theorem Chip.periodBoundary_free (c : Chip) (n : Fin 4) : (c.periodBoundary n).free = c.free := by simp [Chip.periodBoundary, apply_ite Chip.free]

/-! `highSideTurnOff` -/
@[simp] theorem Chip.highSideTurnOff_ap (c : Chip) (n : Fin 4) : (c.highSideTurnOff n).ap = c.ap := by simp [Chip.highSideTurnOff, apply_ite Chip.ap]
@[simp] theorem Chip.highSideTurnOff_own (c : Chip) (n : Fin 4) : (c.highSideTurnOff n).own = c.own := by simp [Chip.highSideTurnOff, apply_ite Chip.own]
@[simp] theorem Chip.highSideTurnOff_su (c : Chip) (n : Fin 4) : (c.highSideTurnOff n).su = c.su := by simp [Chip.highSideTurnOff, apply_ite Chip.su]
@[simp] theorem Chip.highSideTurnOff_ju (c : Chip) (n : Fin 4) : (c.highSideTurnOff n).ju = c.ju := by simp [Chip.highSideTurnOff, apply_ite Chip.ju]
@[simp] theorem Chip.highSideTurnOff_cu (c : Chip) (n : Fin 4) : (c.highSideTurnOff n).cu = c.cu := by simp [Chip.highSideTurnOff, apply_ite Chip.cu]
@[simp] theorem Chip.highSideTurnOff_scu (c : Chip) (n : Fin 4) : (c.highSideTurnOff n).scu = c.scu := by simp [Chip.highSideTurnOff, apply_ite Chip.scu]
@[simp] theorem Chip.highSideTurnOff_slc (c : Chip) (n : Fin 4) : (c.highSideTurnOff n).slc = c.slc := by simp [Chip.highSideTurnOff, apply_ite Chip.slc]
@[simp] theorem Chip.highSideTurnOff_pru (c : Chip) (n : Fin 4) : (c.highSideTurnOff n).pru = c.pru := by simp [Chip.highSideTurnOff, apply_ite Chip.pru]
@[simp] theorem Chip.highSideTurnOff_hlc (c : Chip) (n : Fin 4) : (c.highSideTurnOff n).hlc = c.hlc := by simp [Chip.highSideTurnOff, apply_ite Chip.hlc]
@[simp] theorem Chip.highSideTurnOff_pins (c : Chip) (n : Fin 4) : (c.highSideTurnOff n).pins = c.pins := by simp [Chip.highSideTurnOff, apply_ite Chip.pins]
@[simp] theorem Chip.highSideTurnOff_free (c : Chip) (n : Fin 4) : (c.highSideTurnOff n).free = c.free := by simp [Chip.highSideTurnOff, apply_ite Chip.free]

/-! `deadBandExpiry` -/
@[simp] theorem Chip.deadBandExpiry_ap (c : Chip) (n : Fin 4) (o : Fin 4) : (c.deadBandExpiry n o).ap = c.ap := by simp [Chip.deadBandExpiry]
@[simp] theorem Chip.deadBandExpiry_own (c : Chip) (n : Fin 4) (o : Fin 4) : (c.deadBandExpiry n o).own = c.own := by simp [Chip.deadBandExpiry]
@[simp] theorem Chip.deadBandExpiry_su (c : Chip) (n : Fin 4) (o : Fin 4) : (c.deadBandExpiry n o).su = c.su := by simp [Chip.deadBandExpiry]
@[simp] theorem Chip.deadBandExpiry_ju (c : Chip) (n : Fin 4) (o : Fin 4) : (c.deadBandExpiry n o).ju = c.ju := by simp [Chip.deadBandExpiry]
@[simp] theorem Chip.deadBandExpiry_cu (c : Chip) (n : Fin 4) (o : Fin 4) : (c.deadBandExpiry n o).cu = c.cu := by simp [Chip.deadBandExpiry]
@[simp] theorem Chip.deadBandExpiry_scu (c : Chip) (n : Fin 4) (o : Fin 4) : (c.deadBandExpiry n o).scu = c.scu := by simp [Chip.deadBandExpiry]
@[simp] theorem Chip.deadBandExpiry_slc (c : Chip) (n : Fin 4) (o : Fin 4) : (c.deadBandExpiry n o).slc = c.slc := by simp [Chip.deadBandExpiry]
@[simp] theorem Chip.deadBandExpiry_pru (c : Chip) (n : Fin 4) (o : Fin 4) : (c.deadBandExpiry n o).pru = c.pru := by simp [Chip.deadBandExpiry]
@[simp] theorem Chip.deadBandExpiry_hlc (c : Chip) (n : Fin 4) (o : Fin 4) : (c.deadBandExpiry n o).hlc = c.hlc := by simp [Chip.deadBandExpiry]
@[simp] theorem Chip.deadBandExpiry_pins (c : Chip) (n : Fin 4) (o : Fin 4) : (c.deadBandExpiry n o).pins = c.pins := by simp [Chip.deadBandExpiry]
@[simp] theorem Chip.deadBandExpiry_free (c : Chip) (n : Fin 4) (o : Fin 4) : (c.deadBandExpiry n o).free = c.free := by simp [Chip.deadBandExpiry]

/-! `targetMatch` -/
@[simp] theorem Chip.targetMatch_ap (c : Chip) (n : Fin 4) : (c.targetMatch n).ap = c.ap := by simp [Chip.targetMatch, apply_ite Chip.ap]
@[simp] theorem Chip.targetMatch_own (c : Chip) (n : Fin 4) : (c.targetMatch n).own = c.own := by simp [Chip.targetMatch, apply_ite Chip.own]
@[simp] theorem Chip.targetMatch_su (c : Chip) (n : Fin 4) : (c.targetMatch n).su = c.su := by simp [Chip.targetMatch, apply_ite Chip.su]
@[simp] theorem Chip.targetMatch_ju (c : Chip) (n : Fin 4) : (c.targetMatch n).ju = c.ju := by simp [Chip.targetMatch, apply_ite Chip.ju]
@[simp] theorem Chip.targetMatch_cu (c : Chip) (n : Fin 4) : (c.targetMatch n).cu = c.cu := by simp [Chip.targetMatch, apply_ite Chip.cu]
@[simp] theorem Chip.targetMatch_scu (c : Chip) (n : Fin 4) : (c.targetMatch n).scu = c.scu := by simp [Chip.targetMatch, apply_ite Chip.scu]
@[simp] theorem Chip.targetMatch_slc (c : Chip) (n : Fin 4) : (c.targetMatch n).slc = c.slc := by simp [Chip.targetMatch, apply_ite Chip.slc]
@[simp] theorem Chip.targetMatch_hlc (c : Chip) (n : Fin 4) : (c.targetMatch n).hlc = c.hlc := by simp [Chip.targetMatch, apply_ite Chip.hlc]
@[simp] theorem Chip.targetMatch_pins (c : Chip) (n : Fin 4) : (c.targetMatch n).pins = c.pins := by simp [Chip.targetMatch, apply_ite Chip.pins]
@[simp] theorem Chip.targetMatch_free (c : Chip) (n : Fin 4) : (c.targetMatch n).free = c.free := by simp [Chip.targetMatch, apply_ite Chip.free]

/-! `writeSlot` -/
@[simp] theorem Chip.writeSlot_ap (c : Chip) (n : Fin 4) (i : Fin 8) (x : SlotStatus) (t : Tag) : (c.writeSlot n i x t).ap = c.ap := by simp [Chip.writeSlot]
@[simp] theorem Chip.writeSlot_su (c : Chip) (n : Fin 4) (i : Fin 8) (x : SlotStatus) (t : Tag) : (c.writeSlot n i x t).su = c.su := by simp [Chip.writeSlot]
@[simp] theorem Chip.writeSlot_ju (c : Chip) (n : Fin 4) (i : Fin 8) (x : SlotStatus) (t : Tag) : (c.writeSlot n i x t).ju = c.ju := by simp [Chip.writeSlot]
@[simp] theorem Chip.writeSlot_cu (c : Chip) (n : Fin 4) (i : Fin 8) (x : SlotStatus) (t : Tag) : (c.writeSlot n i x t).cu = c.cu := by simp [Chip.writeSlot]
@[simp] theorem Chip.writeSlot_scu (c : Chip) (n : Fin 4) (i : Fin 8) (x : SlotStatus) (t : Tag) : (c.writeSlot n i x t).scu = c.scu := by simp [Chip.writeSlot]
@[simp] theorem Chip.writeSlot_slc (c : Chip) (n : Fin 4) (i : Fin 8) (x : SlotStatus) (t : Tag) : (c.writeSlot n i x t).slc = c.slc := by simp [Chip.writeSlot]
@[simp] theorem Chip.writeSlot_fd (c : Chip) (n : Fin 4) (i : Fin 8) (x : SlotStatus) (t : Tag) : (c.writeSlot n i x t).fd = c.fd := by simp [Chip.writeSlot]
@[simp] theorem Chip.writeSlot_hlc (c : Chip) (n : Fin 4) (i : Fin 8) (x : SlotStatus) (t : Tag) : (c.writeSlot n i x t).hlc = c.hlc := by simp [Chip.writeSlot]
@[simp] theorem Chip.writeSlot_pins (c : Chip) (n : Fin 4) (i : Fin 8) (x : SlotStatus) (t : Tag) : (c.writeSlot n i x t).pins = c.pins := by simp [Chip.writeSlot]
@[simp] theorem Chip.writeSlot_free (c : Chip) (n : Fin 4) (i : Fin 8) (x : SlotStatus) (t : Tag) : (c.writeSlot n i x t).free = c.free := by simp [Chip.writeSlot]

/-! `startAlign` -/
@[simp] theorem Chip.startAlign_ap (c : Chip) (n : Fin 4) : (c.startAlign n).ap = c.ap := by simp [Chip.startAlign]
@[simp] theorem Chip.startAlign_own (c : Chip) (n : Fin 4) : (c.startAlign n).own = c.own := by simp [Chip.startAlign]
@[simp] theorem Chip.startAlign_su (c : Chip) (n : Fin 4) : (c.startAlign n).su = c.su := by simp [Chip.startAlign]
@[simp] theorem Chip.startAlign_ju (c : Chip) (n : Fin 4) : (c.startAlign n).ju = c.ju := by simp [Chip.startAlign]
@[simp] theorem Chip.startAlign_cu (c : Chip) (n : Fin 4) : (c.startAlign n).cu = c.cu := by simp [Chip.startAlign]
@[simp] theorem Chip.startAlign_scu (c : Chip) (n : Fin 4) : (c.startAlign n).scu = c.scu := by simp [Chip.startAlign]
@[simp] theorem Chip.startAlign_slc (c : Chip) (n : Fin 4) : (c.startAlign n).slc = c.slc := by simp [Chip.startAlign]
@[simp] theorem Chip.startAlign_hlc (c : Chip) (n : Fin 4) : (c.startAlign n).hlc = c.hlc := by simp [Chip.startAlign]
@[simp] theorem Chip.startAlign_pins (c : Chip) (n : Fin 4) : (c.startAlign n).pins = c.pins := by simp [Chip.startAlign]
@[simp] theorem Chip.startAlign_free (c : Chip) (n : Fin 4) : (c.startAlign n).free = c.free := by simp [Chip.startAlign]

/-! `startEject` -/
@[simp] theorem Chip.startEject_ap (c : Chip) (n : Fin 4) : (c.startEject n).ap = c.ap := by simp [Chip.startEject]
@[simp] theorem Chip.startEject_own (c : Chip) (n : Fin 4) : (c.startEject n).own = c.own := by simp [Chip.startEject]
@[simp] theorem Chip.startEject_su (c : Chip) (n : Fin 4) : (c.startEject n).su = c.su := by simp [Chip.startEject]
@[simp] theorem Chip.startEject_ju (c : Chip) (n : Fin 4) : (c.startEject n).ju = c.ju := by simp [Chip.startEject]
@[simp] theorem Chip.startEject_cu (c : Chip) (n : Fin 4) : (c.startEject n).cu = c.cu := by simp [Chip.startEject]
@[simp] theorem Chip.startEject_scu (c : Chip) (n : Fin 4) : (c.startEject n).scu = c.scu := by simp [Chip.startEject]
@[simp] theorem Chip.startEject_slc (c : Chip) (n : Fin 4) : (c.startEject n).slc = c.slc := by simp [Chip.startEject]
@[simp] theorem Chip.startEject_hlc (c : Chip) (n : Fin 4) : (c.startEject n).hlc = c.hlc := by simp [Chip.startEject]
@[simp] theorem Chip.startEject_pins (c : Chip) (n : Fin 4) : (c.startEject n).pins = c.pins := by simp [Chip.startEject]
@[simp] theorem Chip.startEject_free (c : Chip) (n : Fin 4) : (c.startEject n).free = c.free := by simp [Chip.startEject]

/-! `makeReady` -/
@[simp] theorem Chip.makeReady_ap (c : Chip) (n : Fin 4) : (c.makeReady n).ap = c.ap := by simp [Chip.makeReady]
@[simp] theorem Chip.makeReady_own (c : Chip) (n : Fin 4) : (c.makeReady n).own = c.own := by simp [Chip.makeReady]
@[simp] theorem Chip.makeReady_su (c : Chip) (n : Fin 4) : (c.makeReady n).su = c.su := by simp [Chip.makeReady]
@[simp] theorem Chip.makeReady_ju (c : Chip) (n : Fin 4) : (c.makeReady n).ju = c.ju := by simp [Chip.makeReady]
@[simp] theorem Chip.makeReady_cu (c : Chip) (n : Fin 4) : (c.makeReady n).cu = c.cu := by simp [Chip.makeReady]
@[simp] theorem Chip.makeReady_scu (c : Chip) (n : Fin 4) : (c.makeReady n).scu = c.scu := by simp [Chip.makeReady]
@[simp] theorem Chip.makeReady_slc (c : Chip) (n : Fin 4) : (c.makeReady n).slc = c.slc := by simp [Chip.makeReady]
@[simp] theorem Chip.makeReady_hlc (c : Chip) (n : Fin 4) : (c.makeReady n).hlc = c.hlc := by simp [Chip.makeReady]
@[simp] theorem Chip.makeReady_pins (c : Chip) (n : Fin 4) : (c.makeReady n).pins = c.pins := by simp [Chip.makeReady]
@[simp] theorem Chip.makeReady_free (c : Chip) (n : Fin 4) : (c.makeReady n).free = c.free := by simp [Chip.makeReady]

/-! `makeEmpty` -/
@[simp] theorem Chip.makeEmpty_ap (c : Chip) (n : Fin 4) : (c.makeEmpty n).ap = c.ap := by simp [Chip.makeEmpty]
@[simp] theorem Chip.makeEmpty_own (c : Chip) (n : Fin 4) : (c.makeEmpty n).own = c.own := by simp [Chip.makeEmpty]
@[simp] theorem Chip.makeEmpty_su (c : Chip) (n : Fin 4) : (c.makeEmpty n).su = c.su := by simp [Chip.makeEmpty]
@[simp] theorem Chip.makeEmpty_ju (c : Chip) (n : Fin 4) : (c.makeEmpty n).ju = c.ju := by simp [Chip.makeEmpty]
@[simp] theorem Chip.makeEmpty_cu (c : Chip) (n : Fin 4) : (c.makeEmpty n).cu = c.cu := by simp [Chip.makeEmpty]
@[simp] theorem Chip.makeEmpty_scu (c : Chip) (n : Fin 4) : (c.makeEmpty n).scu = c.scu := by simp [Chip.makeEmpty]
@[simp] theorem Chip.makeEmpty_slc (c : Chip) (n : Fin 4) : (c.makeEmpty n).slc = c.slc := by simp [Chip.makeEmpty]
@[simp] theorem Chip.makeEmpty_hlc (c : Chip) (n : Fin 4) : (c.makeEmpty n).hlc = c.hlc := by simp [Chip.makeEmpty]
@[simp] theorem Chip.makeEmpty_pins (c : Chip) (n : Fin 4) : (c.makeEmpty n).pins = c.pins := by simp [Chip.makeEmpty]
@[simp] theorem Chip.makeEmpty_free (c : Chip) (n : Fin 4) : (c.makeEmpty n).free = c.free := by simp [Chip.makeEmpty]

/-! `alignNew` -/
@[simp] theorem Chip.alignNew_ap (c : Chip) (n : Fin 4) : (c.alignNew n).ap = c.ap := by simp [Chip.alignNew]
@[simp] theorem Chip.alignNew_ju (c : Chip) (n : Fin 4) : (c.alignNew n).ju = c.ju := by simp [Chip.alignNew]
@[simp] theorem Chip.alignNew_cu (c : Chip) (n : Fin 4) : (c.alignNew n).cu = c.cu := by simp [Chip.alignNew]
@[simp] theorem Chip.alignNew_scu (c : Chip) (n : Fin 4) : (c.alignNew n).scu = c.scu := by simp [Chip.alignNew]
@[simp] theorem Chip.alignNew_slc (c : Chip) (n : Fin 4) : (c.alignNew n).slc = c.slc := by simp [Chip.alignNew]
@[simp] theorem Chip.alignNew_hlc (c : Chip) (n : Fin 4) : (c.alignNew n).hlc = c.hlc := by simp [Chip.alignNew]
@[simp] theorem Chip.alignNew_pins (c : Chip) (n : Fin 4) : (c.alignNew n).pins = c.pins := by simp [Chip.alignNew]
@[simp] theorem Chip.alignNew_free (c : Chip) (n : Fin 4) : (c.alignNew n).free = c.free := by simp [Chip.alignNew]

/-! `reportHalted` -/
@[simp] theorem Chip.reportHalted_ap (c : Chip) (n : Fin 4) : (c.reportHalted n).ap = c.ap := by simp [Chip.reportHalted]
@[simp] theorem Chip.reportHalted_ju (c : Chip) (n : Fin 4) : (c.reportHalted n).ju = c.ju := by simp [Chip.reportHalted]
@[simp] theorem Chip.reportHalted_cu (c : Chip) (n : Fin 4) : (c.reportHalted n).cu = c.cu := by simp [Chip.reportHalted]
@[simp] theorem Chip.reportHalted_scu (c : Chip) (n : Fin 4) : (c.reportHalted n).scu = c.scu := by simp [Chip.reportHalted]
@[simp] theorem Chip.reportHalted_slc (c : Chip) (n : Fin 4) : (c.reportHalted n).slc = c.slc := by simp [Chip.reportHalted]
@[simp] theorem Chip.reportHalted_pru (c : Chip) (n : Fin 4) : (c.reportHalted n).pru = c.pru := by simp [Chip.reportHalted]
@[simp] theorem Chip.reportHalted_fd (c : Chip) (n : Fin 4) : (c.reportHalted n).fd = c.fd := by simp [Chip.reportHalted]
@[simp] theorem Chip.reportHalted_hlc (c : Chip) (n : Fin 4) : (c.reportHalted n).hlc = c.hlc := by simp [Chip.reportHalted]
@[simp] theorem Chip.reportHalted_pins (c : Chip) (n : Fin 4) : (c.reportHalted n).pins = c.pins := by simp [Chip.reportHalted]
@[simp] theorem Chip.reportHalted_free (c : Chip) (n : Fin 4) : (c.reportHalted n).free = c.free := by simp [Chip.reportHalted]

/-! `endHead` -/
@[simp] theorem Chip.endHead_ap (c : Chip) (n : Fin 4) : (c.endHead n).ap = c.ap := by simp [Chip.endHead]
@[simp] theorem Chip.endHead_own (c : Chip) (n : Fin 4) : (c.endHead n).own = c.own := by simp [Chip.endHead]
@[simp] theorem Chip.endHead_su (c : Chip) (n : Fin 4) : (c.endHead n).su = c.su := by simp [Chip.endHead]
@[simp] theorem Chip.endHead_ju (c : Chip) (n : Fin 4) : (c.endHead n).ju = c.ju := by simp [Chip.endHead]
@[simp] theorem Chip.endHead_cu (c : Chip) (n : Fin 4) : (c.endHead n).cu = c.cu := by simp [Chip.endHead]
@[simp] theorem Chip.endHead_scu (c : Chip) (n : Fin 4) : (c.endHead n).scu = c.scu := by simp [Chip.endHead]
@[simp] theorem Chip.endHead_slc (c : Chip) (n : Fin 4) : (c.endHead n).slc = c.slc := by simp [Chip.endHead]
@[simp] theorem Chip.endHead_fd (c : Chip) (n : Fin 4) : (c.endHead n).fd = c.fd := by simp [Chip.endHead]
@[simp] theorem Chip.endHead_hlc (c : Chip) (n : Fin 4) : (c.endHead n).hlc = c.hlc := by simp [Chip.endHead]
@[simp] theorem Chip.endHead_pins (c : Chip) (n : Fin 4) : (c.endHead n).pins = c.pins := by simp [Chip.endHead]
@[simp] theorem Chip.endHead_free (c : Chip) (n : Fin 4) : (c.endHead n).free = c.free := by simp [Chip.endHead]

/-! `askStamp` -/
@[simp] theorem Chip.askStamp_ap (c : Chip) (n : Fin 4) (q : Nat) (x : PrintState) : (c.askStamp n q x).ap = c.ap := by simp [Chip.askStamp]
@[simp] theorem Chip.askStamp_own (c : Chip) (n : Fin 4) (q : Nat) (x : PrintState) : (c.askStamp n q x).own = c.own := by simp [Chip.askStamp]
@[simp] theorem Chip.askStamp_su (c : Chip) (n : Fin 4) (q : Nat) (x : PrintState) : (c.askStamp n q x).su = c.su := by simp [Chip.askStamp]
@[simp] theorem Chip.askStamp_cu (c : Chip) (n : Fin 4) (q : Nat) (x : PrintState) : (c.askStamp n q x).cu = c.cu := by simp [Chip.askStamp]
@[simp] theorem Chip.askStamp_scu (c : Chip) (n : Fin 4) (q : Nat) (x : PrintState) : (c.askStamp n q x).scu = c.scu := by simp [Chip.askStamp]
@[simp] theorem Chip.askStamp_slc (c : Chip) (n : Fin 4) (q : Nat) (x : PrintState) : (c.askStamp n q x).slc = c.slc := by simp [Chip.askStamp]
@[simp] theorem Chip.askStamp_pru (c : Chip) (n : Fin 4) (q : Nat) (x : PrintState) : (c.askStamp n q x).pru = c.pru := by simp [Chip.askStamp]
@[simp] theorem Chip.askStamp_fd (c : Chip) (n : Fin 4) (q : Nat) (x : PrintState) : (c.askStamp n q x).fd = c.fd := by simp [Chip.askStamp]
@[simp] theorem Chip.askStamp_hlc (c : Chip) (n : Fin 4) (q : Nat) (x : PrintState) : (c.askStamp n q x).hlc = c.hlc := by simp [Chip.askStamp]
@[simp] theorem Chip.askStamp_pins (c : Chip) (n : Fin 4) (q : Nat) (x : PrintState) : (c.askStamp n q x).pins = c.pins := by simp [Chip.askStamp]
@[simp] theorem Chip.askStamp_free (c : Chip) (n : Fin 4) (q : Nat) (x : PrintState) : (c.askStamp n q x).free = c.free := by simp [Chip.askStamp]

/-! `askServiceStamp` -/
@[simp] theorem Chip.askServiceStamp_ap (c : Chip) (n : Fin 4) (v : Service) (x : PrintState) : (c.askServiceStamp n v x).ap = c.ap := by simp [Chip.askServiceStamp]
@[simp] theorem Chip.askServiceStamp_own (c : Chip) (n : Fin 4) (v : Service) (x : PrintState) : (c.askServiceStamp n v x).own = c.own := by simp [Chip.askServiceStamp]
@[simp] theorem Chip.askServiceStamp_su (c : Chip) (n : Fin 4) (v : Service) (x : PrintState) : (c.askServiceStamp n v x).su = c.su := by simp [Chip.askServiceStamp]
@[simp] theorem Chip.askServiceStamp_cu (c : Chip) (n : Fin 4) (v : Service) (x : PrintState) : (c.askServiceStamp n v x).cu = c.cu := by simp [Chip.askServiceStamp]
@[simp] theorem Chip.askServiceStamp_scu (c : Chip) (n : Fin 4) (v : Service) (x : PrintState) : (c.askServiceStamp n v x).scu = c.scu := by simp [Chip.askServiceStamp]
@[simp] theorem Chip.askServiceStamp_slc (c : Chip) (n : Fin 4) (v : Service) (x : PrintState) : (c.askServiceStamp n v x).slc = c.slc := by simp [Chip.askServiceStamp]
@[simp] theorem Chip.askServiceStamp_fd (c : Chip) (n : Fin 4) (v : Service) (x : PrintState) : (c.askServiceStamp n v x).fd = c.fd := by simp [Chip.askServiceStamp]
@[simp] theorem Chip.askServiceStamp_hlc (c : Chip) (n : Fin 4) (v : Service) (x : PrintState) : (c.askServiceStamp n v x).hlc = c.hlc := by simp [Chip.askServiceStamp]
@[simp] theorem Chip.askServiceStamp_pins (c : Chip) (n : Fin 4) (v : Service) (x : PrintState) : (c.askServiceStamp n v x).pins = c.pins := by simp [Chip.askServiceStamp]
@[simp] theorem Chip.askServiceStamp_free (c : Chip) (n : Fin 4) (v : Service) (x : PrintState) : (c.askServiceStamp n v x).free = c.free := by simp [Chip.askServiceStamp]

/-! `shutService` -/
@[simp] theorem Chip.shutService_ap (c : Chip) (n : Fin 4) : (c.shutService n).ap = c.ap := by
  unfold Chip.shutService; (repeat' split) <;> simp
@[simp] theorem Chip.shutService_su (c : Chip) (n : Fin 4) : (c.shutService n).su = c.su := by
  unfold Chip.shutService; (repeat' split) <;> simp
@[simp] theorem Chip.shutService_cu (c : Chip) (n : Fin 4) : (c.shutService n).cu = c.cu := by
  unfold Chip.shutService; (repeat' split) <;> simp
@[simp] theorem Chip.shutService_scu (c : Chip) (n : Fin 4) : (c.shutService n).scu = c.scu := by
  unfold Chip.shutService; (repeat' split) <;> simp
@[simp] theorem Chip.shutService_slc (c : Chip) (n : Fin 4) : (c.shutService n).slc = c.slc := by
  unfold Chip.shutService; (repeat' split) <;> simp
@[simp] theorem Chip.shutService_fd (c : Chip) (n : Fin 4) : (c.shutService n).fd = c.fd := by
  unfold Chip.shutService; (repeat' split) <;> simp
@[simp] theorem Chip.shutService_hlc (c : Chip) (n : Fin 4) : (c.shutService n).hlc = c.hlc := by
  unfold Chip.shutService; (repeat' split) <;> simp
@[simp] theorem Chip.shutService_pins (c : Chip) (n : Fin 4) : (c.shutService n).pins = c.pins := by
  unfold Chip.shutService; (repeat' split) <;> simp
@[simp] theorem Chip.shutService_free (c : Chip) (n : Fin 4) : (c.shutService n).free = c.free := by
  unfold Chip.shutService; (repeat' split) <;> simp

/-! `addCause` -/
@[simp] theorem Chip.addCause_ap (c : Chip) (n : Fin 4) (x : Cause) : (c.addCause n x).ap = c.ap := by simp [Chip.addCause, apply_ite Chip.ap]
@[simp] theorem Chip.addCause_ju (c : Chip) (n : Fin 4) (x : Cause) : (c.addCause n x).ju = c.ju := by simp [Chip.addCause, apply_ite Chip.ju]
@[simp] theorem Chip.addCause_cu (c : Chip) (n : Fin 4) (x : Cause) : (c.addCause n x).cu = c.cu := by simp [Chip.addCause, apply_ite Chip.cu]
@[simp] theorem Chip.addCause_scu (c : Chip) (n : Fin 4) (x : Cause) : (c.addCause n x).scu = c.scu := by simp [Chip.addCause, apply_ite Chip.scu]
@[simp] theorem Chip.addCause_slc (c : Chip) (n : Fin 4) (x : Cause) : (c.addCause n x).slc = c.slc := by simp [Chip.addCause, apply_ite Chip.slc]
@[simp] theorem Chip.addCause_pru (c : Chip) (n : Fin 4) (x : Cause) : (c.addCause n x).pru = c.pru := by simp [Chip.addCause, apply_ite Chip.pru]
@[simp] theorem Chip.addCause_hlc (c : Chip) (n : Fin 4) (x : Cause) : (c.addCause n x).hlc = c.hlc := by simp [Chip.addCause, apply_ite Chip.hlc]
@[simp] theorem Chip.addCause_pins (c : Chip) (n : Fin 4) (x : Cause) : (c.addCause n x).pins = c.pins := by simp [Chip.addCause, apply_ite Chip.pins]
@[simp] theorem Chip.addCause_free (c : Chip) (n : Fin 4) (x : Cause) : (c.addCause n x).free = c.free := by simp [Chip.addCause, apply_ite Chip.free]

/-! `judgeHalted` -/
@[simp] theorem Chip.judgeHalted_ap (c : Chip) (n : Fin 4) : (c.judgeHalted n).ap = c.ap := by simp [Chip.judgeHalted, apply_ite Chip.ap]
@[simp] theorem Chip.judgeHalted_ju (c : Chip) (n : Fin 4) : (c.judgeHalted n).ju = c.ju := by simp [Chip.judgeHalted, apply_ite Chip.ju]
@[simp] theorem Chip.judgeHalted_cu (c : Chip) (n : Fin 4) : (c.judgeHalted n).cu = c.cu := by simp [Chip.judgeHalted, apply_ite Chip.cu]
@[simp] theorem Chip.judgeHalted_scu (c : Chip) (n : Fin 4) : (c.judgeHalted n).scu = c.scu := by simp [Chip.judgeHalted, apply_ite Chip.scu]
@[simp] theorem Chip.judgeHalted_slc (c : Chip) (n : Fin 4) : (c.judgeHalted n).slc = c.slc := by simp [Chip.judgeHalted, apply_ite Chip.slc]
@[simp] theorem Chip.judgeHalted_pru (c : Chip) (n : Fin 4) : (c.judgeHalted n).pru = c.pru := by simp [Chip.judgeHalted, apply_ite Chip.pru]
@[simp] theorem Chip.judgeHalted_hlc (c : Chip) (n : Fin 4) : (c.judgeHalted n).hlc = c.hlc := by simp [Chip.judgeHalted, apply_ite Chip.hlc]
@[simp] theorem Chip.judgeHalted_pins (c : Chip) (n : Fin 4) : (c.judgeHalted n).pins = c.pins := by simp [Chip.judgeHalted, apply_ite Chip.pins]
@[simp] theorem Chip.judgeHalted_free (c : Chip) (n : Fin 4) : (c.judgeHalted n).free = c.free := by simp [Chip.judgeHalted, apply_ite Chip.free]

/-! `addDue` -/
@[simp] theorem Chip.addDue_ap (c : Chip) (n : Fin 4) (j h : Bool) : (c.addDue n j h).ap = c.ap := by
  cases j <;> cases h <;> simp [Chip.addDue]
@[simp] theorem Chip.addDue_ju (c : Chip) (n : Fin 4) (j h : Bool) : (c.addDue n j h).ju = c.ju := by
  cases j <;> cases h <;> simp [Chip.addDue]
@[simp] theorem Chip.addDue_cu (c : Chip) (n : Fin 4) (j h : Bool) : (c.addDue n j h).cu = c.cu := by
  cases j <;> cases h <;> simp [Chip.addDue]
@[simp] theorem Chip.addDue_scu (c : Chip) (n : Fin 4) (j h : Bool) : (c.addDue n j h).scu = c.scu := by
  cases j <;> cases h <;> simp [Chip.addDue]
@[simp] theorem Chip.addDue_slc (c : Chip) (n : Fin 4) (j h : Bool) : (c.addDue n j h).slc = c.slc := by
  cases j <;> cases h <;> simp [Chip.addDue]
@[simp] theorem Chip.addDue_pru (c : Chip) (n : Fin 4) (j h : Bool) : (c.addDue n j h).pru = c.pru := by
  cases j <;> cases h <;> simp [Chip.addDue]
@[simp] theorem Chip.addDue_hlc (c : Chip) (n : Fin 4) (j h : Bool) : (c.addDue n j h).hlc = c.hlc := by
  cases j <;> cases h <;> simp [Chip.addDue]
@[simp] theorem Chip.addDue_pins (c : Chip) (n : Fin 4) (j h : Bool) : (c.addDue n j h).pins = c.pins := by
  cases j <;> cases h <;> simp [Chip.addDue]
@[simp] theorem Chip.addDue_free (c : Chip) (n : Fin 4) (j h : Bool) : (c.addDue n j h).free = c.free := by
  cases j <;> cases h <;> simp [Chip.addDue]

/-! `shutdown` -/
@[simp] theorem Chip.shutdown_ap (c : Chip) (n : Fin 4) (x : Cause) : (c.shutdown n x).ap = c.ap := by simp [Chip.shutdown]
@[simp] theorem Chip.shutdown_cu (c : Chip) (n : Fin 4) (x : Cause) : (c.shutdown n x).cu = c.cu := by simp [Chip.shutdown]
@[simp] theorem Chip.shutdown_scu (c : Chip) (n : Fin 4) (x : Cause) : (c.shutdown n x).scu = c.scu := by simp [Chip.shutdown]
@[simp] theorem Chip.shutdown_slc (c : Chip) (n : Fin 4) (x : Cause) : (c.shutdown n x).slc = c.slc := by simp [Chip.shutdown]
@[simp] theorem Chip.shutdown_hlc (c : Chip) (n : Fin 4) (x : Cause) : (c.shutdown n x).hlc = c.hlc := by simp [Chip.shutdown]
@[simp] theorem Chip.shutdown_pins (c : Chip) (n : Fin 4) (x : Cause) : (c.shutdown n x).pins = c.pins := by simp [Chip.shutdown]
@[simp] theorem Chip.shutdown_free (c : Chip) (n : Fin 4) (x : Cause) : (c.shutdown n x).free = c.free := by simp [Chip.shutdown]

/-! `cause` -/
@[simp] theorem Chip.cause_ap (c : Chip) (n : Fin 4) (x : Cause) : (c.cause n x).ap = c.ap := by simp [Chip.cause, apply_ite Chip.ap]
@[simp] theorem Chip.cause_cu (c : Chip) (n : Fin 4) (x : Cause) : (c.cause n x).cu = c.cu := by simp [Chip.cause, apply_ite Chip.cu]
@[simp] theorem Chip.cause_scu (c : Chip) (n : Fin 4) (x : Cause) : (c.cause n x).scu = c.scu := by simp [Chip.cause, apply_ite Chip.scu]
@[simp] theorem Chip.cause_slc (c : Chip) (n : Fin 4) (x : Cause) : (c.cause n x).slc = c.slc := by simp [Chip.cause, apply_ite Chip.slc]
@[simp] theorem Chip.cause_hlc (c : Chip) (n : Fin 4) (x : Cause) : (c.cause n x).hlc = c.hlc := by simp [Chip.cause, apply_ite Chip.hlc]
@[simp] theorem Chip.cause_pins (c : Chip) (n : Fin 4) (x : Cause) : (c.cause n x).pins = c.pins := by simp [Chip.cause, apply_ite Chip.pins]
@[simp] theorem Chip.cause_free (c : Chip) (n : Fin 4) (x : Cause) : (c.cause n x).free = c.free := by simp [Chip.cause, apply_ite Chip.free]

/-! `judgeCauses` -/
@[simp] theorem Chip.judgeCauses_ap (c : Chip) (n : Fin 4) : (c.judgeCauses n).ap = c.ap := by simp [Chip.judgeCauses, apply_ite Chip.ap]
@[simp] theorem Chip.judgeCauses_cu (c : Chip) (n : Fin 4) : (c.judgeCauses n).cu = c.cu := by simp [Chip.judgeCauses, apply_ite Chip.cu]
@[simp] theorem Chip.judgeCauses_scu (c : Chip) (n : Fin 4) : (c.judgeCauses n).scu = c.scu := by simp [Chip.judgeCauses, apply_ite Chip.scu]
@[simp] theorem Chip.judgeCauses_slc (c : Chip) (n : Fin 4) : (c.judgeCauses n).slc = c.slc := by simp [Chip.judgeCauses, apply_ite Chip.slc]
@[simp] theorem Chip.judgeCauses_hlc (c : Chip) (n : Fin 4) : (c.judgeCauses n).hlc = c.hlc := by simp [Chip.judgeCauses, apply_ite Chip.hlc]
@[simp] theorem Chip.judgeCauses_pins (c : Chip) (n : Fin 4) : (c.judgeCauses n).pins = c.pins := by simp [Chip.judgeCauses, apply_ite Chip.pins]
@[simp] theorem Chip.judgeCauses_free (c : Chip) (n : Fin 4) : (c.judgeCauses n).free = c.free := by simp [Chip.judgeCauses, apply_ite Chip.free]

/-! `restart` -/
@[simp] theorem Chip.restart_ap (c : Chip) (n : Fin 4) : (c.restart n).ap = c.ap := by simp [Chip.restart, apply_ite Chip.ap]
@[simp] theorem Chip.restart_cu (c : Chip) (n : Fin 4) : (c.restart n).cu = c.cu := by simp [Chip.restart, apply_ite Chip.cu]
@[simp] theorem Chip.restart_scu (c : Chip) (n : Fin 4) : (c.restart n).scu = c.scu := by simp [Chip.restart, apply_ite Chip.scu]
@[simp] theorem Chip.restart_slc (c : Chip) (n : Fin 4) : (c.restart n).slc = c.slc := by simp [Chip.restart, apply_ite Chip.slc]
@[simp] theorem Chip.restart_hlc (c : Chip) (n : Fin 4) : (c.restart n).hlc = c.hlc := by simp [Chip.restart, apply_ite Chip.hlc]
@[simp] theorem Chip.restart_pins (c : Chip) (n : Fin 4) : (c.restart n).pins = c.pins := by simp [Chip.restart, apply_ite Chip.pins]
@[simp] theorem Chip.restart_free (c : Chip) (n : Fin 4) : (c.restart n).free = c.free := by simp [Chip.restart, apply_ite Chip.free]

/-! `testRestart` -/
@[simp] theorem Chip.testRestart_ap (c : Chip) (n : Fin 4) : (c.testRestart n).ap = c.ap := by simp [Chip.testRestart, apply_ite Chip.ap]
@[simp] theorem Chip.testRestart_cu (c : Chip) (n : Fin 4) : (c.testRestart n).cu = c.cu := by simp [Chip.testRestart, apply_ite Chip.cu]
@[simp] theorem Chip.testRestart_scu (c : Chip) (n : Fin 4) : (c.testRestart n).scu = c.scu := by simp [Chip.testRestart, apply_ite Chip.scu]
@[simp] theorem Chip.testRestart_slc (c : Chip) (n : Fin 4) : (c.testRestart n).slc = c.slc := by simp [Chip.testRestart, apply_ite Chip.slc]
@[simp] theorem Chip.testRestart_hlc (c : Chip) (n : Fin 4) : (c.testRestart n).hlc = c.hlc := by simp [Chip.testRestart, apply_ite Chip.hlc]
@[simp] theorem Chip.testRestart_pins (c : Chip) (n : Fin 4) : (c.testRestart n).pins = c.pins := by simp [Chip.testRestart, apply_ite Chip.pins]
@[simp] theorem Chip.testRestart_free (c : Chip) (n : Fin 4) : (c.testRestart n).free = c.free := by simp [Chip.testRestart, apply_ite Chip.free]

/-! `presentOn` -/
@[simp] theorem Chip.presentOn_ap (c : Chip) (n : Fin 4) : (c.presentOn n).ap = c.ap := by simp [Chip.presentOn, apply_ite Chip.ap]
@[simp] theorem Chip.presentOn_cu (c : Chip) (n : Fin 4) : (c.presentOn n).cu = c.cu := by simp [Chip.presentOn, apply_ite Chip.cu]
@[simp] theorem Chip.presentOn_scu (c : Chip) (n : Fin 4) : (c.presentOn n).scu = c.scu := by simp [Chip.presentOn, apply_ite Chip.scu]
@[simp] theorem Chip.presentOn_slc (c : Chip) (n : Fin 4) : (c.presentOn n).slc = c.slc := by simp [Chip.presentOn, apply_ite Chip.slc]
@[simp] theorem Chip.presentOn_hlc (c : Chip) (n : Fin 4) : (c.presentOn n).hlc = c.hlc := by simp [Chip.presentOn, apply_ite Chip.hlc]
@[simp] theorem Chip.presentOn_pins (c : Chip) (n : Fin 4) : (c.presentOn n).pins = c.pins := by simp [Chip.presentOn, apply_ite Chip.pins]
@[simp] theorem Chip.presentOn_free (c : Chip) (n : Fin 4) : (c.presentOn n).free = c.free := by simp [Chip.presentOn, apply_ite Chip.free]

/-! `feedTo` -/
@[simp] theorem Chip.feedTo_ap (c : Chip) (n : Fin 4) (t : Nat) : (c.feedTo n t).ap = c.ap := by simp [Chip.feedTo, apply_ite Chip.ap]
@[simp] theorem Chip.feedTo_own (c : Chip) (n : Fin 4) (t : Nat) : (c.feedTo n t).own = c.own := by simp [Chip.feedTo, apply_ite Chip.own]
@[simp] theorem Chip.feedTo_su (c : Chip) (n : Fin 4) (t : Nat) : (c.feedTo n t).su = c.su := by simp [Chip.feedTo, apply_ite Chip.su]
@[simp] theorem Chip.feedTo_ju (c : Chip) (n : Fin 4) (t : Nat) : (c.feedTo n t).ju = c.ju := by simp [Chip.feedTo, apply_ite Chip.ju]
@[simp] theorem Chip.feedTo_cu (c : Chip) (n : Fin 4) (t : Nat) : (c.feedTo n t).cu = c.cu := by simp [Chip.feedTo, apply_ite Chip.cu]
@[simp] theorem Chip.feedTo_scu (c : Chip) (n : Fin 4) (t : Nat) : (c.feedTo n t).scu = c.scu := by simp [Chip.feedTo, apply_ite Chip.scu]
@[simp] theorem Chip.feedTo_slc (c : Chip) (n : Fin 4) (t : Nat) : (c.feedTo n t).slc = c.slc := by simp [Chip.feedTo, apply_ite Chip.slc]
@[simp] theorem Chip.feedTo_hlc (c : Chip) (n : Fin 4) (t : Nat) : (c.feedTo n t).hlc = c.hlc := by simp [Chip.feedTo, apply_ite Chip.hlc]
@[simp] theorem Chip.feedTo_pins (c : Chip) (n : Fin 4) (t : Nat) : (c.feedTo n t).pins = c.pins := by simp [Chip.feedTo, apply_ite Chip.pins]
@[simp] theorem Chip.feedTo_free (c : Chip) (n : Fin 4) (t : Nat) : (c.feedTo n t).free = c.free := by simp [Chip.feedTo, apply_ite Chip.free]

/-! `beginService` -/
@[simp] theorem Chip.beginService_ap (c : Chip) (n : Fin 4) (e : PrintEntry) (r : List PrintEntry) : (c.beginService n e r).ap = c.ap := by simp [Chip.beginService]
@[simp] theorem Chip.beginService_su (c : Chip) (n : Fin 4) (e : PrintEntry) (r : List PrintEntry) : (c.beginService n e r).su = c.su := by simp [Chip.beginService]
@[simp] theorem Chip.beginService_ju (c : Chip) (n : Fin 4) (e : PrintEntry) (r : List PrintEntry) : (c.beginService n e r).ju = c.ju := by simp [Chip.beginService]
@[simp] theorem Chip.beginService_cu (c : Chip) (n : Fin 4) (e : PrintEntry) (r : List PrintEntry) : (c.beginService n e r).cu = c.cu := by simp [Chip.beginService]
@[simp] theorem Chip.beginService_scu (c : Chip) (n : Fin 4) (e : PrintEntry) (r : List PrintEntry) : (c.beginService n e r).scu = c.scu := by simp [Chip.beginService]
@[simp] theorem Chip.beginService_slc (c : Chip) (n : Fin 4) (e : PrintEntry) (r : List PrintEntry) : (c.beginService n e r).slc = c.slc := by simp [Chip.beginService]
@[simp] theorem Chip.beginService_hlc (c : Chip) (n : Fin 4) (e : PrintEntry) (r : List PrintEntry) : (c.beginService n e r).hlc = c.hlc := by simp [Chip.beginService]
@[simp] theorem Chip.beginService_pins (c : Chip) (n : Fin 4) (e : PrintEntry) (r : List PrintEntry) : (c.beginService n e r).pins = c.pins := by simp [Chip.beginService]
@[simp] theorem Chip.beginService_free (c : Chip) (n : Fin 4) (e : PrintEntry) (r : List PrintEntry) : (c.beginService n e r).free = c.free := by simp [Chip.beginService]

/-! `endService` -/
@[simp] theorem Chip.endService_ap (c : Chip) (n : Fin 4) : (c.endService n).ap = c.ap := by simp [Chip.endService]
@[simp] theorem Chip.endService_own (c : Chip) (n : Fin 4) : (c.endService n).own = c.own := by simp [Chip.endService]
@[simp] theorem Chip.endService_su (c : Chip) (n : Fin 4) : (c.endService n).su = c.su := by simp [Chip.endService]
@[simp] theorem Chip.endService_ju (c : Chip) (n : Fin 4) : (c.endService n).ju = c.ju := by simp [Chip.endService]
@[simp] theorem Chip.endService_cu (c : Chip) (n : Fin 4) : (c.endService n).cu = c.cu := by simp [Chip.endService]
@[simp] theorem Chip.endService_scu (c : Chip) (n : Fin 4) : (c.endService n).scu = c.scu := by simp [Chip.endService]
@[simp] theorem Chip.endService_slc (c : Chip) (n : Fin 4) : (c.endService n).slc = c.slc := by simp [Chip.endService]
@[simp] theorem Chip.endService_fd (c : Chip) (n : Fin 4) : (c.endService n).fd = c.fd := by simp [Chip.endService]
@[simp] theorem Chip.endService_hlc (c : Chip) (n : Fin 4) : (c.endService n).hlc = c.hlc := by simp [Chip.endService]
@[simp] theorem Chip.endService_pins (c : Chip) (n : Fin 4) : (c.endService n).pins = c.pins := by simp [Chip.endService]
@[simp] theorem Chip.endService_free (c : Chip) (n : Fin 4) : (c.endService n).free = c.free := by simp [Chip.endService]

/-! `readText` -/
@[simp] theorem Chip.readText_ap (c : Chip) (n : Fin 4) (s : Fin 8) (b : Nat) (w : List Word) : (c.readText n s b w).ap = c.ap := by simp [Chip.readText]
@[simp] theorem Chip.readText_su (c : Chip) (n : Fin 4) (s : Fin 8) (b : Nat) (w : List Word) : (c.readText n s b w).su = c.su := by simp [Chip.readText]
@[simp] theorem Chip.readText_ju (c : Chip) (n : Fin 4) (s : Fin 8) (b : Nat) (w : List Word) : (c.readText n s b w).ju = c.ju := by simp [Chip.readText]
@[simp] theorem Chip.readText_cu (c : Chip) (n : Fin 4) (s : Fin 8) (b : Nat) (w : List Word) : (c.readText n s b w).cu = c.cu := by simp [Chip.readText]
@[simp] theorem Chip.readText_scu (c : Chip) (n : Fin 4) (s : Fin 8) (b : Nat) (w : List Word) : (c.readText n s b w).scu = c.scu := by simp [Chip.readText]
@[simp] theorem Chip.readText_slc (c : Chip) (n : Fin 4) (s : Fin 8) (b : Nat) (w : List Word) : (c.readText n s b w).slc = c.slc := by simp [Chip.readText]
@[simp] theorem Chip.readText_pru (c : Chip) (n : Fin 4) (s : Fin 8) (b : Nat) (w : List Word) : (c.readText n s b w).pru = c.pru := by simp [Chip.readText]
@[simp] theorem Chip.readText_fd (c : Chip) (n : Fin 4) (s : Fin 8) (b : Nat) (w : List Word) : (c.readText n s b w).fd = c.fd := by simp [Chip.readText]
@[simp] theorem Chip.readText_hlc (c : Chip) (n : Fin 4) (s : Fin 8) (b : Nat) (w : List Word) : (c.readText n s b w).hlc = c.hlc := by simp [Chip.readText]
@[simp] theorem Chip.readText_pins (c : Chip) (n : Fin 4) (s : Fin 8) (b : Nat) (w : List Word) : (c.readText n s b w).pins = c.pins := by simp [Chip.readText]
@[simp] theorem Chip.readText_free (c : Chip) (n : Fin 4) (s : Fin 8) (b : Nat) (w : List Word) : (c.readText n s b w).free = c.free := by simp [Chip.readText]

/-! `abortStrike` -/
@[simp] theorem Chip.abortStrike_ap (c : Chip) (n : Fin 4) (s : Fin 8) : (c.abortStrike n s).ap = c.ap := by simp [Chip.abortStrike]
@[simp] theorem Chip.abortStrike_ju (c : Chip) (n : Fin 4) (s : Fin 8) : (c.abortStrike n s).ju = c.ju := by simp [Chip.abortStrike]
@[simp] theorem Chip.abortStrike_cu (c : Chip) (n : Fin 4) (s : Fin 8) : (c.abortStrike n s).cu = c.cu := by simp [Chip.abortStrike]
@[simp] theorem Chip.abortStrike_scu (c : Chip) (n : Fin 4) (s : Fin 8) : (c.abortStrike n s).scu = c.scu := by simp [Chip.abortStrike]
@[simp] theorem Chip.abortStrike_slc (c : Chip) (n : Fin 4) (s : Fin 8) : (c.abortStrike n s).slc = c.slc := by simp [Chip.abortStrike]
@[simp] theorem Chip.abortStrike_hlc (c : Chip) (n : Fin 4) (s : Fin 8) : (c.abortStrike n s).hlc = c.hlc := by simp [Chip.abortStrike]
@[simp] theorem Chip.abortStrike_pins (c : Chip) (n : Fin 4) (s : Fin 8) : (c.abortStrike n s).pins = c.pins := by simp [Chip.abortStrike]
@[simp] theorem Chip.abortStrike_free (c : Chip) (n : Fin 4) (s : Fin 8) : (c.abortStrike n s).free = c.free := by simp [Chip.abortStrike]

/-! `clearFinish` -/
@[simp] theorem Chip.clearFinish_ap (c : Chip) (n : Fin 4) : (c.clearFinish n).ap = c.ap := by simp [Chip.clearFinish, apply_ite Chip.ap]
@[simp] theorem Chip.clearFinish_cu (c : Chip) (n : Fin 4) : (c.clearFinish n).cu = c.cu := by simp [Chip.clearFinish, apply_ite Chip.cu]
@[simp] theorem Chip.clearFinish_scu (c : Chip) (n : Fin 4) : (c.clearFinish n).scu = c.scu := by simp [Chip.clearFinish, apply_ite Chip.scu]
@[simp] theorem Chip.clearFinish_slc (c : Chip) (n : Fin 4) : (c.clearFinish n).slc = c.slc := by simp [Chip.clearFinish, apply_ite Chip.slc]
@[simp] theorem Chip.clearFinish_hlc (c : Chip) (n : Fin 4) : (c.clearFinish n).hlc = c.hlc := by simp [Chip.clearFinish, apply_ite Chip.hlc]
@[simp] theorem Chip.clearFinish_pins (c : Chip) (n : Fin 4) : (c.clearFinish n).pins = c.pins := by simp [Chip.clearFinish, apply_ite Chip.pins]
@[simp] theorem Chip.clearFinish_free (c : Chip) (n : Fin 4) : (c.clearFinish n).free = c.free := by simp [Chip.clearFinish, apply_ite Chip.free]

/-! `cancelQueue` -/
@[simp] theorem Chip.cancelQueue_ap (c : Chip) (n : Fin 4) : (c.cancelQueue n).ap = c.ap := by
  unfold Chip.cancelQueue
  simp [foldl_keeps Chip.ap (fun c (e : PrintEntry) => c.writeSlot n e.slot (.cancelled Reason.cleared.code)) (by intros; simp)]
@[simp] theorem Chip.cancelQueue_su (c : Chip) (n : Fin 4) : (c.cancelQueue n).su = c.su := by
  unfold Chip.cancelQueue
  simp [foldl_keeps Chip.su (fun c (e : PrintEntry) => c.writeSlot n e.slot (.cancelled Reason.cleared.code)) (by intros; simp)]
@[simp] theorem Chip.cancelQueue_ju (c : Chip) (n : Fin 4) : (c.cancelQueue n).ju = c.ju := by
  unfold Chip.cancelQueue
  simp [foldl_keeps Chip.ju (fun c (e : PrintEntry) => c.writeSlot n e.slot (.cancelled Reason.cleared.code)) (by intros; simp)]
@[simp] theorem Chip.cancelQueue_cu (c : Chip) (n : Fin 4) : (c.cancelQueue n).cu = c.cu := by
  unfold Chip.cancelQueue
  simp [foldl_keeps Chip.cu (fun c (e : PrintEntry) => c.writeSlot n e.slot (.cancelled Reason.cleared.code)) (by intros; simp)]
@[simp] theorem Chip.cancelQueue_scu (c : Chip) (n : Fin 4) : (c.cancelQueue n).scu = c.scu := by
  unfold Chip.cancelQueue
  simp [foldl_keeps Chip.scu (fun c (e : PrintEntry) => c.writeSlot n e.slot (.cancelled Reason.cleared.code)) (by intros; simp)]
@[simp] theorem Chip.cancelQueue_slc (c : Chip) (n : Fin 4) : (c.cancelQueue n).slc = c.slc := by
  unfold Chip.cancelQueue
  simp [foldl_keeps Chip.slc (fun c (e : PrintEntry) => c.writeSlot n e.slot (.cancelled Reason.cleared.code)) (by intros; simp)]
@[simp] theorem Chip.cancelQueue_fd (c : Chip) (n : Fin 4) : (c.cancelQueue n).fd = c.fd := by
  unfold Chip.cancelQueue
  simp [foldl_keeps Chip.fd (fun c (e : PrintEntry) => c.writeSlot n e.slot (.cancelled Reason.cleared.code)) (by intros; simp)]
@[simp] theorem Chip.cancelQueue_hlc (c : Chip) (n : Fin 4) : (c.cancelQueue n).hlc = c.hlc := by
  unfold Chip.cancelQueue
  simp [foldl_keeps Chip.hlc (fun c (e : PrintEntry) => c.writeSlot n e.slot (.cancelled Reason.cleared.code)) (by intros; simp)]
@[simp] theorem Chip.cancelQueue_pins (c : Chip) (n : Fin 4) : (c.cancelQueue n).pins = c.pins := by
  unfold Chip.cancelQueue
  simp [foldl_keeps Chip.pins (fun c (e : PrintEntry) => c.writeSlot n e.slot (.cancelled Reason.cleared.code)) (by intros; simp)]
@[simp] theorem Chip.cancelQueue_free (c : Chip) (n : Fin 4) : (c.cancelQueue n).free = c.free := by
  unfold Chip.cancelQueue
  simp [foldl_keeps Chip.free (fun c (e : PrintEntry) => c.writeSlot n e.slot (.cancelled Reason.cleared.code)) (by intros; simp)]

/-! `scanSlots` -/
@[simp] theorem Chip.scanSlots_ap (c : Chip) : (c.scanSlots).ap = c.ap := by simp [Chip.scanSlots]
@[simp] theorem Chip.scanSlots_su (c : Chip) : (c.scanSlots).su = c.su := by simp [Chip.scanSlots]
@[simp] theorem Chip.scanSlots_ju (c : Chip) : (c.scanSlots).ju = c.ju := by simp [Chip.scanSlots]
@[simp] theorem Chip.scanSlots_cu (c : Chip) : (c.scanSlots).cu = c.cu := by simp [Chip.scanSlots]
@[simp] theorem Chip.scanSlots_scu (c : Chip) : (c.scanSlots).scu = c.scu := by simp [Chip.scanSlots]
@[simp] theorem Chip.scanSlots_slc (c : Chip) : (c.scanSlots).slc = c.slc := by simp [Chip.scanSlots]
@[simp] theorem Chip.scanSlots_fd (c : Chip) : (c.scanSlots).fd = c.fd := by simp [Chip.scanSlots]
@[simp] theorem Chip.scanSlots_hlc (c : Chip) : (c.scanSlots).hlc = c.hlc := by simp [Chip.scanSlots]
@[simp] theorem Chip.scanSlots_pins (c : Chip) : (c.scanSlots).pins = c.pins := by simp [Chip.scanSlots]
@[simp] theorem Chip.scanSlots_free (c : Chip) : (c.scanSlots).free = c.free := by simp [Chip.scanSlots]

/-! `startPrinters` -/
@[simp] theorem Chip.startPrinters_ap (c : Chip) : (c.startPrinters).ap = c.ap := by
  unfold Chip.startPrinters
  rw [foldl_keeps Chip.ap _ (by intros; split <;> simp)]
@[simp] theorem Chip.startPrinters_cu (c : Chip) : (c.startPrinters).cu = c.cu := by
  unfold Chip.startPrinters
  rw [foldl_keeps Chip.cu _ (by intros; split <;> simp)]
@[simp] theorem Chip.startPrinters_scu (c : Chip) : (c.startPrinters).scu = c.scu := by
  unfold Chip.startPrinters
  rw [foldl_keeps Chip.scu _ (by intros; split <;> simp)]
@[simp] theorem Chip.startPrinters_slc (c : Chip) : (c.startPrinters).slc = c.slc := by
  unfold Chip.startPrinters
  rw [foldl_keeps Chip.slc _ (by intros; split <;> simp)]
@[simp] theorem Chip.startPrinters_hlc (c : Chip) : (c.startPrinters).hlc = c.hlc := by
  unfold Chip.startPrinters
  rw [foldl_keeps Chip.hlc _ (by intros; split <;> simp)]
@[simp] theorem Chip.startPrinters_pins (c : Chip) : (c.startPrinters).pins = c.pins := by
  unfold Chip.startPrinters
  rw [foldl_keeps Chip.pins _ (by intros; split <;> simp)]
@[simp] theorem Chip.startPrinters_free (c : Chip) : (c.startPrinters).free = c.free := by
  unfold Chip.startPrinters
  rw [foldl_keeps Chip.free _ (by intros; split <;> simp)]

/-! `judgeAllCauses` -/
@[simp] theorem Chip.judgeAllCauses_ap (c : Chip) : (c.judgeAllCauses).ap = c.ap := by
  unfold Chip.judgeAllCauses
  rw [foldl_keeps Chip.ap _ (by intros; simp)]
@[simp] theorem Chip.judgeAllCauses_cu (c : Chip) : (c.judgeAllCauses).cu = c.cu := by
  unfold Chip.judgeAllCauses
  rw [foldl_keeps Chip.cu _ (by intros; simp)]
@[simp] theorem Chip.judgeAllCauses_scu (c : Chip) : (c.judgeAllCauses).scu = c.scu := by
  unfold Chip.judgeAllCauses
  rw [foldl_keeps Chip.scu _ (by intros; simp)]
@[simp] theorem Chip.judgeAllCauses_slc (c : Chip) : (c.judgeAllCauses).slc = c.slc := by
  unfold Chip.judgeAllCauses
  rw [foldl_keeps Chip.slc _ (by intros; simp)]
@[simp] theorem Chip.judgeAllCauses_hlc (c : Chip) : (c.judgeAllCauses).hlc = c.hlc := by
  unfold Chip.judgeAllCauses
  rw [foldl_keeps Chip.hlc _ (by intros; simp)]
@[simp] theorem Chip.judgeAllCauses_pins (c : Chip) : (c.judgeAllCauses).pins = c.pins := by
  unfold Chip.judgeAllCauses
  rw [foldl_keeps Chip.pins _ (by intros; simp)]
@[simp] theorem Chip.judgeAllCauses_free (c : Chip) : (c.judgeAllCauses).free = c.free := by
  unfold Chip.judgeAllCauses
  rw [foldl_keeps Chip.free _ (by intros; simp)]

/-! `pruLoaded` -/
@[simp] theorem Chip.pruLoaded_ap (c : Chip) : (c.pruLoaded).ap = c.ap := by simp [Chip.pruLoaded, apply_ite Chip.ap]
@[simp] theorem Chip.pruLoaded_cu (c : Chip) : (c.pruLoaded).cu = c.cu := by simp [Chip.pruLoaded, apply_ite Chip.cu]
@[simp] theorem Chip.pruLoaded_scu (c : Chip) : (c.pruLoaded).scu = c.scu := by simp [Chip.pruLoaded, apply_ite Chip.scu]
@[simp] theorem Chip.pruLoaded_slc (c : Chip) : (c.pruLoaded).slc = c.slc := by simp [Chip.pruLoaded, apply_ite Chip.slc]
@[simp] theorem Chip.pruLoaded_hlc (c : Chip) : (c.pruLoaded).hlc = c.hlc := by simp [Chip.pruLoaded, apply_ite Chip.hlc]
@[simp] theorem Chip.pruLoaded_pins (c : Chip) : (c.pruLoaded).pins = c.pins := by simp [Chip.pruLoaded, apply_ite Chip.pins]
@[simp] theorem Chip.pruLoaded_free (c : Chip) : (c.pruLoaded).free = c.free := by simp [Chip.pruLoaded, apply_ite Chip.free]

/-! `stepRestart` -/
@[simp] theorem Chip.stepRestart_ap (c : Chip) (n : Fin 4) : (c.stepRestart n).ap = c.ap := by simp [Chip.stepRestart]
@[simp] theorem Chip.stepRestart_own (c : Chip) (n : Fin 4) : (c.stepRestart n).own = c.own := by simp [Chip.stepRestart]
@[simp] theorem Chip.stepRestart_su (c : Chip) (n : Fin 4) : (c.stepRestart n).su = c.su := by simp [Chip.stepRestart]
@[simp] theorem Chip.stepRestart_ju (c : Chip) (n : Fin 4) : (c.stepRestart n).ju = c.ju := by simp [Chip.stepRestart]
@[simp] theorem Chip.stepRestart_cu (c : Chip) (n : Fin 4) : (c.stepRestart n).cu = c.cu := by simp [Chip.stepRestart]
@[simp] theorem Chip.stepRestart_scu (c : Chip) (n : Fin 4) : (c.stepRestart n).scu = c.scu := by simp [Chip.stepRestart]
@[simp] theorem Chip.stepRestart_slc (c : Chip) (n : Fin 4) : (c.stepRestart n).slc = c.slc := by simp [Chip.stepRestart]
@[simp] theorem Chip.stepRestart_pru (c : Chip) (n : Fin 4) : (c.stepRestart n).pru = c.pru := by simp [Chip.stepRestart]
@[simp] theorem Chip.stepRestart_hlc (c : Chip) (n : Fin 4) : (c.stepRestart n).hlc = c.hlc := by simp [Chip.stepRestart]
@[simp] theorem Chip.stepRestart_pins (c : Chip) (n : Fin 4) : (c.stepRestart n).pins = c.pins := by simp [Chip.stepRestart]
@[simp] theorem Chip.stepRestart_free (c : Chip) (n : Fin 4) : (c.stepRestart n).free = c.free := by simp [Chip.stepRestart]

/-! `printerSettingChanged` -/
@[simp] theorem Chip.printerSettingChanged_ap (c : Chip) (n : Fin 4) (k : PrnSetting) : (c.printerSettingChanged n k).ap = c.ap := by
  unfold Chip.printerSettingChanged; (repeat' split) <;> simp
@[simp] theorem Chip.printerSettingChanged_cu (c : Chip) (n : Fin 4) (k : PrnSetting) : (c.printerSettingChanged n k).cu = c.cu := by
  unfold Chip.printerSettingChanged; (repeat' split) <;> simp
@[simp] theorem Chip.printerSettingChanged_scu (c : Chip) (n : Fin 4) (k : PrnSetting) : (c.printerSettingChanged n k).scu = c.scu := by
  unfold Chip.printerSettingChanged; (repeat' split) <;> simp
@[simp] theorem Chip.printerSettingChanged_slc (c : Chip) (n : Fin 4) (k : PrnSetting) : (c.printerSettingChanged n k).slc = c.slc := by
  unfold Chip.printerSettingChanged; (repeat' split) <;> simp
@[simp] theorem Chip.printerSettingChanged_hlc (c : Chip) (n : Fin 4) (k : PrnSetting) : (c.printerSettingChanged n k).hlc = c.hlc := by
  unfold Chip.printerSettingChanged; (repeat' split) <;> simp
@[simp] theorem Chip.printerSettingChanged_pins (c : Chip) (n : Fin 4) (k : PrnSetting) : (c.printerSettingChanged n k).pins = c.pins := by
  unfold Chip.printerSettingChanged; (repeat' split) <;> simp
@[simp] theorem Chip.printerSettingChanged_free (c : Chip) (n : Fin 4) (k : PrnSetting) : (c.printerSettingChanged n k).free = c.free := by
  unfold Chip.printerSettingChanged; (repeat' split) <;> simp

/-! `endSend` -/
@[simp] theorem Chip.endSend_ap (c : Chip) : (c.endSend).ap = c.ap := by simp [Chip.endSend]
@[simp] theorem Chip.endSend_own (c : Chip) : (c.endSend).own = c.own := by simp [Chip.endSend]
@[simp] theorem Chip.endSend_su (c : Chip) : (c.endSend).su = c.su := by simp [Chip.endSend]
@[simp] theorem Chip.endSend_ju (c : Chip) : (c.endSend).ju = c.ju := by simp [Chip.endSend]
@[simp] theorem Chip.endSend_cu (c : Chip) : (c.endSend).cu = c.cu := by simp [Chip.endSend]
@[simp] theorem Chip.endSend_scu (c : Chip) : (c.endSend).scu = c.scu := by simp [Chip.endSend]
@[simp] theorem Chip.endSend_slc (c : Chip) : (c.endSend).slc = c.slc := by simp [Chip.endSend]
@[simp] theorem Chip.endSend_pru (c : Chip) : (c.endSend).pru = c.pru := by simp [Chip.endSend]
@[simp] theorem Chip.endSend_fd (c : Chip) : (c.endSend).fd = c.fd := by simp [Chip.endSend]
@[simp] theorem Chip.endSend_pins (c : Chip) : (c.endSend).pins = c.pins := by simp [Chip.endSend]
@[simp] theorem Chip.endSend_free (c : Chip) : (c.endSend).free = c.free := by simp [Chip.endSend]

/-! `daySending` -/
@[simp] theorem Chip.daySending_ap (c : Chip) : (c.daySending).ap = c.ap := by simp [Chip.daySending]
@[simp] theorem Chip.daySending_su (c : Chip) : (c.daySending).su = c.su := by simp [Chip.daySending]
@[simp] theorem Chip.daySending_ju (c : Chip) : (c.daySending).ju = c.ju := by simp [Chip.daySending]
@[simp] theorem Chip.daySending_pru (c : Chip) : (c.daySending).pru = c.pru := by simp [Chip.daySending]
@[simp] theorem Chip.daySending_fd (c : Chip) : (c.daySending).fd = c.fd := by simp [Chip.daySending]
@[simp] theorem Chip.daySending_hlc (c : Chip) : (c.daySending).hlc = c.hlc := by simp [Chip.daySending]
@[simp] theorem Chip.daySending_pins (c : Chip) : (c.daySending).pins = c.pins := by simp [Chip.daySending]
@[simp] theorem Chip.daySending_free (c : Chip) : (c.daySending).free = c.free := by simp [Chip.daySending]

/-! `daySent` -/
@[simp] theorem Chip.daySent_ap (c : Chip) (b : Nat) : (c.daySent b).ap = c.ap := by simp [Chip.daySent, apply_ite Chip.ap]
@[simp] theorem Chip.daySent_su (c : Chip) (b : Nat) : (c.daySent b).su = c.su := by simp [Chip.daySent, apply_ite Chip.su]
@[simp] theorem Chip.daySent_ju (c : Chip) (b : Nat) : (c.daySent b).ju = c.ju := by simp [Chip.daySent, apply_ite Chip.ju]
@[simp] theorem Chip.daySent_pru (c : Chip) (b : Nat) : (c.daySent b).pru = c.pru := by simp [Chip.daySent, apply_ite Chip.pru]
@[simp] theorem Chip.daySent_fd (c : Chip) (b : Nat) : (c.daySent b).fd = c.fd := by simp [Chip.daySent, apply_ite Chip.fd]
@[simp] theorem Chip.daySent_hlc (c : Chip) (b : Nat) : (c.daySent b).hlc = c.hlc := by simp [Chip.daySent, apply_ite Chip.hlc]
@[simp] theorem Chip.daySent_pins (c : Chip) (b : Nat) : (c.daySent b).pins = c.pins := by simp [Chip.daySent, apply_ite Chip.pins]
@[simp] theorem Chip.daySent_free (c : Chip) (b : Nat) : (c.daySent b).free = c.free := by simp [Chip.daySent, apply_ite Chip.free]

/-! `dayFailed` -/
@[simp] theorem Chip.dayFailed_ap (c : Chip) (w : FailReason) : (c.dayFailed w).ap = c.ap := by simp [Chip.dayFailed, apply_ite Chip.ap]
@[simp] theorem Chip.dayFailed_ju (c : Chip) (w : FailReason) : (c.dayFailed w).ju = c.ju := by simp [Chip.dayFailed, apply_ite Chip.ju]
@[simp] theorem Chip.dayFailed_pru (c : Chip) (w : FailReason) : (c.dayFailed w).pru = c.pru := by simp [Chip.dayFailed, apply_ite Chip.pru]
@[simp] theorem Chip.dayFailed_fd (c : Chip) (w : FailReason) : (c.dayFailed w).fd = c.fd := by simp [Chip.dayFailed, apply_ite Chip.fd]
@[simp] theorem Chip.dayFailed_hlc (c : Chip) (w : FailReason) : (c.dayFailed w).hlc = c.hlc := by simp [Chip.dayFailed, apply_ite Chip.hlc]
@[simp] theorem Chip.dayFailed_pins (c : Chip) (w : FailReason) : (c.dayFailed w).pins = c.pins := by simp [Chip.dayFailed, apply_ite Chip.pins]
@[simp] theorem Chip.dayFailed_free (c : Chip) (w : FailReason) : (c.dayFailed w).free = c.free := by simp [Chip.dayFailed, apply_ite Chip.free]

/-! `sendFails` -/
@[simp] theorem Chip.sendFails_ap (c : Chip) (w : FailReason) : (c.sendFails w).ap = c.ap := by simp [Chip.sendFails, apply_ite Chip.ap]
@[simp] theorem Chip.sendFails_ju (c : Chip) (w : FailReason) : (c.sendFails w).ju = c.ju := by simp [Chip.sendFails, apply_ite Chip.ju]
@[simp] theorem Chip.sendFails_pru (c : Chip) (w : FailReason) : (c.sendFails w).pru = c.pru := by simp [Chip.sendFails, apply_ite Chip.pru]
@[simp] theorem Chip.sendFails_fd (c : Chip) (w : FailReason) : (c.sendFails w).fd = c.fd := by simp [Chip.sendFails, apply_ite Chip.fd]
@[simp] theorem Chip.sendFails_pins (c : Chip) (w : FailReason) : (c.sendFails w).pins = c.pins := by simp [Chip.sendFails, apply_ite Chip.pins]
@[simp] theorem Chip.sendFails_free (c : Chip) (w : FailReason) : (c.sendFails w).free = c.free := by simp [Chip.sendFails, apply_ite Chip.free]

/-! `tellCounts` -/
@[simp] theorem Chip.tellCounts_ap (c : Chip) (a b : Nat) : (c.tellCounts a b).ap = c.ap := by simp [Chip.tellCounts]
@[simp] theorem Chip.tellCounts_su (c : Chip) (a b : Nat) : (c.tellCounts a b).su = c.su := by simp [Chip.tellCounts]
@[simp] theorem Chip.tellCounts_ju (c : Chip) (a b : Nat) : (c.tellCounts a b).ju = c.ju := by simp [Chip.tellCounts]
@[simp] theorem Chip.tellCounts_cu (c : Chip) (a b : Nat) : (c.tellCounts a b).cu = c.cu := by simp [Chip.tellCounts]
@[simp] theorem Chip.tellCounts_slc (c : Chip) (a b : Nat) : (c.tellCounts a b).slc = c.slc := by simp [Chip.tellCounts]
@[simp] theorem Chip.tellCounts_pru (c : Chip) (a b : Nat) : (c.tellCounts a b).pru = c.pru := by simp [Chip.tellCounts]
@[simp] theorem Chip.tellCounts_fd (c : Chip) (a b : Nat) : (c.tellCounts a b).fd = c.fd := by simp [Chip.tellCounts]
@[simp] theorem Chip.tellCounts_hlc (c : Chip) (a b : Nat) : (c.tellCounts a b).hlc = c.hlc := by simp [Chip.tellCounts]
@[simp] theorem Chip.tellCounts_pins (c : Chip) (a b : Nat) : (c.tellCounts a b).pins = c.pins := by simp [Chip.tellCounts]
@[simp] theorem Chip.tellCounts_free (c : Chip) (a b : Nat) : (c.tellCounts a b).free = c.free := by simp [Chip.tellCounts]

/-! `sendBegin` -/
@[simp] theorem Chip.sendBegin_ap (c : Chip) : (c.sendBegin).ap = c.ap := by simp [Chip.sendBegin]
@[simp] theorem Chip.sendBegin_su (c : Chip) : (c.sendBegin).su = c.su := by simp [Chip.sendBegin]
@[simp] theorem Chip.sendBegin_ju (c : Chip) : (c.sendBegin).ju = c.ju := by simp [Chip.sendBegin]
@[simp] theorem Chip.sendBegin_cu (c : Chip) : (c.sendBegin).cu = c.cu := by simp [Chip.sendBegin]
@[simp] theorem Chip.sendBegin_slc (c : Chip) : (c.sendBegin).slc = c.slc := by simp [Chip.sendBegin]
@[simp] theorem Chip.sendBegin_pru (c : Chip) : (c.sendBegin).pru = c.pru := by simp [Chip.sendBegin]
@[simp] theorem Chip.sendBegin_fd (c : Chip) : (c.sendBegin).fd = c.fd := by simp [Chip.sendBegin]
@[simp] theorem Chip.sendBegin_pins (c : Chip) : (c.sendBegin).pins = c.pins := by simp [Chip.sendBegin]
@[simp] theorem Chip.sendBegin_free (c : Chip) : (c.sendBegin).free = c.free := by simp [Chip.sendBegin]

/-! `goCalling` -/
@[simp] theorem Chip.goCalling_ap (c : Chip) : (c.goCalling).ap = c.ap := by simp [Chip.goCalling]
@[simp] theorem Chip.goCalling_own (c : Chip) : (c.goCalling).own = c.own := by simp [Chip.goCalling]
@[simp] theorem Chip.goCalling_su (c : Chip) : (c.goCalling).su = c.su := by simp [Chip.goCalling]
@[simp] theorem Chip.goCalling_ju (c : Chip) : (c.goCalling).ju = c.ju := by simp [Chip.goCalling]
@[simp] theorem Chip.goCalling_cu (c : Chip) : (c.goCalling).cu = c.cu := by simp [Chip.goCalling]
@[simp] theorem Chip.goCalling_scu (c : Chip) : (c.goCalling).scu = c.scu := by simp [Chip.goCalling]
@[simp] theorem Chip.goCalling_slc (c : Chip) : (c.goCalling).slc = c.slc := by simp [Chip.goCalling]
@[simp] theorem Chip.goCalling_pru (c : Chip) : (c.goCalling).pru = c.pru := by simp [Chip.goCalling]
@[simp] theorem Chip.goCalling_fd (c : Chip) : (c.goCalling).fd = c.fd := by simp [Chip.goCalling]
@[simp] theorem Chip.goCalling_pins (c : Chip) : (c.goCalling).pins = c.pins := by simp [Chip.goCalling]
@[simp] theorem Chip.goCalling_free (c : Chip) : (c.goCalling).free = c.free := by simp [Chip.goCalling]

/-! `callIfReady` -/
@[simp] theorem Chip.callIfReady_ap (c : Chip) : (c.callIfReady).ap = c.ap := by simp [Chip.callIfReady, apply_ite Chip.ap]
@[simp] theorem Chip.callIfReady_own (c : Chip) : (c.callIfReady).own = c.own := by simp [Chip.callIfReady, apply_ite Chip.own]
@[simp] theorem Chip.callIfReady_su (c : Chip) : (c.callIfReady).su = c.su := by simp [Chip.callIfReady, apply_ite Chip.su]
@[simp] theorem Chip.callIfReady_ju (c : Chip) : (c.callIfReady).ju = c.ju := by simp [Chip.callIfReady, apply_ite Chip.ju]
@[simp] theorem Chip.callIfReady_cu (c : Chip) : (c.callIfReady).cu = c.cu := by simp [Chip.callIfReady, apply_ite Chip.cu]
@[simp] theorem Chip.callIfReady_scu (c : Chip) : (c.callIfReady).scu = c.scu := by simp [Chip.callIfReady, apply_ite Chip.scu]
@[simp] theorem Chip.callIfReady_slc (c : Chip) : (c.callIfReady).slc = c.slc := by simp [Chip.callIfReady, apply_ite Chip.slc]
@[simp] theorem Chip.callIfReady_pru (c : Chip) : (c.callIfReady).pru = c.pru := by simp [Chip.callIfReady, apply_ite Chip.pru]
@[simp] theorem Chip.callIfReady_fd (c : Chip) : (c.callIfReady).fd = c.fd := by simp [Chip.callIfReady, apply_ite Chip.fd]
@[simp] theorem Chip.callIfReady_pins (c : Chip) : (c.callIfReady).pins = c.pins := by simp [Chip.callIfReady, apply_ite Chip.pins]
@[simp] theorem Chip.callIfReady_free (c : Chip) : (c.callIfReady).free = c.free := by simp [Chip.callIfReady, apply_ite Chip.free]

/-! `suspendSend` -/
@[simp] theorem Chip.suspendSend_ap (c : Chip) : (c.suspendSend).ap = c.ap := by simp [Chip.suspendSend]
@[simp] theorem Chip.suspendSend_own (c : Chip) : (c.suspendSend).own = c.own := by simp [Chip.suspendSend]
@[simp] theorem Chip.suspendSend_su (c : Chip) : (c.suspendSend).su = c.su := by simp [Chip.suspendSend]
@[simp] theorem Chip.suspendSend_ju (c : Chip) : (c.suspendSend).ju = c.ju := by simp [Chip.suspendSend]
@[simp] theorem Chip.suspendSend_cu (c : Chip) : (c.suspendSend).cu = c.cu := by simp [Chip.suspendSend]
@[simp] theorem Chip.suspendSend_scu (c : Chip) : (c.suspendSend).scu = c.scu := by simp [Chip.suspendSend]
@[simp] theorem Chip.suspendSend_slc (c : Chip) : (c.suspendSend).slc = c.slc := by simp [Chip.suspendSend]
@[simp] theorem Chip.suspendSend_pru (c : Chip) : (c.suspendSend).pru = c.pru := by simp [Chip.suspendSend]
@[simp] theorem Chip.suspendSend_fd (c : Chip) : (c.suspendSend).fd = c.fd := by simp [Chip.suspendSend]
@[simp] theorem Chip.suspendSend_pins (c : Chip) : (c.suspendSend).pins = c.pins := by simp [Chip.suspendSend]
@[simp] theorem Chip.suspendSend_free (c : Chip) : (c.suspendSend).free = c.free := by simp [Chip.suspendSend]

/-! `resumeSend` -/
@[simp] theorem Chip.resumeSend_ap (c : Chip) : (c.resumeSend).ap = c.ap := by simp [Chip.resumeSend]
@[simp] theorem Chip.resumeSend_own (c : Chip) : (c.resumeSend).own = c.own := by simp [Chip.resumeSend]
@[simp] theorem Chip.resumeSend_su (c : Chip) : (c.resumeSend).su = c.su := by simp [Chip.resumeSend]
@[simp] theorem Chip.resumeSend_ju (c : Chip) : (c.resumeSend).ju = c.ju := by simp [Chip.resumeSend]
@[simp] theorem Chip.resumeSend_cu (c : Chip) : (c.resumeSend).cu = c.cu := by simp [Chip.resumeSend]
@[simp] theorem Chip.resumeSend_scu (c : Chip) : (c.resumeSend).scu = c.scu := by simp [Chip.resumeSend]
@[simp] theorem Chip.resumeSend_slc (c : Chip) : (c.resumeSend).slc = c.slc := by simp [Chip.resumeSend]
@[simp] theorem Chip.resumeSend_pru (c : Chip) : (c.resumeSend).pru = c.pru := by simp [Chip.resumeSend]
@[simp] theorem Chip.resumeSend_fd (c : Chip) : (c.resumeSend).fd = c.fd := by simp [Chip.resumeSend]
@[simp] theorem Chip.resumeSend_pins (c : Chip) : (c.resumeSend).pins = c.pins := by simp [Chip.resumeSend]
@[simp] theorem Chip.resumeSend_free (c : Chip) : (c.resumeSend).free = c.free := by simp [Chip.resumeSend]

/-! `heard` -/
@[simp] theorem Chip.heard_ap (c : Chip) : (c.heard).ap = c.ap := by simp [Chip.heard, apply_ite Chip.ap]
@[simp] theorem Chip.heard_own (c : Chip) : (c.heard).own = c.own := by simp [Chip.heard, apply_ite Chip.own]
@[simp] theorem Chip.heard_su (c : Chip) : (c.heard).su = c.su := by simp [Chip.heard, apply_ite Chip.su]
@[simp] theorem Chip.heard_ju (c : Chip) : (c.heard).ju = c.ju := by simp [Chip.heard, apply_ite Chip.ju]
@[simp] theorem Chip.heard_cu (c : Chip) : (c.heard).cu = c.cu := by simp [Chip.heard, apply_ite Chip.cu]
@[simp] theorem Chip.heard_scu (c : Chip) : (c.heard).scu = c.scu := by simp [Chip.heard, apply_ite Chip.scu]
@[simp] theorem Chip.heard_slc (c : Chip) : (c.heard).slc = c.slc := by simp [Chip.heard, apply_ite Chip.slc]
@[simp] theorem Chip.heard_pru (c : Chip) : (c.heard).pru = c.pru := by simp [Chip.heard, apply_ite Chip.pru]
@[simp] theorem Chip.heard_fd (c : Chip) : (c.heard).fd = c.fd := by simp [Chip.heard, apply_ite Chip.fd]
@[simp] theorem Chip.heard_pins (c : Chip) : (c.heard).pins = c.pins := by simp [Chip.heard, apply_ite Chip.pins]
@[simp] theorem Chip.heard_free (c : Chip) : (c.heard).free = c.free := by simp [Chip.heard, apply_ite Chip.free]

/-! `goodFrame` -/
@[simp] theorem Chip.goodFrame_ap (c : Chip) : (c.goodFrame).ap = c.ap := by simp [Chip.goodFrame]
@[simp] theorem Chip.goodFrame_own (c : Chip) : (c.goodFrame).own = c.own := by simp [Chip.goodFrame]
@[simp] theorem Chip.goodFrame_su (c : Chip) : (c.goodFrame).su = c.su := by simp [Chip.goodFrame]
@[simp] theorem Chip.goodFrame_ju (c : Chip) : (c.goodFrame).ju = c.ju := by simp [Chip.goodFrame]
@[simp] theorem Chip.goodFrame_cu (c : Chip) : (c.goodFrame).cu = c.cu := by simp [Chip.goodFrame]
@[simp] theorem Chip.goodFrame_scu (c : Chip) : (c.goodFrame).scu = c.scu := by simp [Chip.goodFrame]
@[simp] theorem Chip.goodFrame_slc (c : Chip) : (c.goodFrame).slc = c.slc := by simp [Chip.goodFrame]
@[simp] theorem Chip.goodFrame_pru (c : Chip) : (c.goodFrame).pru = c.pru := by simp [Chip.goodFrame]
@[simp] theorem Chip.goodFrame_fd (c : Chip) : (c.goodFrame).fd = c.fd := by simp [Chip.goodFrame]
@[simp] theorem Chip.goodFrame_pins (c : Chip) : (c.goodFrame).pins = c.pins := by simp [Chip.goodFrame]
@[simp] theorem Chip.goodFrame_free (c : Chip) : (c.goodFrame).free = c.free := by simp [Chip.goodFrame]

/-! `linkDown` -/
@[simp] theorem Chip.linkDown_ap (c : Chip) (w : LinkCause) : (c.linkDown w).ap = c.ap := by simp [Chip.linkDown, apply_ite Chip.ap]
@[simp] theorem Chip.linkDown_ju (c : Chip) (w : LinkCause) : (c.linkDown w).ju = c.ju := by simp [Chip.linkDown, apply_ite Chip.ju]
@[simp] theorem Chip.linkDown_cu (c : Chip) (w : LinkCause) : (c.linkDown w).cu = c.cu := by simp [Chip.linkDown, apply_ite Chip.cu]
@[simp] theorem Chip.linkDown_scu (c : Chip) (w : LinkCause) : (c.linkDown w).scu = c.scu := by simp [Chip.linkDown, apply_ite Chip.scu]
@[simp] theorem Chip.linkDown_slc (c : Chip) (w : LinkCause) : (c.linkDown w).slc = c.slc := by simp [Chip.linkDown, apply_ite Chip.slc]
@[simp] theorem Chip.linkDown_pru (c : Chip) (w : LinkCause) : (c.linkDown w).pru = c.pru := by simp [Chip.linkDown, apply_ite Chip.pru]
@[simp] theorem Chip.linkDown_fd (c : Chip) (w : LinkCause) : (c.linkDown w).fd = c.fd := by simp [Chip.linkDown, apply_ite Chip.fd]
@[simp] theorem Chip.linkDown_pins (c : Chip) (w : LinkCause) : (c.linkDown w).pins = c.pins := by simp [Chip.linkDown, apply_ite Chip.pins]
@[simp] theorem Chip.linkDown_free (c : Chip) (w : LinkCause) : (c.linkDown w).free = c.free := by simp [Chip.linkDown, apply_ite Chip.free]

/-! `linkLoss` -/
@[simp] theorem Chip.linkLoss_ap (c : Chip) (w : LinkCause) : (c.linkLoss w).ap = c.ap := by simp [Chip.linkLoss, apply_ite Chip.ap]
@[simp] theorem Chip.linkLoss_ju (c : Chip) (w : LinkCause) : (c.linkLoss w).ju = c.ju := by simp [Chip.linkLoss, apply_ite Chip.ju]
@[simp] theorem Chip.linkLoss_cu (c : Chip) (w : LinkCause) : (c.linkLoss w).cu = c.cu := by simp [Chip.linkLoss, apply_ite Chip.cu]
@[simp] theorem Chip.linkLoss_scu (c : Chip) (w : LinkCause) : (c.linkLoss w).scu = c.scu := by simp [Chip.linkLoss, apply_ite Chip.scu]
@[simp] theorem Chip.linkLoss_slc (c : Chip) (w : LinkCause) : (c.linkLoss w).slc = c.slc := by simp [Chip.linkLoss, apply_ite Chip.slc]
@[simp] theorem Chip.linkLoss_pru (c : Chip) (w : LinkCause) : (c.linkLoss w).pru = c.pru := by simp [Chip.linkLoss, apply_ite Chip.pru]
@[simp] theorem Chip.linkLoss_fd (c : Chip) (w : LinkCause) : (c.linkLoss w).fd = c.fd := by simp [Chip.linkLoss, apply_ite Chip.fd]
@[simp] theorem Chip.linkLoss_pins (c : Chip) (w : LinkCause) : (c.linkLoss w).pins = c.pins := by simp [Chip.linkLoss, apply_ite Chip.pins]
@[simp] theorem Chip.linkLoss_free (c : Chip) (w : LinkCause) : (c.linkLoss w).free = c.free := by simp [Chip.linkLoss, apply_ite Chip.free]

/-! `linkUp` -/
@[simp] theorem Chip.linkUp_ap (c : Chip) : (c.linkUp).ap = c.ap := by simp [Chip.linkUp]
@[simp] theorem Chip.linkUp_ju (c : Chip) : (c.linkUp).ju = c.ju := by simp [Chip.linkUp]
@[simp] theorem Chip.linkUp_cu (c : Chip) : (c.linkUp).cu = c.cu := by simp [Chip.linkUp]
@[simp] theorem Chip.linkUp_scu (c : Chip) : (c.linkUp).scu = c.scu := by simp [Chip.linkUp]
@[simp] theorem Chip.linkUp_slc (c : Chip) : (c.linkUp).slc = c.slc := by simp [Chip.linkUp]
@[simp] theorem Chip.linkUp_pru (c : Chip) : (c.linkUp).pru = c.pru := by simp [Chip.linkUp]
@[simp] theorem Chip.linkUp_fd (c : Chip) : (c.linkUp).fd = c.fd := by simp [Chip.linkUp]
@[simp] theorem Chip.linkUp_pins (c : Chip) : (c.linkUp).pins = c.pins := by simp [Chip.linkUp]
@[simp] theorem Chip.linkUp_free (c : Chip) : (c.linkUp).free = c.free := by simp [Chip.linkUp]

/-! `lineError` -/
@[simp] theorem Chip.lineError_ap (c : Chip) : (c.lineError).ap = c.ap := by simp [Chip.lineError, apply_ite Chip.ap]
@[simp] theorem Chip.lineError_ju (c : Chip) : (c.lineError).ju = c.ju := by simp [Chip.lineError, apply_ite Chip.ju]
@[simp] theorem Chip.lineError_cu (c : Chip) : (c.lineError).cu = c.cu := by simp [Chip.lineError, apply_ite Chip.cu]
@[simp] theorem Chip.lineError_scu (c : Chip) : (c.lineError).scu = c.scu := by simp [Chip.lineError, apply_ite Chip.scu]
@[simp] theorem Chip.lineError_slc (c : Chip) : (c.lineError).slc = c.slc := by simp [Chip.lineError, apply_ite Chip.slc]
@[simp] theorem Chip.lineError_pru (c : Chip) : (c.lineError).pru = c.pru := by simp [Chip.lineError, apply_ite Chip.pru]
@[simp] theorem Chip.lineError_fd (c : Chip) : (c.lineError).fd = c.fd := by simp [Chip.lineError, apply_ite Chip.fd]
@[simp] theorem Chip.lineError_pins (c : Chip) : (c.lineError).pins = c.pins := by simp [Chip.lineError, apply_ite Chip.pins]
@[simp] theorem Chip.lineError_free (c : Chip) : (c.lineError).free = c.free := by simp [Chip.lineError, apply_ite Chip.free]

/-! `tellAcked` -/
@[simp] theorem Chip.tellAcked_ap (c : Chip) (b : Nat) : (c.tellAcked b).ap = c.ap := by
  unfold Chip.tellAcked; (repeat' split) <;> simp
@[simp] theorem Chip.tellAcked_su (c : Chip) (b : Nat) : (c.tellAcked b).su = c.su := by
  unfold Chip.tellAcked; (repeat' split) <;> simp
@[simp] theorem Chip.tellAcked_ju (c : Chip) (b : Nat) : (c.tellAcked b).ju = c.ju := by
  unfold Chip.tellAcked; (repeat' split) <;> simp
@[simp] theorem Chip.tellAcked_cu (c : Chip) (b : Nat) : (c.tellAcked b).cu = c.cu := by
  unfold Chip.tellAcked; (repeat' split) <;> simp
@[simp] theorem Chip.tellAcked_slc (c : Chip) (b : Nat) : (c.tellAcked b).slc = c.slc := by
  unfold Chip.tellAcked; (repeat' split) <;> simp
@[simp] theorem Chip.tellAcked_pru (c : Chip) (b : Nat) : (c.tellAcked b).pru = c.pru := by
  unfold Chip.tellAcked; (repeat' split) <;> simp
@[simp] theorem Chip.tellAcked_fd (c : Chip) (b : Nat) : (c.tellAcked b).fd = c.fd := by
  unfold Chip.tellAcked; (repeat' split) <;> simp
@[simp] theorem Chip.tellAcked_hlc (c : Chip) (b : Nat) : (c.tellAcked b).hlc = c.hlc := by
  unfold Chip.tellAcked; (repeat' split) <;> simp
@[simp] theorem Chip.tellAcked_pins (c : Chip) (b : Nat) : (c.tellAcked b).pins = c.pins := by
  unfold Chip.tellAcked; (repeat' split) <;> simp
@[simp] theorem Chip.tellAcked_free (c : Chip) (b : Nat) : (c.tellAcked b).free = c.free := by
  unfold Chip.tellAcked; (repeat' split) <;> simp

/-! `serveCloseDay` -/
@[simp] theorem Chip.serveCloseDay_ap (c : Chip) : (c.serveCloseDay).ap = c.ap := by
  unfold Chip.serveCloseDay; (repeat' split) <;> simp
@[simp] theorem Chip.serveCloseDay_su (c : Chip) : (c.serveCloseDay).su = c.su := by
  unfold Chip.serveCloseDay; (repeat' split) <;> simp
@[simp] theorem Chip.serveCloseDay_ju (c : Chip) : (c.serveCloseDay).ju = c.ju := by
  unfold Chip.serveCloseDay; (repeat' split) <;> simp
@[simp] theorem Chip.serveCloseDay_pru (c : Chip) : (c.serveCloseDay).pru = c.pru := by
  unfold Chip.serveCloseDay; (repeat' split) <;> simp
@[simp] theorem Chip.serveCloseDay_fd (c : Chip) : (c.serveCloseDay).fd = c.fd := by
  unfold Chip.serveCloseDay; (repeat' split) <;> simp
@[simp] theorem Chip.serveCloseDay_hlc (c : Chip) : (c.serveCloseDay).hlc = c.hlc := by
  unfold Chip.serveCloseDay; (repeat' split) <;> simp
@[simp] theorem Chip.serveCloseDay_pins (c : Chip) : (c.serveCloseDay).pins = c.pins := by
  unfold Chip.serveCloseDay; (repeat' split) <;> simp
@[simp] theorem Chip.serveCloseDay_free (c : Chip) : (c.serveCloseDay).free = c.free := by
  unfold Chip.serveCloseDay; (repeat' split) <;> simp

/-! `anchorBurst` -/
@[simp] theorem Chip.anchorBurst_ap (c : Chip) (burst addr : Nat) (okay : Bool) : (c.anchorBurst burst addr okay).ap = c.ap := by
  simp [Chip.anchorBurst, apply_ite Chip.ap]
@[simp] theorem Chip.anchorBurst_ju (c : Chip) (burst addr : Nat) (okay : Bool) : (c.anchorBurst burst addr okay).ju = c.ju := by
  simp [Chip.anchorBurst, apply_ite Chip.ju]
@[simp] theorem Chip.anchorBurst_scu (c : Chip) (burst addr : Nat) (okay : Bool) : (c.anchorBurst burst addr okay).scu = c.scu := by
  simp [Chip.anchorBurst, apply_ite Chip.scu]
@[simp] theorem Chip.anchorBurst_slc (c : Chip) (burst addr : Nat) (okay : Bool) : (c.anchorBurst burst addr okay).slc = c.slc := by
  simp [Chip.anchorBurst, apply_ite Chip.slc]
@[simp] theorem Chip.anchorBurst_pru (c : Chip) (burst addr : Nat) (okay : Bool) : (c.anchorBurst burst addr okay).pru = c.pru := by
  simp [Chip.anchorBurst, apply_ite Chip.pru]
@[simp] theorem Chip.anchorBurst_fd (c : Chip) (burst addr : Nat) (okay : Bool) : (c.anchorBurst burst addr okay).fd = c.fd := by
  simp [Chip.anchorBurst, apply_ite Chip.fd]
@[simp] theorem Chip.anchorBurst_hlc (c : Chip) (burst addr : Nat) (okay : Bool) : (c.anchorBurst burst addr okay).hlc = c.hlc := by
  simp [Chip.anchorBurst, apply_ite Chip.hlc]
@[simp] theorem Chip.anchorBurst_pins (c : Chip) (burst addr : Nat) (okay : Bool) : (c.anchorBurst burst addr okay).pins = c.pins := by
  simp [Chip.anchorBurst, apply_ite Chip.pins]
@[simp] theorem Chip.anchorBurst_free (c : Chip) (burst addr : Nat) (okay : Bool) : (c.anchorBurst burst addr okay).free = c.free := by
  simp [Chip.anchorBurst, apply_ite Chip.free]

/-! `judgeQuietly` -/
@[simp] theorem Chip.judgeQuietly_ap (c : Chip) (p : Fin 12) : (c.judgeQuietly p).ap = c.ap := rfl
@[simp] theorem Chip.judgeQuietly_own (c : Chip) (p : Fin 12) : (c.judgeQuietly p).own = c.own := rfl
@[simp] theorem Chip.judgeQuietly_su (c : Chip) (p : Fin 12) : (c.judgeQuietly p).su = c.su := rfl
@[simp] theorem Chip.judgeQuietly_ju (c : Chip) (p : Fin 12) : (c.judgeQuietly p).ju = c.ju := rfl
@[simp] theorem Chip.judgeQuietly_scu (c : Chip) (p : Fin 12) : (c.judgeQuietly p).scu = c.scu := rfl
@[simp] theorem Chip.judgeQuietly_slc (c : Chip) (p : Fin 12) : (c.judgeQuietly p).slc = c.slc := rfl
@[simp] theorem Chip.judgeQuietly_pru (c : Chip) (p : Fin 12) : (c.judgeQuietly p).pru = c.pru := rfl
@[simp] theorem Chip.judgeQuietly_fd (c : Chip) (p : Fin 12) : (c.judgeQuietly p).fd = c.fd := rfl
@[simp] theorem Chip.judgeQuietly_hlc (c : Chip) (p : Fin 12) : (c.judgeQuietly p).hlc = c.hlc := rfl
@[simp] theorem Chip.judgeQuietly_pins (c : Chip) (p : Fin 12) : (c.judgeQuietly p).pins = c.pins := rfl
@[simp] theorem Chip.judgeQuietly_free (c : Chip) (p : Fin 12) : (c.judgeQuietly p).free = c.free := rfl

/-! `judgeWalked` -/
@[simp] theorem Chip.judgeWalked_ap (c : Chip) (is : List Nat) : (c.judgeWalked is).ap = c.ap := by
  unfold Chip.judgeWalked
  rw [foldl_keeps Chip.ap _ (by intros; split <;> simp)]
@[simp] theorem Chip.judgeWalked_own (c : Chip) (is : List Nat) : (c.judgeWalked is).own = c.own := by
  unfold Chip.judgeWalked
  rw [foldl_keeps Chip.own _ (by intros; split <;> simp)]
@[simp] theorem Chip.judgeWalked_su (c : Chip) (is : List Nat) : (c.judgeWalked is).su = c.su := by
  unfold Chip.judgeWalked
  rw [foldl_keeps Chip.su _ (by intros; split <;> simp)]
@[simp] theorem Chip.judgeWalked_ju (c : Chip) (is : List Nat) : (c.judgeWalked is).ju = c.ju := by
  unfold Chip.judgeWalked
  rw [foldl_keeps Chip.ju _ (by intros; split <;> simp)]
@[simp] theorem Chip.judgeWalked_scu (c : Chip) (is : List Nat) : (c.judgeWalked is).scu = c.scu := by
  unfold Chip.judgeWalked
  rw [foldl_keeps Chip.scu _ (by intros; split <;> simp)]
@[simp] theorem Chip.judgeWalked_slc (c : Chip) (is : List Nat) : (c.judgeWalked is).slc = c.slc := by
  unfold Chip.judgeWalked
  rw [foldl_keeps Chip.slc _ (by intros; split <;> simp)]
@[simp] theorem Chip.judgeWalked_pru (c : Chip) (is : List Nat) : (c.judgeWalked is).pru = c.pru := by
  unfold Chip.judgeWalked
  rw [foldl_keeps Chip.pru _ (by intros; split <;> simp)]
@[simp] theorem Chip.judgeWalked_fd (c : Chip) (is : List Nat) : (c.judgeWalked is).fd = c.fd := by
  unfold Chip.judgeWalked
  rw [foldl_keeps Chip.fd _ (by intros; split <;> simp)]
@[simp] theorem Chip.judgeWalked_hlc (c : Chip) (is : List Nat) : (c.judgeWalked is).hlc = c.hlc := by
  unfold Chip.judgeWalked
  rw [foldl_keeps Chip.hlc _ (by intros; split <;> simp)]
@[simp] theorem Chip.judgeWalked_pins (c : Chip) (is : List Nat) : (c.judgeWalked is).pins = c.pins := by
  unfold Chip.judgeWalked
  rw [foldl_keeps Chip.pins _ (by intros; split <;> simp)]
@[simp] theorem Chip.judgeWalked_free (c : Chip) (is : List Nat) : (c.judgeWalked is).free = c.free := by
  unfold Chip.judgeWalked
  rw [foldl_keeps Chip.free _ (by intros; split <;> simp)]

/-! `stopResolving` -/
@[simp] theorem Chip.stopResolving_ap (c : Chip) : c.stopResolving.ap = c.ap := rfl
@[simp] theorem Chip.stopResolving_su (c : Chip) : c.stopResolving.su = c.su := rfl
@[simp] theorem Chip.stopResolving_cu (c : Chip) : c.stopResolving.cu = c.cu := rfl
@[simp] theorem Chip.stopResolving_scu (c : Chip) : c.stopResolving.scu = c.scu := rfl
@[simp] theorem Chip.stopResolving_slc (c : Chip) : c.stopResolving.slc = c.slc := rfl
@[simp] theorem Chip.stopResolving_pru (c : Chip) : c.stopResolving.pru = c.pru := rfl
@[simp] theorem Chip.stopResolving_fd (c : Chip) : c.stopResolving.fd = c.fd := rfl
@[simp] theorem Chip.stopResolving_hlc (c : Chip) : c.stopResolving.hlc = c.hlc := rfl
@[simp] theorem Chip.stopResolving_pins (c : Chip) : c.stopResolving.pins = c.pins := rfl
@[simp] theorem Chip.stopResolving_free (c : Chip) : c.stopResolving.free = c.free := rfl

/-! `cancelAt` -/
@[simp] theorem Chip.cancelAt_ap (c : Chip) (n : Fin 4) (s : Fin 8) (a : Nat) : (c.cancelAt n s a).ap = c.ap := rfl
@[simp] theorem Chip.cancelAt_su (c : Chip) (n : Fin 4) (s : Fin 8) (a : Nat) : (c.cancelAt n s a).su = c.su := rfl
@[simp] theorem Chip.cancelAt_ju (c : Chip) (n : Fin 4) (s : Fin 8) (a : Nat) : (c.cancelAt n s a).ju = c.ju := rfl
@[simp] theorem Chip.cancelAt_cu (c : Chip) (n : Fin 4) (s : Fin 8) (a : Nat) : (c.cancelAt n s a).cu = c.cu := rfl
@[simp] theorem Chip.cancelAt_scu (c : Chip) (n : Fin 4) (s : Fin 8) (a : Nat) : (c.cancelAt n s a).scu = c.scu := rfl
@[simp] theorem Chip.cancelAt_slc (c : Chip) (n : Fin 4) (s : Fin 8) (a : Nat) : (c.cancelAt n s a).slc = c.slc := rfl
@[simp] theorem Chip.cancelAt_fd (c : Chip) (n : Fin 4) (s : Fin 8) (a : Nat) : (c.cancelAt n s a).fd = c.fd := rfl
@[simp] theorem Chip.cancelAt_hlc (c : Chip) (n : Fin 4) (s : Fin 8) (a : Nat) : (c.cancelAt n s a).hlc = c.hlc := rfl
@[simp] theorem Chip.cancelAt_pins (c : Chip) (n : Fin 4) (s : Fin 8) (a : Nat) : (c.cancelAt n s a).pins = c.pins := rfl
@[simp] theorem Chip.cancelAt_free (c : Chip) (n : Fin 4) (s : Fin 8) (a : Nat) : (c.cancelAt n s a).free = c.free := rfl

/-! `walkEnds` -/
@[simp] theorem Chip.walkEnds_ap (c : Chip) (w : Walk) : (c.walkEnds w).ap = c.ap := by simp [Chip.walkEnds]
@[simp] theorem Chip.walkEnds_own (c : Chip) (w : Walk) : (c.walkEnds w).own = c.own := by simp [Chip.walkEnds]
@[simp] theorem Chip.walkEnds_su (c : Chip) (w : Walk) : (c.walkEnds w).su = c.su := by simp [Chip.walkEnds]
@[simp] theorem Chip.walkEnds_ju (c : Chip) (w : Walk) : (c.walkEnds w).ju = c.ju := by simp [Chip.walkEnds]
@[simp] theorem Chip.walkEnds_scu (c : Chip) (w : Walk) : (c.walkEnds w).scu = c.scu := by simp [Chip.walkEnds]
@[simp] theorem Chip.walkEnds_slc (c : Chip) (w : Walk) : (c.walkEnds w).slc = c.slc := by simp [Chip.walkEnds]
@[simp] theorem Chip.walkEnds_pru (c : Chip) (w : Walk) : (c.walkEnds w).pru = c.pru := by simp [Chip.walkEnds]
@[simp] theorem Chip.walkEnds_fd (c : Chip) (w : Walk) : (c.walkEnds w).fd = c.fd := by simp [Chip.walkEnds]
@[simp] theorem Chip.walkEnds_hlc (c : Chip) (w : Walk) : (c.walkEnds w).hlc = c.hlc := by simp [Chip.walkEnds]
@[simp] theorem Chip.walkEnds_pins (c : Chip) (w : Walk) : (c.walkEnds w).pins = c.pins := by simp [Chip.walkEnds]
@[simp] theorem Chip.walkEnds_free (c : Chip) (w : Walk) : (c.walkEnds w).free = c.free := by simp [Chip.walkEnds]

/-! `walkDamaged` -/
@[simp] theorem Chip.walkDamaged_ap (c : Chip) (w : Walk) : (c.walkDamaged w).ap = c.ap := by simp [Chip.walkDamaged]
@[simp] theorem Chip.walkDamaged_ju (c : Chip) (w : Walk) : (c.walkDamaged w).ju = c.ju := by simp [Chip.walkDamaged]
@[simp] theorem Chip.walkDamaged_scu (c : Chip) (w : Walk) : (c.walkDamaged w).scu = c.scu := by simp [Chip.walkDamaged]
@[simp] theorem Chip.walkDamaged_slc (c : Chip) (w : Walk) : (c.walkDamaged w).slc = c.slc := by simp [Chip.walkDamaged]
@[simp] theorem Chip.walkDamaged_pru (c : Chip) (w : Walk) : (c.walkDamaged w).pru = c.pru := by simp [Chip.walkDamaged]
@[simp] theorem Chip.walkDamaged_fd (c : Chip) (w : Walk) : (c.walkDamaged w).fd = c.fd := by simp [Chip.walkDamaged]
@[simp] theorem Chip.walkDamaged_hlc (c : Chip) (w : Walk) : (c.walkDamaged w).hlc = c.hlc := by simp [Chip.walkDamaged]
@[simp] theorem Chip.walkDamaged_pins (c : Chip) (w : Walk) : (c.walkDamaged w).pins = c.pins := by simp [Chip.walkDamaged]
@[simp] theorem Chip.walkDamaged_free (c : Chip) (w : Walk) : (c.walkDamaged w).free = c.free := by simp [Chip.walkDamaged]

/-! `settingChanged` -/
@[simp] theorem Chip.settingChanged_ap (c : Chip) (k : Setting) : (c.settingChanged k).ap = c.ap := by
  unfold Chip.settingChanged; (repeat' split) <;> simp
@[simp] theorem Chip.settingChanged_hlc (c : Chip) (k : Setting) : (c.settingChanged k).hlc = c.hlc := by
  unfold Chip.settingChanged; (repeat' split) <;> simp
@[simp] theorem Chip.settingChanged_pins (c : Chip) (k : Setting) : (c.settingChanged k).pins = c.pins := by
  unfold Chip.settingChanged; (repeat' split) <;> simp
@[simp] theorem Chip.settingChanged_free (c : Chip) (k : Setting) : (c.settingChanged k).free = c.free := by
  unfold Chip.settingChanged; (repeat' split) <;> simp

/-! `markDamaged` and `takeDamage` -/
@[simp] theorem Chip.markDamaged_ap (c : Chip) : c.markDamaged.ap = c.ap := by
  unfold Chip.markDamaged; split <;> dsimp only <;> (try split) <;> (try split) <;> simp
@[simp] theorem Chip.takeDamage_ap (c : Chip) : c.takeDamage.ap = c.ap := foldl_keeps Chip.ap _ (fun c _ => c.markDamaged_ap) _ _
@[simp] theorem Chip.markDamaged_ju (c : Chip) : c.markDamaged.ju = c.ju := by
  unfold Chip.markDamaged; split <;> dsimp only <;> (try split) <;> (try split) <;> simp
@[simp] theorem Chip.takeDamage_ju (c : Chip) : c.takeDamage.ju = c.ju := foldl_keeps Chip.ju _ (fun c _ => c.markDamaged_ju) _ _
@[simp] theorem Chip.markDamaged_scu (c : Chip) : c.markDamaged.scu = c.scu := by
  unfold Chip.markDamaged; split <;> dsimp only <;> (try split) <;> (try split) <;> simp
@[simp] theorem Chip.takeDamage_scu (c : Chip) : c.takeDamage.scu = c.scu := foldl_keeps Chip.scu _ (fun c _ => c.markDamaged_scu) _ _
@[simp] theorem Chip.markDamaged_slc (c : Chip) : c.markDamaged.slc = c.slc := by
  unfold Chip.markDamaged; split <;> dsimp only <;> (try split) <;> (try split) <;> simp
@[simp] theorem Chip.takeDamage_slc (c : Chip) : c.takeDamage.slc = c.slc := foldl_keeps Chip.slc _ (fun c _ => c.markDamaged_slc) _ _
@[simp] theorem Chip.markDamaged_pru (c : Chip) : c.markDamaged.pru = c.pru := by
  unfold Chip.markDamaged; split <;> dsimp only <;> (try split) <;> (try split) <;> simp
@[simp] theorem Chip.takeDamage_pru (c : Chip) : c.takeDamage.pru = c.pru := foldl_keeps Chip.pru _ (fun c _ => c.markDamaged_pru) _ _
@[simp] theorem Chip.markDamaged_fd (c : Chip) : c.markDamaged.fd = c.fd := by
  unfold Chip.markDamaged; split <;> dsimp only <;> (try split) <;> (try split) <;> simp
@[simp] theorem Chip.takeDamage_fd (c : Chip) : c.takeDamage.fd = c.fd := foldl_keeps Chip.fd _ (fun c _ => c.markDamaged_fd) _ _
@[simp] theorem Chip.markDamaged_hlc (c : Chip) : c.markDamaged.hlc = c.hlc := by
  unfold Chip.markDamaged; split <;> dsimp only <;> (try split) <;> (try split) <;> simp
@[simp] theorem Chip.takeDamage_hlc (c : Chip) : c.takeDamage.hlc = c.hlc := foldl_keeps Chip.hlc _ (fun c _ => c.markDamaged_hlc) _ _
@[simp] theorem Chip.markDamaged_pins (c : Chip) : c.markDamaged.pins = c.pins := by
  unfold Chip.markDamaged; split <;> dsimp only <;> (try split) <;> (try split) <;> simp
@[simp] theorem Chip.takeDamage_pins (c : Chip) : c.takeDamage.pins = c.pins := foldl_keeps Chip.pins _ (fun c _ => c.markDamaged_pins) _ _
@[simp] theorem Chip.markDamaged_free (c : Chip) : c.markDamaged.free = c.free := by
  unfold Chip.markDamaged; split <;> dsimp only <;> (try split) <;> (try split) <;> simp
@[simp] theorem Chip.takeDamage_free (c : Chip) : c.takeDamage.free = c.free := foldl_keeps Chip.free _ (fun c _ => c.markDamaged_free) _ _

end Sys2Proof.Machine
end

