-- ==== Sys2Proof/Tests/Slice0.lean ====
section
/-! SUPPORT. The smoke tests of well-formedness, small checks against the figures of the manual, one command on a small state
for each family, and for every statement with hypotheses a witness that they can be met together. -/

namespace Sys2Proof.Tests

set_option Elab.async false

open Sys2Proof.Machine

/-! ### Helpers -/

/-- A part that is READY, with windows placed, nothing in progress, and a store that answers by STORE_ANSWER. -/
def calm : State :=
  { State.reset with
    prompt := false
    chip := { State.reset.chip with
      own := Vector.replicate 9 []
      su := { SuState.reset with unitState := .ready }
      ap := { ApState.reset 0 with
        held := false
        placed := vofList 6 disabledPlacement [⟨0x10, 0x20⟩, ⟨0x30, 0x30⟩, ⟨0x40, 0x4B⟩, ⟨0x50, 0x50⟩, ⟨0x51, 0x51⟩, ⟨0x52, 0x52⟩]
        journalUsable := true } } }

/-- The calm state with its part changed. -/
def calmOn (f : Chip → Chip) : State := { calm with chip := f calm.chip }

/-- The state after a command. -/
def after (i : Instr) (s : State) : State :=
  match exec i s with
  | .next t => t
  | .fault _ => s
  | .refused _ => s

/-- The day state set. -/
def inDay (d : DayState) (c : Chip) : Chip := c.onCu (·.onDay (fun x => { x with state := d }))

/-- A send with one frame outstanding. -/
def aSend : Send :=
  { state := .active, total := 9, next := 1, out := [⟨0, 0, 1, [1]⟩], resend := none, recent := [], acked := 0, ackTimer := some 0,
    holdTimer := some 0, resumeTimer := some 0, verdictTimer := some 0 }

/-- A frame of a screen line. -/
def aFrame (k : LineFrameKind) (sends : Nat) : LineFrame := ⟨k, [0xA5], sends⟩

/-- A queue entry of slot 0. -/
def anEntry : PrintEntry := { slot := 0, seq := 1, line := 2, page := 3, ejectAfter := false, reprint := false }

/-- The entry in service. -/
def aService : Service := { entry := anEntry, target := 0, begun := false, doneTaken := false, stamp := none }

/-- A posting that has its record. -/
def aPosting (code : Nat) : Posting :=
  { slot := 0, phase := .running, words := [], orig := [], record := { JRecord.blank with seq := 1, code := code } }

/-! ### Well-formedness refuses what it should -/

theorem test_wf_unaligned_read : (Instr.hostWrite (.read 2 1)).wf = false := by decide
theorem test_wf_unaligned_write : (Instr.hostWrite (.write 1 [whole 0])).wf = false := by decide
theorem test_wf_no_words : (Instr.hostWrite (.write 0 [])).wf = false := by decide
theorem test_wf_nine_words : (Instr.hostWrite (.read 0 9)).wf = false := by decide
theorem test_wf_setting_unaligned : (Instr.settingWrite 0x201 0 15).wf = false := by decide
theorem test_wf_setting_below : (Instr.settingWrite 0x1FC 0 15).wf = false := by decide
theorem test_wf_setting_crc_word : (Instr.settingWrite 0x5FC 0 15).wf = false := by decide
theorem test_wf_five_keys : (Instr.terminalAck 0 false [1, 2, 3, 4, 5]).wf = false := by decide
theorem test_wf_named_request : (Instr.badRequest 12).wf = false := by decide
theorem test_wf_good : (Instr.hostWrite (.read 0xFFC 8)).wf = true ∧ (Instr.badRequest 13).wf = true := by decide

/-- The table gives no row any bits, so no word spells a command. -/
theorem test_decode_none : decodeTableWord 8 0x5A = none := rfl

/-! ### Figures of the manual -/

/-- The CRC-16 of "123456789" and of a byte 0 (section 3.6, a check value). -/
theorem test_crc : crc16 (text "123456789") = 0x29B1 ∧ crc16 [0] = 0xE1F0 := by decide +kernel

/-- Table 3-9, and the magnitudes 5 and 0. -/
theorem test_amounts : amountText 2 0 341100 = text "3,411.00" ∧ amountText 2 1 341100 = text "3.411,00" ∧
    amountText 2 3 341100 = text "3411.00" ∧ amountText 3 0 341100 = text "341.100" ∧
    amountText 0 0 341100 = text "341,100" ∧ amountText 2 0 5 = text "0.05" ∧ amountText 2 0 0 = text "0.00" := by
  decide +kernel

/-- The capacity example of section 2.2: 100 pages hold 8,512 records, 193 pages 16,448. -/
theorem test_journal_fit : journalFit 0x3000 0x3063 = 8512 ∧ journalFit 0x3000 0x30C0 = 16448 := by decide

/-- 20,000 rounds to 19,968, and the fit lowers it to 8,512 (section 2.2). -/
theorem test_capacity : clampCapacity 0x3000 0x3063 20000 = 8512 ∧ clampCapacity 1 0 20000 = 19968 := by decide

/-- Ring slot of record 1,207, and sums at their limits (Table 4-8, section 3.6). -/
theorem test_ring_and_sums : ringSlot 1207 16384 = 1206 ∧ (Sum.mk 999999990000 false).add 25000 = ⟨999999999999, true⟩ ∧
    (Sum.mk 999999999999 true).lower 5000 = ⟨999999999999, true⟩ ∧ hashAdd 999999995000 25000 = 20000 := by decide

/-- A batch of 1,234 records has 247 RECORDS frames and 254 frames in all (Table 11-4). -/
theorem test_batch : recordFrames 1234 = 247 ∧ totalFrames 1234 = 254 := by decide

/-- The faces of Table 3-7 and the deposit of Table 3-8 sum to 39,100. -/
theorem test_position : cashPosition #v[10000, 5000, 2000, 1000, 500, 200, 100, 50, 20, 10] #v[3, 1, 0, 4, 0, 0, 0, 2, 0, 0] = 39100 := by
  decide

/-- A flag byte and an escape byte within a frame are escaped (R198). -/
theorem test_stuff : stuff [0x01, 0x7E, 0x7D] = [0x01, 0x7D, 0x5E, 0x7D, 0x5D] := by decide

/-! ### One command on a small state -/

theorem test_reset_straps : (after (.deviceReset 2) calm).chip.ap.setupPage = 0x2000 ∧
    (after (.deviceReset 2) calm).chip.own[8].length = 40 := by decide +kernel
theorem test_read_held : (after (.hostWrite (.read 0 1)) { calm with chip := State.reset.chip }).chip.ap.host.isSome = true := by decide +kernel
theorem test_crossing_refused : (after (.hostWrite (.write 0xFFC [whole 1, whole 2])) calm).chip.ap.answer = some ⟨false, []⟩ := by
  decide +kernel
theorem test_setting_frozen : (after (.settingWrite 0x23C 5 15) (calmOn (inDay .dayOpen))).chip.ap.answer = some ⟨false, []⟩ := by
  decide +kernel
theorem test_setting_substituted : (after (.storeAnswer true) (after .arbiterGrant (after (.settingWrite 0x2F0 30 15) calm))).chip.setting .bcstRow = 23 := by
  decide +kernel
theorem test_key_index_taken :
    ((after (.storeAnswer true) (after .arbiterGrant (after (.keyReadIndexWrite 3 5 15) calm))).chip.drop 3).readIndex = 5 := by
  decide +kernel
theorem test_host_first : (after .arbiterGrant (calmOn fun c => (c.push rJU (.read 0 4 1) .plain).onAp fun a =>
    { a with host := some ⟨.read 0 1, 0, [], none, 0, false, .waiting (.readStore 1)⟩ })).arb.streak = 1 := by decide +kernel
theorem test_close_needs_day : (after .closeDay calm).chip.own[8] = [resultAsked calm.chip 1 (some .dayState) 0] := by decide +kernel
theorem test_bad_request : (after (.badRequest 13) calm).chip.own[8] = [resultAsked calm.chip 13 (some .badRequest) 0] := by decide +kernel
theorem test_master_row_starts : (after .fanOutStart (calmOn fun c => c.onFan fun f => { f with start := true })).chip.scu.fan.phase = .reading := by
  decide +kernel
theorem test_mark_damaged : (after .markDamaged (calmOn fun c => c.onCu fun u => { u with damage := [9] })).chip.cu.day.damaged = true := by
  decide +kernel
theorem test_report_dropped : (after .reportWrite (calmOn fun c => { c.report .reset 0 0 with ap := { c.ap with placed := Vector.replicate 6 disabledPlacement } })).chip.su.reports = [] := by
  decide +kernel
theorem test_line_asks_ident : (after (.lineTurn 0) calm).chip.slc.lines[0].use = .gap 0 ⟨.identReq, [0xA5, 0, 4, 0, 0x00, 0x58], 0⟩ := by
  decide +kernel
theorem test_pulse_ends : (after (.releasePulseEnd 3) (calmOn fun c => c.onDrop 3 fun d => { d with pulse := some 0 })).chip.drwrel 3 = false := by
  decide +kernel
theorem test_book_ignored_absent_printer : (after (.bookInserted 1) calm).chip.pru.printers[1].state = .empty := by decide +kernel
theorem test_tof_makes_ready : (after (.tofEdge 1) (calmOn fun c => c.onPrinter 1 fun x => { x with state := .aligning })).chip.pru.printers[1].state = .ready := by
  decide +kernel
theorem test_cover_halts : (after (.coverActive 2) (calmOn fun c => c.onPrinter 2 fun x => { x with state := .ready })).chip.fd[2].latch =
    { Latch.empty with cover := true } := by decide +kernel
theorem test_carrier_and_clock : (after .receiveClockReturn (after (.carrierChange true) calm)).chip.hlc.link = .calling := by decide +kernel
theorem test_clock_lost : (after .receiveClockLoss (calmOn fun c => c.onHlc fun h => { h with link := .up })).chip.hlc.link = .down := by decide +kernel
theorem test_ack_last : (after (.ack 0) (calmOn fun c => c.onHlc fun h => { h with link := .up, send := some { aSend with total := 1 } })).chip.sendState =
    some .awaitVerdict := by decide +kernel
theorem test_accepted_early : (after (.accepted 1) (calmOn fun c => c.onHlc fun h => { h with link := .up, send := some aSend })).chip.hlc.errors = 1 := by
  decide +kernel

/-! ### The hypotheses of the statements can be met together -/

theorem free_of {s : State} (h : s.prompt = false ∧ s.chip.su.unitState ≠ .loading ∧ s.chip.ap.held = false ∧ s.chip.ap.host = none) : s.HostFree := ⟨h.1, h.2.1, h.2.2.1, h.2.2.2⟩
theorem next_of {s : State} (h : s.prompt = false ∧ s.chip.su.unitState ≠ .loading ∧ s.chip.ap.held = false ∧ s.chip.ap.host = none)
    (h' : s.arb.port = .idle ∧ s.arb.streak < 4) : s.HostNext := ⟨free_of h, h'.1, .inl h'.2⟩
theorem alone_of {s : State} (h : s.prompt = false ∧ s.chip.su.unitState ≠ .loading ∧ s.chip.ap.held = false ∧ s.chip.ap.host = none)
    (h' : s.arb.port = .idle ∧ ∀ u : Fin 9, s.chip.own[u.val] = []) : s.Alone := ⟨free_of h, h'.1, h'.2⟩
theorem setup_of {c : Chip} {off : Nat} (h : c.windowOf (wrapAddr (c.setupAddr off)) = some .setup) : c.SetupWord off := h
theorem reaches_of {c : Chip} {w : Window} {a : Nat} (h : c.windowOf (wrapAddr a) = some w) : c.HostReaches w a := h

theorem calm_free : calm.HostFree := free_of (by decide +kernel)
theorem calm_next : calm.HostNext := next_of (by decide +kernel) (by decide +kernel)
theorem calm_alone : calm.Alone := alone_of (by decide +kernel) (by decide +kernel)

theorem witness_StepTakesFront : ({ calm with pending := [.loadingEnd] } : State).pending = .loadingEnd :: [] := rfl
theorem witness_StepKeepsSafe : ∃ t, State.reset.Safe ∧ step State.reset = .next t :=
  ⟨_, ⟨by decide +kernel, by decide +kernel⟩, rfl⟩

theorem witness_BridgesNeverShort : ∃ t, State.reset.BridgesSafe ∧ step State.reset = .next t := by
  refine ⟨_, fun n => ?_, rfl⟩
  have h : State.reset.chip.feed n = .reset := by revert n; decide
  rw [h]; simp [Feed.Exclusive, Output.engaged, Feed.reset, Output.reset]
theorem witness_PromptStoreDrains : State.reset.prompt = true ∧ Instr.loadingEnd ≠ .arbiterGrant ∧
    (∀ b, Instr.loadingEnd ≠ .storeAnswer b) ∧ ∀ x, Instr.loadingEnd ≠ .deviceReset x := ⟨rfl, nofun, nofun, nofun⟩
theorem witness_PromptStoreDrains_part : calm.prompt = false ∧ Instr.hello ≠ .arbiterGrant ∧
    (∀ b, Instr.hello ≠ .storeAnswer b) ∧ ∀ x, Instr.hello ≠ .deviceReset x := ⟨rfl, nofun, nofun, nofun⟩
theorem witness_FormatsReadBack_burst : memWf [(0, 1), (0xFFFFFFFF, 2)] = true ∧ (List.replicate 8 (7 : Word)).length ≤ 8 := by decide +kernel
theorem witness_FormatsReadBack_record : ∃ r : JRecord, r.seq < 2 ^ 32 ∧ r.code < 2 ^ 8 ∧ r.position < 2 ^ 4 ∧ r.target < 2 ^ 16 ∧
    r.amount < 2 ^ 64 ∧ r.reference < 2 ^ 32 ∧ r.account < 2 ^ 32 ∧ (∀ d : Fin 10, countAt r.counts d < 2 ^ 16) ∧ r.original = none :=
  ⟨{ seq := 0xFFFFFFFF, code := 0xFF, position := 15, target := 0xFFFF, book := true, amount := 0xFFFFFFFFFFFFFFFF,
     reference := 0xFFFFFFFF, account := 0xFFFFFFFF, counts := Vector.replicate 10 0xFFFF, original := none }, by decide +kernel⟩
theorem witness_FormatsReadBack_frames : 255 < 256 ∧ (List.replicate 240 (0x7E : Byte)).length ≤ 240 ∧
    (List.replicate 255 (0 : Byte)).length < 256 :=
  ⟨by decide, by rw [List.length_replicate], by rw [List.length_replicate]; decide⟩


theorem witness_DeviceResets : calm.prompt = false ∧
    (PortUse.host (.write 4 [whole 1])).writing = some (4, [whole 1]) := ⟨rfl, rfl⟩
theorem witness_StorePort_grants :
    let host (n : Nat) (f : Chip → Chip) : State := { calmOn (fun c => (f c).onAp fun a =>
      { a with host := some ⟨.read 0 1, 0, [], none, 0, false, .waiting (.readStore 1)⟩ }) with arb := { Arbiter.reset with streak := n } }
    let unit := fun c : Chip => c.push rJU (.read 0 4 1) .plain
    ((host 3 unit).chip.hostWaiting.isSome = true ∧ (host 3 unit).arb.streak < 4 ∧ (host 3 unit).chip.own[rJU.val] ≠ []) ∧
    ((host 4 id).chip.hostWaiting.isSome = true ∧ ∀ u : Fin 9, (host 4 id).chip.own[u.val] = []) ∧
    ((host 4 unit).arb.port = .idle ∧ (host 4 unit).chip.own[rJU.val] ≠ [] ∧ 4 ≤ (host 4 unit).arb.streak) ∧
    (calm.arb.port = .idle ∧ calm.chip.hostWaiting = none ∧ ∀ u : Fin 9, calm.chip.own[u.val] = []) := by
  decide +kernel
theorem witness_StorePort_answers : ∃ s₁ s₂ : State, s₁.arb.port = .own rSU (.read 0 4 1) .plain true ∧ s₂.arb.port = .host (.write 0 [whole 1]) ∧
    s₁.prompt = false ∧ s₂.prompt = false ∧ calm.arb.port = .idle :=
  ⟨{ calm with arb := { Arbiter.reset with port := .own rSU (.read 0 4 1) .plain true } },
   { calm with arb := { Arbiter.reset with port := .host (.write 0 [whole 1]) } }, rfl, rfl, rfl, rfl, rfl⟩

theorem witness_SettingsJudged : ∃ s : State, s.HostFree ∧ s.chip.frozen .day = true ∧
    (calm.HostNext ∧ calm.chip.frozen Setting.branchNo.group = false ∧ calm.chip.SetupWord (0x200 + 4 * Setting.branchNo.index) ∧
      settingWritten (.settingWrite 0x23C 999999 15) = some (.branchNo, 999999, allBytes)) :=
  ⟨calmOn (inDay .dayOpen), free_of (by decide +kernel), by decide +kernel, calm_next, by decide +kernel, setup_of (by decide +kernel), by decide +kernel⟩

theorem witness_SettingsJudged_merged : calm.HostNext ∧ settingWritten (.idleBlankWrite 1 3) = some (.idleBlank, 1, 3) ∧
    calm.chip.SetupWord (0x200 + 4 * Setting.idleBlank.index) ∧ (3 : BitVec 4) ≠ 0 ∧ (3 : BitVec 4) ≠ allBytes :=
  ⟨calm_next, by decide +kernel, setup_of (by decide +kernel), by decide, by decide⟩

theorem witness_CapacityAndPlacements : calm.HostNext ∧ calm.chip.SetupWord 0x230 ∧ calm.chip.frozen .day = false ∧
    (∀ p : Fin 12, ∀ b : Bool, calm.chip.windowOf (wrapAddr (calm.chip.setupAddr (0x280 + 8 * p.val + 4 * flagBit b))) = some .setup) ∧
    calm.chip.su.unitState = .ready ∧ calm.chip.cu.day.state.frozen = false :=
  ⟨calm_next, setup_of (by decide +kernel), by decide +kernel, by decide +kernel, by decide +kernel, by decide +kernel⟩

theorem witness_CapacityAndPlacements_windows : calm.HostNext ∧ calm.chip.frozen .day = false ∧
    ∀ w : Fin 6, ∀ b : Bool, calm.chip.windowOf (wrapAddr (calm.chip.setupAddr (0x200 + 8 * w.val + 4 * flagBit b))) = some .setup :=
  ⟨calm_next, by decide +kernel, by decide +kernel⟩
theorem witness_ScreenAndFeedSettings : calm.HostNext ∧ calm.chip.SetupWord 0x2E0 ∧ calm.chip.frozen (.printer 3) = false ∧
    calm.chip.SetupWord (0x200 + 4 * (Setting.printer 3 (feedSettingOf .outPolarity)).index) :=
  ⟨calm_next, setup_of (by decide +kernel), by decide +kernel, setup_of (by decide +kernel)⟩

theorem witness_LinesRestart : calm.HostNext ∧ calm.chip.SetupWord (0x200 + 4 * (Setting.lineGap 2).index) ∧
    (Setting.lineGap 2).clamp 32 ≠ calm.chip.setting (.lineGap 2) ∧ calm.Alone ∧ calm.chip.SetupWord 0x100 ∧
    calm.chip.OperandsAre calm.mem (wd (0 : Fin 3).val) 0 :=
  ⟨calm_next, setup_of (by decide +kernel), by decide +kernel, calm_alone, setup_of (by decide +kernel), by decide +kernel, by decide +kernel⟩

theorem witness_ScreenAndFeedSettings_plain : calm.HostNext ∧ calm.chip.SetupWord (0x200 + 4 * (Setting.colour 11).index) ∧
    (Setting.colour 11).clamp 0 ≠ calm.chip.setting (.colour 11) ∧ calm.chip.SetupWord (0x200 + 4 * Setting.separators.index) ∧
    calm.chip.frozen .day = false ∧ Setting.separators.clamp 3 ≠ calm.chip.setting .separators :=
  ⟨calm_next, setup_of (by decide +kernel), by decide +kernel, setup_of (by decide +kernel), by decide +kernel, by decide +kernel⟩

theorem witness_ScreenAndFeedSettings_printers : calm.chip.prn 0 .present ≠ 1 ∧ (calm.chip.printer 0).state = .empty ∧ calm.chip.coverIn 0 = false ∧
    calm.chip.ovcIn 0 = false ∧ calm.chip.SetupWord (0x400 + 96 * (0 : Fin 4).val) ∧ calm.chip.SetupWord (0x44C + 96 * (3 : Fin 4).val) ∧
    ∃ s : State, s.HostNext ∧ s.chip.prn 3 .autoRestart ≠ 1 ∧ (s.chip.printer 3).state = .halted ∧ s.chip.MayRestart 3 ∧
      s.chip.coverIn 3 = false ∧ s.chip.ovcIn 3 = false :=
  ⟨by decide +kernel, by decide +kernel, by decide +kernel, by decide +kernel, setup_of (by decide +kernel), setup_of (by decide +kernel),
    calmOn fun c => (c.onPrinter 3 fun x => { x with state := .halted }).onFeed 3 fun f => { f with latch := { Latch.empty with cover := true } },
    next_of (by decide +kernel) (by decide +kernel), by decide +kernel, by decide +kernel,
    ⟨by decide +kernel, by decide +kernel, by decide +kernel, by decide +kernel, by decide +kernel, by decide +kernel⟩, by decide +kernel,
    by decide +kernel⟩

theorem witness_HostWordsTaken_indexes : calm.HostNext ∧ calm.chip.SetupWord 0x148 ∧ 63 < (64 : Word).toNat ∧ (63 : Word).toNat ≤ 63 ∧
    calm.chip.HostReaches .screens (calm.chip.screenAddr 11 4020) ∧ 31 < (32 : Word).toNat ∧ (31 : Word).toNat ≤ 31 :=
  ⟨calm_next, setup_of (by decide +kernel), by decide, by decide, reaches_of (by decide +kernel), by decide, by decide⟩

theorem witness_HostWordsTaken : calm.HostNext ∧ calm.chip.HostReaches .screens (calm.chip.screenAddr 11 (4 * (959 : Fin 960).val)) ∧
    calm.chip.HostReaches .broadcast (calm.chip.windowBase .broadcast + 4 * (39 : Fin 40).val) ∧
    calm.chip.HostReaches .print (calm.chip.printAddr 3 7 0) ∧ calm.chip.slotStatus 3 7 ≠ .queued ∧ calm.chip.slotStatus 3 7 ≠ .printing ∧
    (calmOn fun c => c.onPrinter 3 fun x => { x with slots := vput x.slots 7 .printing }).chip.slotStatus 3 7 = .printing :=
  ⟨calm_next, reaches_of (by decide +kernel), reaches_of (by decide +kernel), reaches_of (by decide +kernel), by decide +kernel,
    by decide +kernel, by decide +kernel⟩

theorem witness_CommitAndSubmitHeld : calm.HostFree ∧ calm.chip.HostReaches .journal (calm.chip.slotAddr (12 : Fin 13).val 11) ∧
    calm.chip.su.unitState ≠ .rebuilding ∧ calm.chip.cu.day.state.frozen = false ∧
    (calmOn (inDay .closed)).chip.cu.day.state.frozen = true ∧ calm.chip.HostReaches .print (calm.chip.printAddr 0 0 0) ∧
    calm.chip.slotStatus 0 0 ≠ .queued ∧ calm.chip.slotStatus 0 0 ≠ .printing :=
  ⟨calm_free, reaches_of (by decide +kernel), by decide +kernel, by decide +kernel, by decide +kernel, reaches_of (by decide +kernel),
    by decide +kernel, by decide +kernel⟩

theorem witness_PostingSteps : ∃ s₁ s₂ : State, s₁.prompt = false ∧ s₁.chip.ju.posting = some (aPosting 3) ∧
    s₁.arb.port = .own rJU (.write 0 [whole 1]) (.post .stamp) false ∧ (aPosting 3).record.code ≠ 8 ∧
    s₂.prompt = false ∧ s₂.chip.ju.posting = some (aPosting 8) ∧ s₂.arb.port = .own rJU (.read 0 4 8) (.post .readA) false ∧
    (aPosting 8).record.code = 8 :=
  ⟨{ calmOn (fun c => c.onJu fun j => { j with posting := some (aPosting 3) }) with
     arb := { Arbiter.reset with port := .own rJU (.write 0 [whole 1]) (.post .stamp) false } },
   { calmOn (fun c => c.onJu fun j => { j with posting := some (aPosting 8) }) with
     arb := { Arbiter.reset with port := .own rJU (.read 0 4 8) (.post .readA) false } }, by decide +kernel⟩
theorem witness_AmountStages : (999999999999 : Nat) < 1000000000000 ∧ (999999999999 : Nat) ≤ 999999999999 ∧
    countAt zeroCounts 9 = 0 ∧ countAt (Vector.replicate 10 1) 9 ≠ 0 ∧ ∀ e : Fin 10, e < 0 → countAt zeroCounts e = 0 → countAt zeroCounts e = 0 := by
  decide

theorem witness_DayRequestsServed : ∃ s₁ s₂ s₃ s₄ : State,
    (s₁.HostFree ∧ s₁.chip.SetupWord 0x100 ∧ s₁.chip.su.unitState = .ready ∧ s₁.chip.cu.day.state = .dayOpen ∧
      (s₁.chip.drawerOf 11).state = .difference ∧ ∀ q : Fin 12, q < 11 → (s₁.chip.drawerOf q).state = .unused) ∧
    (s₂.HostFree ∧ s₂.chip.cu.day.state = .dayOpen ∧ (s₂.chip.drawer 12).state ≠ .balanced ∧
      ∀ p : Fin 12, (s₂.chip.drawerOf p).state = .unused) ∧
    (s₃.HostFree ∧ s₃.chip.cu.day.state = .dayOpen ∧ (s₃.chip.drawer 12).state = .balanced ∧ (s₃.chip.printer 3).queue ≠ [] ∧
      (∀ p : Fin 12, (s₃.chip.drawerOf p).state = .unused)) ∧
    (s₄.HostFree ∧ s₄.chip.cu.day.state = .dayOpen ∧ (s₄.chip.drawer 12).state = .balanced ∧
      (∀ n : Fin 4, (s₄.chip.printer n).queue = [] ∧ (s₄.chip.printer n).service = none) ∧
      ∀ p : Fin 12, (s₄.chip.drawerOf p).state = .unused) :=
  let drawer (i : Fin 13) (x : DrawerState) (c : Chip) : Chip := c.onCu fun u => { u with drawers := vupd u.drawers i fun d => { d with state := x } }
  ⟨calmOn fun c => drawer 11 .difference (inDay .dayOpen c), calmOn (inDay .dayOpen),
   calmOn fun c => (drawer 12 .balanced (inDay .dayOpen c)).onPrinter 3 fun x => { x with queue := [anEntry] },
   calmOn fun c => drawer 12 .balanced (inDay .dayOpen c),
   ⟨free_of (by decide +kernel), setup_of (by decide +kernel), by decide +kernel, by decide +kernel, by decide +kernel, by decide +kernel⟩, ⟨free_of (by decide +kernel), by decide +kernel, by decide +kernel, by decide +kernel⟩,
   ⟨free_of (by decide +kernel), by decide +kernel, by decide +kernel, by decide +kernel, by decide +kernel⟩, ⟨free_of (by decide +kernel), by decide +kernel, by decide +kernel, by decide +kernel, by decide +kernel⟩⟩
theorem witness_DayRequestsServed_send : ∃ s₁ s₂ : State, s₁.HostFree ∧ s₁.chip.SetupWord 0x100 ∧ s₁.chip.su.unitState = .ready ∧
    s₁.chip.cu.day.state = .closed ∧ s₂.HostFree ∧ s₂.chip.SetupWord 0x100 ∧ s₂.chip.su.unitState = .ready ∧ s₂.chip.cu.day.state = .sent ∧
    calm.chip.cu.day.state ≠ .closed ∧ calm.chip.cu.day.state ≠ .sent :=
  ⟨calmOn (inDay .closed), calmOn (inDay .sent), free_of (by decide +kernel), setup_of (by decide +kernel), by decide +kernel,
   by decide +kernel, free_of (by decide +kernel), setup_of (by decide +kernel), by decide +kernel, by decide +kernel, by decide +kernel,
   by decide +kernel⟩

theorem witness_LinkResetAndBadRequests : calm.HostFree ∧ calm.chip.SetupWord 0x100 ∧ calm.chip.su.unitState = .ready ∧
    12 < (13 : Word).toNat ∧ requestWritten .drawerRelease = some 12 ∧ requestWritten .closeDay = some 1 ∧
    ∃ s : State, s.HostFree ∧ s.chip.SetupWord 0x100 ∧ s.chip.su.unitState = .rebuilding :=
  ⟨calm_free, setup_of (by decide +kernel), by decide +kernel, by decide, rfl, rfl,
   calmOn fun c => c.onSu fun u => { u with unitState := .rebuilding }, free_of (by decide +kernel), setup_of (by decide +kernel),
   by decide +kernel⟩

/-- Printer 0 in a state, with a latch; operands 0 stand in the store. -/
def printerIn (x : PrinterState) (l : Latch) : State :=
  calmOn fun c => (c.onPrinter 0 fun p => { p with state := x }).onFeed 0 fun f => { f with latch := l }

theorem witness_PrinterRequestsServed : (printerIn .ready .empty).Alone ∧ (printerIn .ready .empty).chip.su.unitState = .ready ∧
    (printerIn .ready .empty).chip.SetupWord 0x100 ∧ (printerIn .ready .empty).chip.OperandsAre calm.mem (wd (0 : Fin 4).val) 0 ∧
    ((printerIn .ready .empty).chip.printer 0).state = .ready ∧ (calm.chip.printer 0).state ≠ .ready :=
  ⟨alone_of (by decide +kernel) (by decide +kernel), by decide +kernel, setup_of (by decide +kernel), ⟨by decide +kernel, by decide +kernel⟩,
   by decide +kernel, by decide +kernel⟩
theorem witness_PrinterRequestsServed_halted : (printerIn .halted { Latch.empty with jam := true }).Alone ∧
    (printerIn .halted { Latch.empty with jam := true }).chip.SetupWord 0x100 ∧
    (printerIn .halted { Latch.empty with jam := true }).chip.OperandsAre calm.mem (wd (0 : Fin 4).val) 0 ∧
    ((printerIn .halted { Latch.empty with jam := true }).chip.printer 0).state = .halted ∧
    (printerIn .halted { Latch.empty with jam := true }).chip.coverIn 0 = false ∧
    (printerIn .halted { Latch.empty with jam := true }).chip.ovcIn 0 = false :=
  ⟨alone_of (by decide +kernel) (by decide +kernel), setup_of (by decide +kernel), ⟨by decide +kernel, by decide +kernel⟩, by decide +kernel,
   by decide +kernel, by decide +kernel⟩
theorem witness_PrinterRequestsServed_held : ∃ s : State, s.Alone ∧ (s.chip.printer 0).state = .halted ∧
    (s.chip.feed 0).latch.cover = true ∧ s.chip.coverIn 0 = true :=
  ⟨calmOn fun c => { ((c.onPrinter 0 fun p => { p with state := .halted }).onFeed 0 fun f =>
      { f with latch := { Latch.empty with cover := true } }) with pins := { c.pins with cover := vput c.pins.cover 0 true } },
   alone_of (by decide +kernel) (by decide +kernel), by decide +kernel, by decide +kernel, by decide +kernel⟩

theorem witness_PrinterRequestsServed_clear : calm.Alone ∧ calm.chip.su.unitState = .ready ∧ calm.chip.SetupWord 0x100 ∧
    calm.chip.OperandsAre calm.mem (wd (0 : Fin 4).val) 0 ∧ (∀ v, (calm.chip.printer 0).service = some v → v.begun = false) ∧
    calm.chip.coverIn 0 = false ∧ calm.chip.ovcIn 0 = false :=
  ⟨calm_alone, by decide +kernel, setup_of (by decide +kernel), ⟨by decide +kernel, by decide +kernel⟩,
   fun v h => absurd (h : (calm.chip.printer 0).service = some v) (by rw [show (calm.chip.printer 0).service = none by decide +kernel]; nofun),
   by decide +kernel, by decide +kernel⟩

theorem witness_DrawerReleaseServed : ∃ s : State, s.Alone ∧ s.chip.su.unitState = .ready ∧ s.chip.SetupWord 0x100 ∧
    s.chip.OperandsAre s.mem (wd (0 : Fin 12).val) 0 ∧ s.chip.cu.day.state = .dayOpen ∧ (s.chip.drawerOf 0).state = .drawerOpen ∧
    (s.chip.drop 0).terminal = .attached ∧ (s.chip.screen 0).mode.kind ≠ .blanked ∧
    (calm.chip.drop 0).terminal ≠ .attached ∧ (calm.chip.drawerOf 0).state ≠ .drawerOpen ∧ calm.chip.cu.day.state ≠ .dayOpen :=
  ⟨calmOn fun c => ((inDay .dayOpen c).onCu fun u => { u with drawers := vupd u.drawers 0 fun d => { d with state := .drawerOpen } }).onDrop 0
    fun d => { d with terminal := .attached }, alone_of (by decide +kernel) (by decide +kernel), by decide +kernel,
    setup_of (by decide +kernel), ⟨by decide +kernel, by decide +kernel⟩, by decide +kernel, by decide +kernel, by decide +kernel,
    by decide +kernel, by decide +kernel, by decide +kernel, by decide +kernel⟩


/-- A posting handed to CU. -/
def handed (code : Nat) (original : Option RecordKind) : Posting :=
  { aPosting code with phase := .handed, record := { (aPosting code).record with position := 12, target := 11, original := original } }

theorem witness_RecordsApplied : ∃ s₁ s₂ : State, s₁.prompt = false ∧ s₁.chip.ju.posting = some (handed 8 (some .cashIn)) ∧
    (handed 8 (some .cashIn)).phase = .handed ∧ recordKindOfCode (handed 8 (some .cashIn)).record.code = some .void ∧
    (handed 8 (some .cashIn)).record.position = (12 : Fin 13).val ∧ (handed 8 (some .cashIn)).record.target = (11 : Fin 13).val ∧
    s₂.prompt = false ∧ s₂.chip.ju.posting = some (handed 10 none) ∧ recordKindOfCode (handed 10 none).record.code = some .acceptDifference ∧
    (s₂.chip.drawer 11).declared.isSome = true ∧
    ∀ k : Fin 12, (recordKindOfCode (handed (k.val + 1) none).record.code).isSome = true :=
  ⟨calmOn fun c => c.onJu fun j => { j with posting := some (handed 8 (some .cashIn)) },
   calmOn fun c => (c.onJu fun j => { j with posting := some (handed 10 none) }).onCu fun u =>
    { u with drawers := vupd u.drawers 11 fun d => { d with declared := some ⟨zeroCounts, 0⟩ } },
   by decide +kernel⟩
theorem witness_DamageAndStamps : ∃ s₁ s₂ s₃ : State, s₁.prompt = false ∧ s₁.chip.cu.damage = [9] ∧ s₁.chip.cu.day.damaged = false ∧
    s₁.chip.cu.walk = none ∧ s₂.prompt = false ∧ s₂.chip.ju.stamping = false ∧ s₂.chip.ju.stamps = [⟨3, 7, .printed⟩] ∧
    s₃.prompt = false ∧ s₃.chip.ju.stamps = [⟨3, 7, .printed⟩] ∧ s₃.arb.port = .own rJU (.read 0 4 1) (.stampRead true) false ∧
    s₃.chip.cu.day.state = .dayOpen ∧ stampPrint (readWord s₃.mem 0) ≠ .notBook :=
  ⟨calmOn fun c => c.onCu fun u => { u with damage := [9] }, calmOn fun c => c.onJu fun j => { j with stamps := [⟨3, 7, .printed⟩] },
   { calmOn (fun c => inDay .dayOpen (c.onJu fun j => { j with stamps := [⟨3, 7, .printed⟩] })) with
     mem := [(2, 1)], arb := { Arbiter.reset with port := .own rJU (.read 0 4 1) (.stampRead true) false } },
   by decide +kernel⟩

/-- A walk at a place. -/
def walking (count : Nat) (phase : WalkPhase) : State :=
  { calmOn (fun c => c.onCu fun u => { u with walk := some ⟨5, count, phase, false, false⟩ }) with
    arb := { Arbiter.reset with port := .own rCU (.read 0 4 4) (.walkB []) false } }

theorem witness_RebuildWalks :
    ((walking 16384 .ready).chip.cu.walk = some ⟨5, 16384, .ready, false, false⟩ ∧ (walking 16384 .ready).chip.capacity = 16384) ∧
    ((walking 16383 .ready).chip.capacity ≠ 16383 ∧ (walking 0 .reading).arb.port = .own rCU (.read 0 4 4) (.walkB []) false) ∧
    (stampStatus (wordAt ([] ++ readWords (walking 0 .reading).mem 0 4 4) 11) = .free) ∧
    ((walking 0 .reading).prompt = false ∧ ∃ front : List Word, stampStatus (wordAt (front ++ readWords [] 0 4 4) 11) = .posted ∧
      (wordAt (front ++ readWords [] 0 4 4) 0).toNat = 5 ∧
      recordCrc (front ++ readWords [] 0 4 4) ≠ stampCrc (wordAt (front ++ readWords [] 0 4 4) 11)) :=
  ⟨by decide +kernel, by decide +kernel, by decide +kernel, by decide +kernel,
   [5, 0, 0, 0, 0, 0, 0, 0, 0, 0, 0, stampWord 1 .notBook .posted], by decide +kernel⟩
theorem witness_RebuildEnds : (walking 0 .ended).prompt = false ∧ (walking 0 .ended).chip.cu.walk = some ⟨5, 0, .ended, false, false⟩ ∧
    (walking 0 .ended).chip.ap.journalUsable = true ∧ (walking 0 .ended).chip.cu.damage = [] ∧
    (walking 0 .ended).chip.cu.day.state.frozen = false ∧
    (∃ s : State, s.chip.cu.walk = some ⟨5, 0, .ended, false, false⟩ ∧ s.chip.ap.journalUsable = true ∧ s.chip.cu.damage = [] ∧
      s.chip.cu.day.state.frozen = true ∧ (s.chip.drawer 12).state ≠ .balanced) ∧
    ∃ s : State, s.prompt = false ∧ s.chip.cu.runningBad = false ∧ s.arb.port = .own rCU (.write 0 []) (.running 1 .rebuild) false :=
  ⟨by decide +kernel, by decide +kernel, by decide +kernel, by decide +kernel, by decide +kernel,
   ⟨{ walking 0 .ended with chip := inDay .closed (walking 0 .ended).chip }, by decide +kernel⟩,
   ⟨{ calm with arb := { Arbiter.reset with port := .own rCU (.write 0 []) (.running 1 .rebuild) false } }, by decide +kernel⟩⟩
theorem witness_ReportsWritten : ∃ s₁ s₂ s₃ : State, calm.chip.su.reports.length < 16 ∧
    16 ≤ (calm.chip.onSu fun u => { u with reports := List.replicate 16 ⟨.reset, 0, 0, 0⟩ }).su.reports.length ∧
    s₁.prompt = false ∧ s₁.chip.su.writing = none ∧ s₁.chip.su.reports = [⟨.reset, 0, 0, 0⟩] ∧ s₁.chip.windowEnabled .report = true ∧
    (s₁.chip.su.writeIndex + 1) % 64 ≠ s₁.chip.su.readIndex ∧ (s₂.chip.su.writeIndex + 1) % 64 = s₂.chip.su.readIndex ∧
    s₂.chip.windowEnabled .report = true ∧ s₂.chip.su.reports = [⟨.reset, 0, 0, 0⟩] ∧
    s₃.arb.port = .own rSU (.write 0 []) (.repEntry s₃.chip.su.epoch) false ∧ State.reset.chip.windowEnabled .report = false :=
  ⟨calmOn fun c => c.onSu fun u => { u with reports := [⟨.reset, 0, 0, 0⟩] },
   calmOn fun c => c.onSu fun u => { u with reports := [⟨.reset, 0, 0, 0⟩], writeIndex := 63 },
   { calm with arb := { Arbiter.reset with port := .own rSU (.write 0 []) (.repEntry 0) false } }, by decide +kernel⟩

theorem witness_SweepsAndFanOuts : ∃ s₁ s₂ : State, s₁.prompt = false ∧ (s₁.chip.screen 11).sweeping = false ∧
    (s₁.chip.drop 11).terminal = .attached ∧ s₁.chip.screenPresent 11 = true ∧
    (∃ r : Fin 25, hasRow (s₁.chip.screen 11).dirty r = true ∧ (s₁.chip.screen 11).mode.shows r = true) ∧
    (calm.chip.drop 11).terminal ≠ .attached ∧ s₂.chip.scu.fan.phase = .idle ∧ s₂.chip.scu.fan.start = true ∧ s₂.chip.scu.serving = none ∧
    s₂.chip.scu.work = [] ∧ calm.chip.scu.fan.start = false :=
  ⟨calmOn fun c => c.onDrop 11 fun d => { d with terminal := .attached }, calmOn fun c => c.onFan fun f => { f with start := true },
   by decide +kernel⟩
theorem witness_StatusRowsRender : ∃ s₁ s₂ s₃ : State, s₁.prompt = false ∧ s₁.chip.scu.serving = none ∧ s₁.chip.scu.work = [.status 5] ∧
    s₁.chip.screenPresent 5 = true ∧ (s₁.chip.screen 5).rendering ≠ some (s₁.chip.renderStatus 5) ∧
    (s₂.chip.screen 5).rendering = some (s₂.chip.renderStatus 5) ∧ s₂.chip.scu.work = [.status 5] ∧
    s₃.prompt = false ∧ (s₃.chip.screen 5).attention = true ∧ 1000 ≤ (s₃.chip.screen 5).flashMs ∧ s₃.chip.attentionText 5 ≠ [] ∧
    State.reset.chip.screenPresent 5 = false ∧ (calm.chip.screen 5).attention = false :=
  ⟨calmOn fun c => { c with scu := { c.scu with work := [.status 5] } },
   calmOn fun c => ({ c with scu := { c.scu with work := [.status 5] } } : Chip).onScreen 5 fun x => { x with rendering := some (c.renderStatus 5) },
   calmOn fun c => (c.onScreen 5 fun x => { x with attention := true, flashMs := 1000 }).onCu fun u =>
    { u with drawers := vupd u.drawers 5 fun d => { d with state := .drawerOpen, excess := true } },
   by decide +kernel⟩
theorem witness_PositionTimers : ∃ s₁ s₂ s₃ s₄ : State,
    (s₁.prompt = false ∧ s₁.chip.setting .idleBlank ≠ 0 ∧ (s₁.chip.screen 2).idleExpired = false ∧
      s₁.chip.setting .idleBlank * 1000 ≤ (s₁.chip.screen 2).idleMs ∧ (s₁.chip.drop 2).sensor = .sensorOpen ∧
      (s₁.chip.screen 2).mode.kind = .normal ∧ (s₁.chip.screen 2).autoBlanked = false ∧ s₁.chip.su.reports.length < 16) ∧
    ((s₂.chip.screen 2).mode.kind = .blanked ∧ s₂.chip.setting .idleBlank * 1000 ≤ (s₂.chip.screen 2).idleMs) ∧
    (s₃.prompt = false ∧ (s₃.chip.drop 2).openTimer = some 0 ∧ s₃.chip.su.reports.length < 16) ∧
    (s₄.prompt = false ∧ (s₄.chip.drop 2).pulse = some 0) ∧ (calm.chip.drop 2).openTimer ≠ some 0 ∧ (calm.chip.drop 2).pulse ≠ some 0 :=
  ⟨calmOn fun c => (c.onScreen 2 fun x => { x with idleMs := 300000 }).onDrop 2 fun d => { d with sensor := .sensorOpen },
   calmOn fun c => c.onScreen 2 fun x => { x with idleMs := 300000, mode := ⟨.blanked, 0, 23⟩ },
   calmOn fun c => c.onDrop 2 fun d => { d with openTimer := some 0 }, calmOn fun c => c.onDrop 2 fun d => { d with pulse := some 0 },
   by decide +kernel⟩

theorem witness_LinesTurn : calm.prompt = false ∧ calm.chip.Turns (.lineTurn 2) 2 ∧ calm.chip.Turns (.attachAttemptDue 11) 2 ∧
    calm.chip.lineMayTurn 2 = true ∧ (0 : Fin 4).val = ((calm.chip.line 2).pointer.val + 1 + 0) % 4 ∧
    calm.chip.choose (posOf 2 0) = some .identReq ∧
    (∃ s : State, s.chip.Turns (.pollIntervalExpiry 11) 2 ∧ s.chip.lineMayTurn 2 = true ∧ s.chip.choose (posOf 2 3) = some .poll) ∧
    (calmOn fun c => c.onLine 2 fun x => { x with use := .gap 0 (aFrame .poll 0) }).chip.lineMayTurn 2 = false :=
  ⟨rfl, .inl rfl, .inr (.inr ⟨11, by decide +kernel, .inl (by decide +kernel), by decide +kernel, rfl⟩), by decide +kernel, by decide +kernel,
   by decide +kernel,
   ⟨calmOn fun c => (c.onDrop 11 fun d => { d with terminal := .attached, sinceExchange := 100 }).onScreen 11 fun x => { x with modePending := false },
    .inr (.inl ⟨11, by decide +kernel, by decide +kernel, by decide +kernel, rfl⟩), by decide +kernel, by decide +kernel⟩, by decide +kernel⟩
theorem witness_FramesGoOut : ∃ s₁ s₂ s₃ : State, s₁.prompt = false ∧ (s₁.chip.line 1).use = .gap 3 (aFrame .identReq 0) ∧
    (s₁.chip.line 1).gap * (10 * bitClk (s₁.chip.line 1).rate) ≤ (s₁.chip.line 1).quiet ∧
    (s₂.chip.line 1).use = .gap 3 (aFrame .poll 2) ∧ (s₂.chip.line 1).quiet < (s₂.chip.line 1).gap * (10 * bitClk (s₂.chip.line 1).rate) ∧
    s₃.prompt = false ∧ (s₃.chip.line 1).use = .sending 3 (aFrame .poll 1) 0 30 :=
  ⟨calmOn fun c => c.onLine 1 fun x => { x with use := .gap 3 (aFrame .identReq 0), quiet := 25000 },
   calmOn fun c => c.onLine 1 fun x => { x with use := .gap 3 (aFrame .poll 2), quiet := 24999 },
   calmOn fun c => c.onLine 1 fun x => { x with use := .sending 3 (aFrame .poll 1) 0 30 }, by decide +kernel⟩

/-- Line 1 awaiting drop 2's answer to a frame. -/
def awaiting (f : LineFrame) (left : Nat) : State := calmOn fun c => c.onLine 1 fun x => { x with use := .awaiting 2 f left }

theorem witness_TerminalsAnswer : (awaiting (aFrame (.row 7) 3) 1).prompt = false ∧
    ((awaiting (aFrame (.row 7) 3) 1).chip.line 1).use = .awaiting 2 (aFrame (.row 7) 3) (0 + 1) ∧ (aFrame (.row 7) 3).kind ≠ .identReq ∧
    ((awaiting (aFrame .identReq 1) 30).chip.line 1).use = .awaiting 2 (aFrame .identReq 1) (29 + 1) ∧
    (aFrame .identReq 1).kind = .identReq ∧ [(0x41 : BitVec 16)].length ≤ 4 ∧
    (awaiting (aFrame .poll 1) 1).chip.screenPresent (posOf 1 2) = true ∧
    ((awaiting (aFrame .poll 1) 1).chip.screen (posOf 1 2)).autoBlanked = false ∧
    (((awaiting (aFrame .poll 1) 1).chip.drop (posOf 1 2)).writeIndex + 32 - ((awaiting (aFrame .poll 1) 1).chip.drop (posOf 1 2)).readIndex) % 32 < 16 := by
  decide +kernel
theorem witness_TerminalsAnswer_missed :
    (awaiting (aFrame .poll 1) 0).chip.Missed (.replyTimeout 1) 1 2 (aFrame .poll 1) ∧
    (awaiting (aFrame .poll 1) 1).chip.Missed (.answerPauseTimeout 1) 1 2 (aFrame .poll 1) ∧
    (awaiting (aFrame .poll 1) 1).chip.Missed (.damagedAnswer 1 []) 1 2 (aFrame .poll 1) ∧
    (awaiting (aFrame .poll 1) 1).chip.Missed (.terminalIdent 1 true 0 0) 1 2 (aFrame .poll 1) ∧
    (awaiting (aFrame .identReq 1) 1).chip.Missed (.terminalNak 1) 1 2 (aFrame .identReq 1) ∧ (awaiting (aFrame .poll 1) 0).prompt = false :=
  ⟨.inl ⟨by decide +kernel, rfl⟩, .inr ⟨1, by decide +kernel, .inl rfl⟩, .inr ⟨1, by decide +kernel, .inr (.inl ⟨[], by decide +kernel, rfl⟩)⟩,
   .inr ⟨1, by decide +kernel, .inr (.inr (.inr (.inr ⟨true, 0, 0, by decide, rfl⟩)))⟩,
   .inr ⟨1, by decide +kernel, .inr (.inr (.inr (.inl ⟨by decide, rfl⟩)))⟩, by decide +kernel⟩

/-- Printer 2 changed. -/
def printing (f : Printer → Printer) : State := calmOn fun c => c.onPrinter 2 f

theorem witness_BooksAlign : ∃ s₁ s₂ s₃ : State, s₁.prompt = false ∧ s₁.chip.bookIn 2 = false ∧ (s₁.chip.printer 2).state = .empty ∧
    s₁.chip.prn 2 .present = 1 ∧ s₁.chip.su.reports.length < 16 ∧ s₂.prompt = false ∧ s₂.chip.bookIn 2 = true ∧
    (s₂.chip.printer 2).state = .striking ∧ s₃.prompt = false ∧ (s₃.chip.printer 2).state = .aligning :=
  ⟨calmOn fun c => c.putImage (Setting.printer 2 .present).index 1,
   { printing (fun x => { x with state := .striking, service := some aService }) with
     chip := { (printing (fun x => { x with state := .striking, service := some aService })).chip with pins := { Pins.reset with book := Vector.replicate 4 true } } },
   printing fun x => { x with state := .aligning }, by decide +kernel⟩
theorem witness_FeedsReachTheLine : ∃ s₁ s₂ s₃ : State, s₁.prompt = false ∧ (s₁.chip.printer 2).queue = [anEntry] ∧
    (s₁.chip.printer 2).state = .ready ∧ (s₁.chip.printer 2).service = none ∧ (s₁.chip.printer 2).bookPage = some 4 ∧
    anEntry.page ≠ 4 ∧ s₂.prompt = false ∧ (s₂.chip.printer 2).service = some aService ∧ (s₂.chip.printer 2).state = .feeding ∧
    (s₂.chip.feed 2).position = aService.target ∧ s₃.prompt = false ∧ s₃.chip.atTarget 2 = false ∧ s₃.chip.travelReached 2 = false ∧
    (s₃.chip.feed 2).position = -32768 ∧ s₃.chip.prn 2 .encPrescale ≤ (s₃.chip.feed 2).prescale + 1 :=
  ⟨printing fun x => { x with state := .ready, queue := [anEntry], bookPage := some 4 },
   printing fun x => { x with state := .feeding, service := some aService },
   calmOn fun c => c.onFeed 2 fun f => { f with position := -32768, prescale := 3, forwardCount := false }, by decide +kernel⟩
theorem witness_StrikesRun : ∃ s₁ s₂ s₃ : State, s₁.prompt = false ∧ (s₁.chip.printer 2).service = some aService ∧
    (s₁.chip.printer 2).state = .striking ∧ aService.begun = false ∧ (s₁.chip.printer 2).composing = false ∧ s₂.prompt = false ∧
    (s₂.chip.printer 2).head = .sending [2] 0 ∧ s₃.prompt = false ∧ (s₃.chip.printer 2).service = some aService ∧
    (s₃.chip.printer 2).head = .awaiting (0 + 1) ∧ (s₃.chip.printer 2).state ≠ .halted ∧ (7 : Byte) ≠ 0x06 ∧ (7 : Byte) ≠ 0x15 :=
  ⟨printing fun x => { x with state := .striking, service := some aService }, printing fun x => { x with head := .sending [2] 0 },
   printing fun x => { x with state := .striking, service := some aService, head := .awaiting 1 }, by decide +kernel⟩
theorem witness_CausesShutDown : ∃ s₁ s₂ : State, s₁.prompt = false ∧ (s₁.chip.printer 2).state = .aligning ∧
    s₁.chip.prn 2 .alignTravel ≤ (s₁.chip.feed 2).travel ∧ (s₁.chip.feed 2).mode = .forward ∧
    s₁.chip.prn 2 .stallTime ≤ (s₁.chip.feed 2).stallMs ∧ (s₁.chip.printer 2).head = .awaiting 0 ∧
    calm.chip.travelReached 2 = false ∧ calm.chip.stalled 2 = false ∧ (calm.chip.printer 2).state ≠ .halted ∧ s₂.prompt = false ∧
    (s₂.chip.printer 2).state = .halted ∧ s₂.chip.prn 2 .autoRestart = 1 ∧ (s₂.chip.feed 2).latch = { Latch.empty with cover := true } ∧
    s₂.chip.coverIn 2 = false ∧ s₂.chip.ovcIn 2 = false :=
  ⟨calmOn fun c => (c.onPrinter 2 fun x => { x with state := .aligning, head := .awaiting 0 }).onFeed 2 fun f =>
    { f with travel := 4095, mode := .forward, stallMs := 1000 },
   calmOn fun c => ((c.putImage (Setting.printer 2 .autoRestart).index 1).onPrinter 2 fun x => { x with state := .halted }).onFeed 2 fun f =>
    { f with latch := { Latch.empty with cover := true } }, by decide +kernel⟩
theorem witness_BridgesModulate : ∃ s₁ s₂ s₃ : State, s₁.prompt = false ∧ 4 * (s₁.chip.prn 2 .pwmPeriod + 1) ≤ (s₁.chip.feed 2).step ∧
    (s₁.chip.feed 2).mode = .forward ∧ (s₁.chip.feed 2).duty ≤ s₁.chip.targetDuty 2 ∧ s₂.prompt = false ∧
    (s₂.chip.feed 2).mode = .reverse ∧ (s₂.chip.feed 2).turnedOff = false ∧ (s₂.chip.feed 2).duty ≤ (s₂.chip.feed 2).step ∧
    s₂.chip.targetDuty 2 < (s₂.chip.feed 2).duty ∧
    s₃.prompt = false ∧ ((s₃.chip.feed 2).output 3).wait = some 0 ∧ (calm.chip.feed 2).step < 4 * (calm.chip.prn 2 .pwmPeriod + 1) ∧
    ((calm.chip.feed 2).output 3).wait ≠ some 0 :=
  ⟨calmOn fun c => (c.onPrinter 2 fun x => { x with state := .aligning }).onFeed 2 fun f => { f with mode := .forward, step := 960 },
   calmOn fun c => c.onFeed 2 fun f => { f with mode := .reverse, duty := 1000, step := 1000 },
   calmOn fun c => c.onFeed 2 fun f => { f with bLo := ⟨false, some 0, 12⟩ }, by decide +kernel⟩

/-- The link changed. -/
def linked (f : HlcState → HlcState) : State := calmOn fun c => c.onHlc f

theorem witness_LinkLineEvents : ∃ s₁ s₂ s₃ : State, s₁.prompt = false ∧ s₁.chip.hlc.link = .down ∧ s₁.chip.pins.carrier = true ∧
    s₁.chip.su.unitState ≠ .loading ∧ s₂.prompt = false ∧ s₂.chip.hlc.link = .calling ∧ s₂.chip.hlc.helloTimer = some 0 ∧ s₃.prompt = false ∧
    s₃.chip.hlc.link = .up ∧ s₃.chip.hlc.silenceTimer = some 0 ∧ s₃.chip.su.reports.length < 16 :=
  ⟨calmOn fun c => { c with pins := { c.pins with carrier := true } }, linked fun h => { h with link := .calling, helloTimer := some 0 },
   linked fun h => { h with link := .up, silenceTimer := some 0, send := some aSend }, by decide +kernel⟩
theorem witness_LinkLineEvents_lost : (linked fun h => { h with link := .up, silenceTimer := some 0 }).chip.LineLost .silenceTimerExpiry .silence ∧
    calm.chip.LineLost (.carrierChange false) .carrier ∧ calm.chip.LineLost .receiveClockLoss .clock :=
  ⟨.inr (.inr ⟨rfl, by decide +kernel, rfl⟩), .inl ⟨rfl, rfl⟩, .inr (.inl ⟨rfl, rfl⟩)⟩
theorem witness_SendsEnd : ∃ s₁ s₂ : State, s₁.prompt = false ∧ s₁.chip.hlc.link = .up ∧ s₁.chip.hlc.send = some aSend ∧
    s₁.chip.cu.day.state = .sending ∧ s₁.chip.su.reports.length < 16 ∧ s₁.chip.Fails (.abort 1) aSend .aborted ∧
    s₁.chip.Fails .holdTimerExpiry aSend .held ∧ s₁.chip.Fails .resumeTimerExpiry aSend .link ∧
    s₁.chip.Fails .verdictTimerExpiry aSend .noVerdict ∧ s₁.chip.Fails (.rejected 1) aSend .rejected ∧
    s₂.prompt = false ∧ s₂.chip.hlc.link = .up ∧ s₂.chip.hlc.send = some { aSend with state := .awaitVerdict } ∧ s₂.chip.cu.day.state = .sending :=
  ⟨calmOn fun c => inDay .sending (c.onHlc fun h => { h with link := .up, send := some aSend }),
   calmOn fun c => inDay .sending (c.onHlc fun h => { h with link := .up, send := some { aSend with state := .awaitVerdict } }),
   by decide +kernel, by decide +kernel, by decide +kernel, by decide +kernel, by decide +kernel,
   .inr (.inr (.inr (.inl ⟨1, rfl, by decide +kernel, rfl⟩))), .inl ⟨rfl, rfl, rfl⟩, .inr (.inl ⟨rfl, rfl, rfl⟩),
   .inr (.inr (.inl ⟨rfl, rfl, rfl⟩)), .inr (.inr (.inr (.inr ⟨1, rfl, by decide +kernel, by decide, rfl⟩))), by decide +kernel, by decide +kernel,
   by decide +kernel, by decide +kernel⟩

/-! ### Witnesses of further clauses -/

/-- A state with a line byte going out, one stopping, and a head character stopping. -/
def busyLines : State := calmOn fun c => ((c.onLine 0 fun x => { x with use := .sending 0 (aFrame .poll 1) 1 30 }).onLine 1
  fun x => { x with use := .stopping 0xA5 625 1 }).onPrinter 3 fun x => { x with head := .stopping 7 1 }

theorem witness_IdleStepIsTick : calm.pending = [] ∧ calm.prompt = false ∧ calm.chip.su.clk + 1 < 24000 ∧
    busyLines.pending = [] ∧ busyLines.prompt = false ∧ (busyLines.chip.line 0).use = .sending 0 (aFrame .poll 1) 1 30 ∧
    (busyLines.chip.line 1).use = .stopping 0xA5 625 1 ∧ (busyLines.chip.line 2).use = .free ∧ (busyLines.chip.printer 3).head = .stopping 7 1 ∧
    ∃ s : State, s.pending = [] ∧ s.prompt = false ∧ 24000 ≤ s.chip.su.clk + 1 :=
  ⟨rfl, rfl, by decide +kernel, rfl, rfl, by decide +kernel, by decide +kernel, by decide +kernel, by decide +kernel,
   calmOn fun c => c.onSu fun u => { u with clk := 23999 }, rfl, rfl, by decide +kernel⟩

/-- The invariant of the holds, in a READY part with none. -/
theorem oneHold_of {s : State} (h : s.chip.ju.posting = none ∧ s.chip.pru.submission = none ∧ s.chip.su.request = none ∧
    s.chip.cu.walk = none ∧ s.chip.su.unitState = .ready) (hs : s.chip.hlc.send = none ∨ s.chip.cu.day.state = .sending) : s.OneHold where
  posting := fun x => absurd h.1 x
  submission := fun x => absurd h.2.1 x
  request := fun x => absurd h.2.2.1 x
  walk := fun x => absurd h.2.2.2.1 x
  send := fun x => ⟨h.2.2.2.2, hs.resolve_left x⟩
  loading := fun x => by rw [h.2.2.2.2] at x; cases x
  released := fun _ => by rw [h.2.2.2.2]; decide
  operands := fun _ _ => .inl h.2.2.2.2

/-- A day being sent, its one frame outstanding, with the ACK of it waiting; the RESERVE is balanced. -/
def sendingDay : State :=
  { calmOn (fun c => ((inDay .sending c).onHlc fun h => { h with link := .up, send := some aSend }).onCu fun u =>
      { u with drawers := vupd u.drawers 12 fun d => { d with state := .balanced } }) with pending := [.ack 0] }

theorem sendingDay_hold : sendingDay.OneHold := oneHold_of (by decide +kernel) (.inr (by decide +kernel))

theorem witness_StepKeepsOneHold : ∃ t, sendingDay.OneHold ∧ step sendingDay = .next t := ⟨_, sendingDay_hold, rfl⟩
theorem witness_FrozenDayStands : ∃ t, sendingDay.OneHold ∧ sendingDay.chip.Settled ∧ sendingDay.chip.su.unitState = .ready ∧
    sendingDay.chip.cu.day.state.frozen = true ∧ step sendingDay = .next t ∧ t.chip.cu.day.state.frozen = true :=
  ⟨_, sendingDay_hold, fun _ _ => by decide +kernel, by decide +kernel, by decide +kernel, rfl, by decide +kernel⟩
theorem witness_CashStaysBounded : ∃ t, sendingDay.CashInRange ∧ sendingDay.CountsBounded ∧ step sendingDay = .next t := by
  refine ⟨_, ⟨?_, ?_, by decide +kernel, by decide +kernel⟩,
    { sendingDay_hold with
      counts := by decide +kernel
      declared := fun i x h => by
        rw [show ∀ i, (sendingDay.chip.drawer i).declared = none by decide +kernel] at h; cases h
      one := by decide +kernel, calm := fun _ => by decide +kernel
      running := fun po h => by rw [show sendingDay.chip.ju.posting = none by decide +kernel] at h; cases h
      handed := fun po h => by rw [show sendingDay.chip.ju.posting = none by decide +kernel] at h; cases h
      applying := fun po h => by rw [show sendingDay.chip.ju.posting = none by decide +kernel] at h; cases h }, rfl⟩
  · unfold Sum.InRange; decide +kernel
  · unfold Sum.InRange; decide +kernel

/-- A printer with a request queued in an open day. -/
def queued : State := { calmOn (fun c => (inDay .dayOpen c).onPrinter 2 fun x => { x with queue := [anEntry] }) with pending := [.requestTake 2] }

theorem witness_PrintsStayDistinct : ∃ t, queued.PrintsDistinct ∧ queued.chip.pendingSeqs = [1] ∧ step queued = .next t := by
  have h : queued.chip.pru.submission = none := by decide +kernel
  have h' : queued.chip.pendingSeqs = [1] := by decide +kernel
  exact ⟨_, { oneHold_of (by decide +kernel) (.inl (by decide +kernel)) with
    distinct := by rw [h']; decide
    frozen := fun x => absurd x (by decide +kernel)
    one := by decide +kernel
    calm := fun _ => by decide +kernel
    accepted := fun b x => by rw [h] at x; cases x }, h', rfl⟩
theorem witness_SendsStayOrdered : ∃ t, sendingDay.SendOrdered ∧ step sendingDay = .next t := by
  have h : sendingDay.chip.hlc.send = some aSend := by decide +kernel
  refine ⟨_, { sendingDay_hold with
    indices := fun x hx => ?_
    window := fun x hx => ?_
    resend := fun x i hx hi => ?_
    recent := fun x hx => ?_
    setting := fun p v e b hp => by rw [show sendingDay.chip.ap.host = none by decide +kernel] at hp; cases hp }, rfl⟩
  all_goals rw [h] at hx; cases hx
  · refine ⟨rfl, by decide, fun k o ho => ?_⟩
    match k, ho with
    | 0, ho => cases ho; decide
    | k + 1, ho => exact absurd ho (by simp [aSend])
  · decide +kernel
  · cases hi
  · decide

/-- Drawer 3 released. -/
def released : State :=
  { calmOn (fun c => (((inDay .dayOpen c).onCu fun u => { u with drawers := vupd u.drawers 3 fun d => { d with state := .drawerOpen } }).onDrop 3
      fun d => { d with terminal := .attached, pulse := some 250 })) with pending := [.idleTimerExpiry 3] }

theorem witness_ReleasesStayGated : ∃ t, released.ReleasesGated ∧ released.chip.drwrel 3 = true ∧ step released = .next t := by
  refine ⟨_, { oneHold_of (by decide +kernel) (.inl (by decide +kernel)) with
    active := by decide +kernel
    asking := fun l d f h => ?_
    resent := fun p f h => ?_ }, by decide +kernel, rfl⟩
  · rw [show ∀ l, (released.chip.line l).use.frame = none by decide +kernel] at h; cases h
  · rw [show ∀ p, (released.chip.drop p).resend = none by decide +kernel] at h; cases h

theorem witness_FormatsReadBack_flags : (∀ x ∈ [(1 : Byte), 0x7D], x ≠ 0x7E) ∧ cutFlags [1, 0x7E, 0x7E, 2] = [[1], [], [2]] := by decide
theorem witness_PostingsJudged_numbers : 0 < 4294967295 ∧ 4294967294 < 4294967295 ∧ 0 < 4294901760 ∧ 4294901760 + 65536 ≤ 4294967296 ∧
    65534 < 65535 ∧ 65535 < 65536 := by decide
theorem witness_AmountsRendered : (999999999999 : Nat) ≤ 999999999999 ∧ recordKindOfCode 8 = some .void ∧
    calm.chip.setting .decimals ∈ [0, 2, 3] ∧ calm.chip.setting .separators ≤ 3 ∧
    ∃ c : Chip, (c.printer 3).text.length = 16 ∧ c.prn 3 .amountCol ≤ 47 ∧ c.setting .decimals ∈ [0, 2, 3] ∧ c.setting .separators ≤ 3 :=
  ⟨by decide, rfl, by decide +kernel, by decide +kernel,
   calm.chip.onPrinter 3 fun x => { x with text := List.replicate 16 0x20202020 }, by decide +kernel⟩

/-- A composed line: the host's text with the amount column at AMOUNT_COL (R143, R51). -/
theorem test_composed_line : (calm.chip.onPrinter 3 fun x => { x with text := List.replicate 16 0x2A2A2A2A }).composeLine 3
    { JRecord.blank with code := 4, amount := 341100 } =
    List.replicate (calm.chip.prn 3 .amountCol) 0x2A ++ text "        3,411.00-" ++ List.replicate (47 - calm.chip.prn 3 .amountCol) 0x2A := by
  decide +kernel

/-- The part with all its loading reads returned. -/
def loaded (held : Option HostProg) : State := calmOn fun c => (c.onSu fun _ => { SuState.reset with load := ⟨[], [], none, false, 0⟩ }).onAp fun a =>
  { a with held := true, host := held }

/-- A host read held. -/
def heldRead : HostProg := ⟨.read 0 1, 0, [], none, 0, false, .heldLoading⟩

theorem witness_LoadingEnds : (calmOn fun c => c.onSu fun _ => .reset).chip.loadingComplete = false ∧
    (loaded none).prompt = false ∧ (loaded none).chip.loadingComplete = true ∧ (loaded (some heldRead)).chip.loadingComplete = true ∧
    (loaded none).chip.ap.host = none ∧ (loaded (some heldRead)).chip.ap.host = some heldRead ∧ heldRead.phase = .heldLoading ∧
    ∃ s : State, s.prompt = false ∧ s.arb.port = .own rSU (.write 8 [whole 2]) .loadingState false ∧ s.chip.ap.host = some heldRead :=
  ⟨by decide +kernel, rfl, by decide +kernel, by decide +kernel, by decide +kernel, by decide +kernel, rfl,
   { loaded (some heldRead) with arb := { Arbiter.reset with port := .own rSU (.write 8 [whole 2]) .loadingState false } }, rfl, rfl, rfl⟩
theorem witness_HostAccesses : (calmOn fun c => c.onAp fun a => { a with host := some heldRead }).chip.ap.host.isSome = true ∧
    (loaded none).chip.ap.held = true ∧ (loaded none).chip.ap.host = none ∧ calm.HostFree ∧ calm.HostNext ∧
    (∃ k < 2, calm.chip.windowOf (wrapAddr ((0xFFC : Word).toNat + 4 * k)) ≠ calm.chip.windowOf (0xFFC : Word).toNat) ∧
    [whole 0, whole 0] ≠ [] ∧ (∀ k < 2, calm.chip.windowOf (wrapAddr ((0xFFFFFFF8 : Word).toNat + 4 * k)) = none) ∧
    (∀ w ∈ [(⟨1, 0⟩ : WriteWord)], w.enables = 0) ∧ ∃ w ∈ [(⟨1, 0⟩ : WriteWord), ⟨1, 8⟩], w.enables ≠ 0 :=
  ⟨by decide +kernel, by decide +kernel, by decide +kernel, calm_free, calm_next, by decide +kernel, by decide, by decide +kernel,
   by decide, by decide⟩
theorem witness_StorePort_passed : ∃ s : State, s.chip.cu.runningStale = false ∧ s.chip.own[rCU.val] =
    [⟨.staleRunning 0, .plain, false⟩, ⟨.read 0 4 1, .plain, false⟩] ∧ ¬ s.chip.NoneWaits ∧ calm.chip.NoneWaits ∧ s.arb.port = .idle ∧
    s.chip.hostWaiting = none :=
  ⟨calmOn fun c => (c.push rCU (.staleRunning 0) .plain).push rCU (.read 0 4 1) .plain, by decide +kernel, by decide +kernel,
   fun h => absurd (h rCU) (by decide +kernel), by unfold Chip.NoneWaits; decide +kernel, by decide +kernel, by decide +kernel⟩

theorem witness_SettingsJudged_unassigned : calm.HostFree ∧ calm.chip.SetupWord (0x5FC : Fin 4096).val ∧ 0x200 ≤ (0x5FC : Fin 4096).val ∧
    (0x5FC : Fin 4096).val % 4 = 0 ∧ settingAtOffset (0x5FC : Fin 4096).val = none ∧ settingAtOffset 0x268 = none ∧
    settingWritten (.settingWrite 0x5B8 7 0) = none ∧ settingWritten (.settingWrite 0x2F0 7 0) = some (.bcstRow, 7, 0) :=
  ⟨calm_free, setup_of (by decide +kernel), by decide, by decide, by decide +kernel, by decide +kernel, by decide +kernel, by decide +kernel⟩
theorem witness_ScreenRequestsServed : ∃ s : State, s.Alone ∧ s.chip.SetupWord 0x100 ∧ s.chip.OperandsAre s.mem (wd (0 : Fin 12).val)
      (wd (ModeKind.partialRows.code + 4 * flagBit true + 256 * (23 : Fin 32).val + 65536 * (23 : Fin 32).val)) ∧
    (s.chip.screen 0).autoBlanked = false ∧ (s.chip.screen 0).mode ≠ ⟨.partialRows, 23, 23⟩ ∧
    calm.chip.OperandsAre calm.mem (wd (0 : Fin 12).val) 0 :=
  ⟨{ calm with mem := writeWord [] 0x108 (whole (wd (ModeKind.partialRows.code + 4 + 256 * 23 + 65536 * 23))) },
   alone_of (by decide +kernel) (by decide +kernel), setup_of (by decide +kernel), ⟨by decide +kernel, by decide +kernel⟩, by decide +kernel,
   by decide +kernel, by decide +kernel, by decide +kernel⟩
theorem witness_ScreenRequestsServed_refused : ∃ s : State, s.Alone ∧ s.chip.OperandsAre s.mem (wd (11 : Fin 12).val)
      (wd (ModeKind.partialRows.code + 4 * flagBit false + 256 * (0 : Fin 32).val + 65536 * (24 : Fin 32).val)) :=
  ⟨{ calm with mem := writeWord (writeWord [] 0x108 (whole (wd (ModeKind.partialRows.code + 65536 * 24)))) 0x104 (whole 11) },
   alone_of (by decide +kernel) (by decide +kernel), ⟨by decide +kernel, by decide +kernel⟩⟩

/-- Printer 0 with a strike begun. -/
def striking : State := calmOn fun c => c.onPrinter 0 fun x =>
  { x with state := .striking, service := some { aService with begun := true }, queue := [{ anEntry with slot := 7, seq := 2 }] }

theorem witness_PrinterRequestsServed_begun : striking.Alone ∧ striking.chip.su.unitState = .ready ∧ striking.chip.SetupWord 0x100 ∧
    striking.chip.OperandsAre striking.mem (wd (0 : Fin 4).val) 0 ∧
    (striking.chip.printer 0).service = some { aService with begun := true } :=
  ⟨alone_of (by decide +kernel) (by decide +kernel), by decide +kernel, setup_of (by decide +kernel),
   ⟨by decide +kernel, by decide +kernel⟩, by decide +kernel⟩

/-- The answer to a stamp write awaited for printer 2's request. -/
def stamping (st : PrintState) (clearing : Bool) : State :=
  { calmOn (fun c => (c.onPrinter 2 fun x =>
      { x with state := .striking, clearing := clearing, service := some { aService with begun := true, stamp := some st } }).onJu fun j =>
      { j with stamps := [⟨2, 1, st⟩], stamping := true }) with
    arb := { Arbiter.reset with port := .own rJU (.write 0 [whole 1]) .stampWrite false } }

theorem witness_PrinterRequestsServed_stamped : (stamping .doubtful true).prompt = false ∧
    (stamping .doubtful true).arb.port = .own rJU (.write 0 [whole 1]) .stampWrite false ∧
    (stamping .doubtful true).chip.ju.stamps = [⟨2, 1, .doubtful⟩] ∧
    ((stamping .doubtful true).chip.printer 2).service = some { aService with begun := true, stamp := some .doubtful } ∧
    ((stamping .doubtful true).chip.printer 2).clearing = true ∧ (stamping .doubtful true).chip.coverIn 2 = false ∧
    (stamping .doubtful true).chip.ovcIn 2 = false := by decide +kernel

/-- The store port answering an own access. -/
def answering (u : Fin 9) (op : StoreOp) (tag : Tag) (s : State) : State := { s with arb := { Arbiter.reset with port := .own u op tag false } }

theorem witness_PostingSteps_more : ∃ s₁ s₂ s₃ : State, s₁.prompt = false ∧ s₁.chip.ju.posting = some (aPosting 8) ∧
    s₁.arb.port = .own rJU (.write 0 [whole 1]) (.post .voided) false ∧ s₁.chip.ju.unstamped.length = 8 ∧
    s₂.arb.port = .own rJU (.write 0 [whole 1]) (.post (.clear 16383)) false ∧ s₂.chip.capacity ≤ 16383 + 1 ∧
    s₃.arb.port = .own rJU (.write 0 [whole 1]) (.post .refused) false ∧ 16382 + 1 < s₃.chip.capacity :=
  let posts (code : Nat) := calmOn fun c => c.onJu fun j => { j with posting := some (aPosting code), unstamped := List.replicate 8 1 }
  ⟨answering rJU (.write 0 [whole 1]) (.post .voided) (posts 8), answering rJU (.write 0 [whole 1]) (.post (.clear 16383)) (posts 1),
   answering rJU (.write 0 [whole 1]) (.post .refused) (posts 3), by decide +kernel⟩
theorem witness_DayRequestsServed_ends : ∃ s₁ s₂ : State, s₁.prompt = false ∧ s₁.chip.su.request = some 1 ∧
    s₁.arb.port = .own rCU (.write 0 []) (.anchor 3 .request) false ∧ s₁.chip.cu.anchorBad = false ∧ s₂.chip.su.request = some 1 ∧
    s₂.arb.port = .own rSU (.write 0 []) (.dayCrc .request) false :=
  let s := calmOn fun c => c.onSu fun u => { u with request := some 1 }
  ⟨answering rCU (.write 0 []) (.anchor 3 .request) s, answering rSU (.write 0 []) (.dayCrc .request) s, by decide +kernel⟩
theorem witness_DamageAndStamps_word0 : ∃ s₁ s₂ : State, s₁.prompt = false ∧ s₁.chip.ju.stamps = [⟨3, 7, .printed⟩] ∧
    s₁.arb.port = .own rJU (.read 0 4 1) .stampWord0 false ∧ (readWord s₁.mem 0).toNat = 7 ∧
    s₂.arb.port = .own rJU (.read 0 4 1) (.stampRead false) false ∧ s₂.chip.ju.stamps = [⟨3, 7, .printed⟩] :=
  let s := calmOn fun c => c.onJu fun j => { j with stamps := [⟨3, 7, .printed⟩] }
  ⟨{ answering rJU (.read 0 4 1) .stampWord0 s with mem := [(0, 7)] }, answering rJU (.read 0 4 1) (.stampRead false) s, by decide +kernel⟩

/-- The words of a record as the ring holds it, its stamp POSTED. -/
def ringRecord (r : JRecord) : List Word := r.words ++ [stampWord (recordCrc r.words) .notBook .posted]

/-- A walk in an open day that began at 1, with the words at address 0 that a read of words 8 to 11 answers. -/
def walkReads (r : JRecord) (tag : Tag) : State :=
  { answering rCU (.read 0 4 4) tag (calmOn fun c => c.onCu fun u => { u with
      day := { u.day with state := .dayOpen, first := 1, date := 20240229 }
      drawers := vmap (fun d => { d with state := .drawerOpen }) u.drawers
      walk := some ⟨5, 4, .reading, false, false⟩ }) with
    mem := writeWords [] 0 ((ringRecord r).drop 8 |>.map whole) }

/-- A CASH_IN of slot 12 as record 5, and the VOID of a record 2 of the slot. -/
def walkedCash : JRecord := { JRecord.blank with seq := 5, code := 5, position := 3, amount := 100 }
def walkedVoid : JRecord := { JRecord.blank with seq := 5, code := 8, position := 3, reference := 2, amount := 100 }
def voidedCash : JRecord := { JRecord.blank with seq := 2, code := 5, position := 3, amount := 100 }

theorem witness_RebuildWalks_applied :
    let s := walkReads walkedCash (.walkB ((ringRecord walkedCash).take 8))
    let ws := (ringRecord walkedCash).take 8 ++ readWords s.mem 0 4 4
    s.prompt = false ∧ s.chip.cu.walk = some ⟨5, 4, .reading, false, false⟩ ∧
    s.arb.port = .own rCU (.read 0 4 4) (.walkB ((ringRecord walkedCash).take 8)) false ∧ stampStatus (wordAt ws 11) = .posted ∧
    (recordOfWords ws).seq = 5 ∧ recordCrc ws = stampCrc (wordAt ws 11) ∧ (5 : Nat) ≠ s.chip.cu.day.first ∧
    recordKindOfCode (recordOfWords ws).code = some .noncashIn ∧ slotAllows .noncashIn (recordOfWords ws).position = true ∧
    reapplyFails s.chip.cu .noncashIn (recordOfWords ws) = false := by decide +kernel
theorem witness_RebuildWalks_void :
    let s := walkReads walkedVoid (.walkB ((ringRecord walkedVoid).take 8))
    let ws := (ringRecord walkedVoid).take 8 ++ readWords s.mem 0 4 4
    stampStatus (wordAt ws 11) = .posted ∧ (recordOfWords ws).seq = 5 ∧ recordCrc ws = stampCrc (wordAt ws 11) ∧
    (recordOfWords ws).code = 8 ∧ slotAllows .void (recordOfWords ws).position = true ∧ (recordOfWords ws).reference ≠ 0 ∧
    seqDistance 1 (recordOfWords ws).reference < seqDistance 1 5 := by decide +kernel
theorem witness_RebuildWalks_original :
    let s := walkReads voidedCash (.walkOrigB (ringRecord walkedVoid) ((ringRecord voidedCash).take 8))
    let orig := (ringRecord voidedCash).take 8 ++ readWords s.mem 0 4 4
    let r := recordOfWords (ringRecord walkedVoid)
    let cu := (s.chip.cu.applyRecord s.chip.faces .noncashIn voidedCash)
    (recordOfWords orig).seq = r.reference ∧ recordCrc orig = stampCrc (wordAt orig 11) ∧ (recordOfWords orig).position = r.position ∧
    recordKindOfCode (recordOfWords orig).code = some .noncashIn ∧ reapplyFails cu .void { r with original := some .noncashIn } = false ∧
    reapplyFails s.chip.cu .void { r with original := some .noncashIn } = false := by decide +kernel

theorem witness_RebuildEnds_slots : ∃ s₁ s₂ s₃ : State, s₁.prompt = false ∧ s₁.chip.cu.walk = some ⟨5, 4, .finishing, false, false⟩ ∧
    s₁.arb.port = .own rCU (.write 0 []) (.rebOutcome 12) false ∧ s₁.chip.cu.day.state = .sending ∧ s₁.chip.su.reports.length < 16 ∧
    s₂.arb.port = .own rCU (.write 0 []) (.anchor 3 .rebuild) false ∧ s₂.chip.cu.anchorBad = false ∧ s₂.prompt = false ∧
    s₃.arb.port = .own rSU (.write 0 []) (.dayCrc .rebuild) false ∧ s₃.chip.cu.walk = some ⟨5, 4, .finishing, false, false⟩ :=
  let s := calmOn fun c => (inDay .sending c).onCu fun u => { u with walk := some ⟨5, 4, .finishing, false, false⟩ }
  ⟨answering rCU (.write 0 []) (.rebOutcome 12) s, answering rCU (.write 0 []) (.anchor 3 .rebuild) s,
   answering rSU (.write 0 []) (.dayCrc .rebuild) s, by decide +kernel⟩
theorem witness_SlotsResolved : ∃ s₁ s₂ s₃ : State, s₁.prompt = false ∧ s₁.chip.ap.journalUsable = true ∧
    s₁.arb.port = .own rJU (.read 0 4 1) (.slotRead 11 0x10000) false ∧ field (readWord s₁.mem 0) 24 8 = 1 ∧
    s₂.arb.port = .own rJU (.read 0 4 1) (.slotRead 0 0x10000) false ∧ field (readWord s₂.mem 0) 24 8 ≠ 1 ∧
    s₃.arb.port = .own rJU (.write 0 []) (.slotLost 12 0x10000) false ∧ s₃.chip.ju.resolving = 1 ∧
    s₃.chip.ju.posting = some { aPosting 0 with phase := .waiting } :=
  ⟨{ answering rJU (.read 0 4 1) (.slotRead 11 0x10000) calm with mem := [(3, 1)] }, answering rJU (.read 0 4 1) (.slotRead 0 0x10000) calm,
   answering rJU (.write 0 []) (.slotLost 12 0x10000) (calmOn fun c => c.onJu fun j =>
    { j with resolving := 1, posting := some { aPosting 0 with phase := .waiting } }), by decide +kernel⟩

/-- A rebuild at its slots, in a day of records 0xFFFFFFFE to 3. -/
def resolving (tag : Tag) (m : List Host.Cell) : State :=
  { answering rCU (.read 0 4 (match tag with | .rebFind _ _ => 2 | _ => 1)) tag (calmOn fun c => c.onCu fun u => { u with
      day := { u.day with state := .dayOpen, first := 4294967294, next := 4 }, walk := some ⟨4, 5, .finishing, false, false⟩ }) with mem := m }

theorem witness_SlotsResolved_rebuild : (resolving (.rebSlot 11) [(0, 1), (3, 1)]).prompt = false ∧
    (resolving (.rebSlot 11) [(0, 1), (3, 1)]).chip.cu.walk = some ⟨4, 5, .finishing, false, false⟩ ∧
    (resolving (.rebSlot 11) [(0, 1), (3, 1)]).chip.ap.journalUsable = true ∧
    (resolving (.rebSlot 11) [(0, 1), (3, 1)]).arb.port = .own rCU (.read 0 4 1) (.rebSlot 11) false ∧
    field (readWord (resolving (.rebSlot 11) [(0, 1), (3, 1)]).mem 0) 24 8 = 1 ∧ seqDistance 4294967294 4 ≤ 65536 ∧
    seqDistance 4294967294 1 < seqDistance 4294967294 4 ∧ 1 % 16777216 = field (readWord [(0, 1), (3, 1)] 0) 0 24 ∧
    (resolving (.rebSlot 0) []).arb.port = .own rCU (.read 0 4 1) (.rebSlot 0) false ∧
    (resolving (.rebFind 12 1) []).arb.port = .own rCU (.read 0 4 2) (.rebFind 12 1) false ∧
    (resolving (.rebWord0 12 1) []).arb.port = .own rCU (.read 0 4 1) (.rebWord0 12 1) false ∧
    (resolving (.rebOutcome 11) []).arb.port = .own rCU (.read 0 4 1) (.rebOutcome 11) false := by decide +kernel
/-- No record of the day has the number that a slot names. -/
theorem witness_SlotsResolved_unnamed : ∀ x : Nat, ¬ (x ≠ 0 ∧ x ≤ 4294967295 ∧ seqDistance 4294967294 x < seqDistance 4294967294 4 ∧
    x % 16777216 = 100) := by
  intro x h
  obtain ⟨h₀, h₁, h₂, h₃⟩ := h
  rw [show seqDistance 4294967294 4 = 5 by decide] at h₂
  unfold seqDistance at h₂
  rw [show Config.wordModulus = 4294967296 from rfl] at h₂
  split at h₂ <;> omega

theorem witness_ReportsWritten_index : ∃ s : State, s.prompt = false ∧
    s.arb.port = .own rSU (.write 0 []) (.repIndex s.chip.su.epoch) false := ⟨answering rSU (.write 0 []) (.repIndex 0) calm, rfl, rfl⟩
theorem witness_StatusRowsRender_cells : calm.chip.setting .decimals ∈ [0, 2, 3] ∧ calm.chip.setting .separators ≤ 3 ∧
    cashPosition calm.chip.faces (calm.chip.drawerOf 11).counts ≤ 999999999999 ∧ (calm.chip.attentionText 11).length ≤ 30 ∧
    calm.chip.dayField.length ≤ 17 := by decide +kernel
theorem witness_LinesTurn_choices : ∃ c₁ c₂ : Chip, (c₁.drop 11).resend = some (aFrame .mode 1) ∧ (c₂.drop 11).resend = none ∧
    (c₂.drop 11).terminal = .attached ∧ c₂.screenPresent 11 = true ∧ (c₂.screen 11).modePending = false ∧
    (c₂.screen 11).flight = none ∧ hasRow (c₂.screen 11).sweep 24 = true ∧ (calm.chip.drop 11).terminal = .detached ∧
    (calm.chip.drop 11).attachIn = 0 :=
  ⟨calm.chip.onDrop 11 fun d => { d with resend := some (aFrame .mode 1) },
   (calm.chip.onDrop 11 fun d => { d with terminal := .attached }).onScreen 11 fun x => { x with sweep := allRows }, by decide +kernel⟩
theorem witness_TerminalsAnswer_late : ((awaiting (aFrame .poll 1) 0).chip.line 1).use = .awaiting 2 (aFrame .poll 1) 0 ∧
    (∀ l : Fin 3, (calm.chip.line l).use = .free) ∧ 3 ≤ (aFrame (.row 7) 3).sends ∧
    ((awaiting (aFrame (.row 7) 3) 1).chip.line 1).use = .awaiting 2 (aFrame (.row 7) 3) 1 := by decide +kernel
theorem witness_StrikesRun_reads : ∃ s₁ s₂ s₃ : State, s₁.prompt = false ∧ (s₁.chip.printer 2).service = some aService ∧
    s₁.arb.port = .own rPRU (.read 0 4 8) (.textRead 2 0 0 []) false ∧
    s₂.arb.port = .own rPRU (.read 0 4 8) (.textRead 2 1 0 (List.replicate 8 0)) false ∧ 0 < aService.entry.seq ∧
    seqDistance s₂.chip.cu.day.first aService.entry.seq < seqDistance s₂.chip.cu.day.first s₂.chip.ju.nextSeq ∧
    s₂.chip.su.reports.length < 15 ∧
    s₃.arb.port = .own rJU (.read 0 4 4) (.recordB (.strike 2 0) 1 ((ringRecord { walkedCash with seq := 1 }).take 8)) false ∧
    (let ws := (ringRecord { walkedCash with seq := 1 }).take 8 ++ readWords s₃.mem 0 4 4
     (recordOfWords ws).seq = 1 ∧ (recordOfWords ws).code ≠ 8 ∧ stampStatus (wordAt ws 11) ≠ .free) :=
  let s := calmOn fun c => ((c.onPrinter 2 fun x => { x with state := .striking, service := some aService, composing := true }).onCu fun u =>
    { u with day := { u.day with first := 1 } }).onJu fun j => { j with nextSeq := 2 }
  ⟨answering rPRU (.read 0 4 8) (.textRead 2 0 0 []) s, answering rPRU (.read 0 4 8) (.textRead 2 1 0 (List.replicate 8 0)) s,
   { answering rJU (.read 0 4 4) (.recordB (.strike 2 0) 1 ((ringRecord { walkedCash with seq := 1 }).take 8)) s with
     mem := writeWords [] 0 ((ringRecord { walkedCash with seq := 1 }).drop 8 |>.map whole) }, by decide +kernel⟩
theorem witness_StrikesRun_stamped : (stamping .printed false).arb.port = .own rJU (.write 0 [whole 1]) .stampWrite false ∧
    (stamping .printed false).chip.ju.stamps = [⟨2, 1, .printed⟩] ∧ ((stamping .printed false).chip.printer 2).clearing = false ∧
    ((stamping .printed false).chip.printer 2).pageTurn = none ∧ ((stamping .printed false).chip.printer 2).state = .striking ∧
    (stamping .printed false).chip.su.reports.length < 16 := by decide +kernel
theorem witness_CausesShutDown_halted : ∃ s : State, s.prompt = false ∧ (s.chip.printer 2).state = .halted ∧
    (s.chip.feed 2).latch.cover = true ∧ (s.chip.feed 2).latch.ovc = false :=
  ⟨calmOn fun c => (c.onPrinter 2 fun x => { x with state := .halted }).onFeed 2 fun f => { f with latch := { Latch.empty with cover := true } },
   by decide +kernel⟩

theorem witness_LinkFramesHeard : ∃ s₁ s₂ s₃ : State, s₁.prompt = false ∧ s₁.chip.hlc.link = .up ∧ readHoFrame [0x7D] = .invalid ∧
    (∀ b ∈ [(0x7D : Byte)], b ≠ 0x7E) ∧ min 15 (s₁.chip.hlc.errors + 1) < s₁.chip.linkSet .errThreshold ∧ s₂.prompt = false ∧
    s₂.chip.hlc.link = .calling ∧ s₂.chip.linkSet .errThreshold ≤ min 15 (s₂.chip.hlc.errors + 1) ∧ s₃.prompt = false ∧
    s₃.chip.hlc.keepaliveTimer = some 0 ∧ calm.chip.hlc.link = .down ∧ calm.chip.hlc.keepaliveTimer ≠ some 0 :=
  ⟨linked fun h => { h with link := .up }, linked fun h => { h with link := .calling, errors := 15 },
   linked fun h => { h with keepaliveTimer := some 0 }, by decide +kernel⟩

/-- A send whose oldest frame awaits its resend. -/
def resending (sends : Nat) : State := calmOn fun c =>
  inDay .sending (c.onHlc fun h => { h with link := .up, send := some { aSend with out := [⟨0, 0, sends, [1]⟩], resend := some 0 } })

theorem witness_TransmitterChooses : ∃ s₁ s₂ : State, s₁.prompt = false ∧ s₁.chip.hlc.tx = some .helloAck ∧ s₁.chip.hlc.link = .calling ∧
    s₁.chip.su.reports.length < 16 ∧ s₂.chip.hlc.tx = some (.data 0 true s₂.chip.hlc.epoch) ∧
    (resending 3).prompt = false ∧ (resending 3).chip.hlc.tx = none ∧ (resending 3).chip.hlc.build = none ∧
    (resending 3).chip.hlc.link = .up ∧ (resending 3).chip.hlc.helloAckOwed = false ∧
    (resending 3).chip.hlc.send = some { aSend with out := [⟨0, 0, 3, [1]⟩], resend := some 0 } ∧
    ([⟨0, 0, 3, [1]⟩] : List Outstanding).find? (·.index == 0) = some ⟨0, 0, 3, [1]⟩ ∧ 3 < 1 + (resending 3).chip.linkSet .frameRetries ∧
    1 + (resending 6).chip.linkSet .frameRetries ≤ 6 ∧ (resending 6).chip.cu.day.state = .sending ∧ (resending 6).chip.su.reports.length < 16 :=
  ⟨linked fun h => { h with link := .calling, tx := some .helloAck }, linked fun h => { h with link := .up, tx := some (.data 0 true 0) },
   by decide +kernel⟩

/-- An ACTIVE send of a day of six records, at a frame. -/
def batchAt (frame : Nat) : State := calmOn fun c => (c.onCu fun u => { u with day := { u.day with state := .sending, first := 1, recordCount := 6 } }).onHlc
  fun h => { h with link := .up, send := some { aSend with next := frame, total := 9, out := [] } }

theorem witness_BatchFramesBuilt : (batchAt 0).prompt = false ∧ (batchAt 0).chip.hlc.link = .up ∧ (batchAt 0).chip.hlc.tx = none ∧
    (batchAt 0).chip.hlc.build = none ∧ (batchAt 0).chip.hlc.helloAckOwed = false ∧
    (batchAt 0).chip.hlc.send = some { aSend with next := 0, total := 9, out := [] } ∧ 0 < (batchAt 0).chip.linkSet .window ∧
    9 = ((batchAt 0).chip.cu.day.recordCount + 4) / 5 + 7 ∧ (batchAt 2).chip.hlc.send = some { aSend with next := 2, total := 9, out := [] } ∧
    (batchAt 7).chip.hlc.send = some { aSend with next := 7, total := 9, out := [] } ∧
    (batchAt 8).chip.hlc.send = some { aSend with next := 8, total := 9, out := [] } := by decide +kernel

/-- A RECORDS frame with its last record's second burst under way. -/
def buildingAt (first : Nat) (rest : List Nat) : State := { answering rHLC (.read 0 4 4) (.batchRead 1 0 [wd first, 0, 0, 0, 0, 0, 0, 0])
  { batchAt 2 with chip := (batchAt 2).chip.onHlc fun h => { h with build := some ⟨2, 6 :: rest, []⟩ } } with mem := [] }

theorem witness_BatchFramesBuilt_records : (buildingAt 6 []).prompt = false ∧ (buildingAt 6 []).chip.hlc.build = some ⟨2, [6], []⟩ ∧
    (buildingAt 6 []).chip.cu.day.state = .sending ∧ (buildingAt 6 []).chip.su.reports.length < 15 ∧
    (buildingAt 6 []).arb.port = .own rHLC (.read 0 4 4) (.batchRead 1 (buildingAt 6 []).chip.hlc.epoch [6, 0, 0, 0, 0, 0, 0, 0]) false ∧
    (wordAt ([6, 0, 0, 0, 0, 0, 0, 0] ++ readWords (buildingAt 6 []).mem 0 4 4) 0).toNat = 6 ∧
    (buildingAt 6 [7]).chip.hlc.build = some ⟨2, [6, 7], []⟩ ∧
    (wordAt ([5, 0, 0, 0, 0, 0, 0, 0] ++ readWords (buildingAt 5 []).mem 0 4 4) 0).toNat ≠ 6 := by decide +kernel
theorem witness_AcksTaken : (resending 3).prompt = false ∧ (resending 3).chip.hlc.link = .up ∧
    ([⟨0, 0, 3, [1]⟩] : List Outstanding) = [] ++ ⟨0, 0, 3, [1]⟩ :: [] ∧ (0 : Nat) = (0 : Fin 256).val ∧ aSend.ackTimer = some 0 ∧
    (∀ o ∈ aSend.out, o.link ≠ (255 : Fin 256).val) ∧ (255 : Fin 256).val ∉ aSend.recent ∧
    min 15 ((resending 3).chip.hlc.errors + 1) < (resending 3).chip.linkSet .errThreshold ∧
    ∃ s : State, s.chip.hlc.link = .calling ∧ s.chip.hlc.send = some { aSend with recent := [255], state := .held } :=
  ⟨rfl, by decide +kernel, rfl, rfl, rfl, by decide, by decide, by decide +kernel,
   linked fun h => { h with link := .calling, send := some { aSend with recent := [255], state := .held } }, by decide +kernel, by decide +kernel⟩
theorem witness_SendsEnd_early : (resending 3).chip.hlc.send ≠ none ∧ ({ aSend with holdTimer := some 1 } : Send).holdTimer ≠ some 0 ∧
    (∀ x, (linked fun h => { h with link := .calling, send := some aSend }).chip.hlc.send = some x → x.state ≠ .awaitVerdict) ∧
    min 15 ((linked fun h => { h with link := .calling, send := some aSend }).chip.hlc.errors + 1) <
      (linked fun h => { h with link := .calling, send := some aSend }).chip.linkSet .errThreshold :=
  ⟨by decide +kernel, by decide, fun x h => by cases (show some aSend = some x from h); decide, by decide +kernel⟩
theorem witness_DrawerReleaseServed_key : ∃ s : State, s.prompt = false ∧ (s.chip.line 1).use = .awaiting 2 (aFrame .poll 1) 30 ∧
    (s.chip.screen (posOf 1 2)).autoBlanked = false ∧ s.chip.screenPresent (posOf 1 2) = true ∧
    s.chip.setting (.remoteRelease (posOf 1 2)) = 1 ∧ (s.chip.line 1).keys = [] :=
  ⟨{ awaiting (aFrame .poll 1) 30 with
     chip := (awaiting (aFrame .poll 1) 30).chip.putImage (Setting.remoteRelease (posOf 1 2)).index 1 }, by decide +kernel⟩

/-- A posting read and judged: JU's reads of it answered. -/
def posting (po : Posting) (op : StoreOp) (st : PostStep) (m : List Host.Cell) (f : Chip → Chip) : State :=
  { answering rJU op (.post st) (calmOn fun c => f (c.onJu fun j => { j with posting := some po })) with mem := m }

theorem witness_PostingsJudged : ∃ s₁ s₂ s₃ s₄ : State,
    (s₁.prompt = false ∧ s₁.chip.ju.posting = some (aPosting 5) ∧ s₁.chip.cu.day.state.frozen = false ∧
      s₁.arb.port = .own rJU (.read 0 4 8) (.post .readA) false) ∧
    (s₂.chip.ju.posting = some { aPosting 5 with words := ringRecord walkedCash |>.take 8 } ∧
      s₂.arb.port = .own rJU (.read 0 4 3) (.post .readB) false ∧ s₂.chip.cu.day.state = .noDay) ∧
    (s₃.chip.ju.posting = some { aPosting 8 with words := ringRecord walkedVoid } ∧
      s₃.arb.port = .own rJU (.read 0 4 8) (.post .origA) false) ∧
    (s₄.chip.ju.posting = some { aPosting 8 with words := ringRecord walkedVoid, orig := ringRecord voidedCash |>.take 8 } ∧
      s₄.arb.port = .own rJU (.read 0 4 4) (.post .origB) false) :=
  ⟨posting (aPosting 5) (.read 0 4 8) .readA [] id,
   posting { aPosting 5 with words := ringRecord walkedCash |>.take 8 } (.read 0 4 3) .readB [] id,
   posting { aPosting 8 with words := ringRecord walkedVoid } (.read 0 4 8) .origA [] id,
   posting { aPosting 8 with words := ringRecord walkedVoid, orig := ringRecord voidedCash |>.take 8 } (.read 0 4 4) .origB [] id,
   by decide +kernel⟩
/-- A NONCASH_IN of slot 3 passes every check in an open day; in a day not open its first failing check is the second (R60, R64). -/
theorem test_posting_judged :
    let po := { aPosting 5 with slot := 3, words := (ringRecord walkedCash).take 8 }
    let m := writeWords [] 0 ((ringRecord walkedCash).drop 8 |>.map whole)
    let opened : Chip → Chip := fun c => (inDay .dayOpen c).onCu fun u =>
      { u with drawers := vmap (fun d => { d with state := .drawerOpen }) u.drawers }
    (after (.storeAnswer true) (posting po (.read 0 4 3) .readB m opened)).chip.own[rJU.val] =
      [⟨.write (calm.chip.slotAddr 3 11) [outcomeInPosting (opened calm.chip).ju.nextSeq], .post .inPosting, false⟩] ∧
    (after (.storeAnswer true) (posting po (.read 0 4 3) .readB m id)).chip.own[rJU.val] =
      [⟨.write (calm.chip.slotAddr 3 11) [outcomeRefused .dayState 0], .post .refused, false⟩] := by decide +kernel

theorem witness_RecordsWritten : ∃ d : Drawer, ∃ day : DayRecord, d.recordCount < 2 ^ 32 ∧ d.lastSeq < 2 ^ 32 ∧
    cashPosition (Vector.replicate 10 1000000) d.counts < 2 ^ 64 ∧ countAt d.counts 9 = 65535 ∧
    d.declared = some ⟨zeroCounts, -1⟩ ∧ d.cashIn.value < 2 ^ 64 ∧ day.next < 2 ^ 32 ∧ day.recordCount < 2 ^ 32 ∧ day.hash < 2 ^ 64 ∧
    day.date < 2 ^ 32 ∧ day.previousDate < 2 ^ 32 ∧ day.first < 2 ^ 32 ∧ day.batch < 2 ^ 32 ∧ day.differenceTotal < 0 ∧
    -2 ^ 63 ≤ day.differenceTotal :=
  ⟨{ Drawer.reset with counts := Vector.replicate 10 65535, declared := some ⟨zeroCounts, -1⟩ },
   { DayRecord.reset with next := 4294967295, first := 1, differenceTotal := -999999999999 }, by decide +kernel⟩
theorem witness_RecordsWritten_steps : ∃ s₁ s₂ s₃ s₄ s₅ : State,
    (s₁.prompt = false ∧ s₁.chip.ju.posting = some (handed 1 none) ∧ (handed 1 none).phase = .handed ∧
      recordKindOfCode (handed 1 none).record.code = some .dayOpen ∧ (handed 1 none).record.position = (12 : Fin 13).val ∧
      (handed 1 none).record.target = (11 : Fin 13).val ∧ s₁.chip.windowEnabled .totals = true) ∧
    s₂.arb.port = .own rCU (.write 0x3FFFC []) (.mirror 12 3 .nothing) false ∧
    (s₃.arb.port = .own rCU (.write 0xE0 []) (.running 1 .nothing) false ∧ s₃.chip.su.reports.length < 16) ∧
    (s₄.arb.port = .own rCU (.write 0xA0 []) (.anchor 3 .defaults) false ∧ s₄.chip.cu.anchorBad = true ∧ (After.defaults ≠ .request)) ∧
    (s₅.prompt = false ∧ s₅.chip.ju.posting = some (handed 5 none) ∧ s₅.arb.port = .own rCU (.write 0xE0 []) (.running 1 .posting) false ∧
      s₅.chip.ju.nearFull = false ∧ s₅.chip.capacity * 9 ≤ s₅.chip.cu.day.recordCount * 10 ∧ s₅.chip.su.reports.length < 16) :=
  ⟨calmOn fun c => c.onJu fun j => { j with posting := some (handed 1 none) },
   answering rCU (.write 0x3FFFC []) (.mirror 12 3 .nothing) calm, answering rCU (.write 0xE0 []) (.running 1 .nothing) calm,
   answering rCU (.write 0xA0 []) (.anchor 3 .defaults) (calmOn fun c => c.onCu fun u => { u with anchorBad := true }),
   answering rCU (.write 0xE0 []) (.running 1 .posting) (calmOn fun c => (c.onJu fun j => { j with posting := some (handed 5 none) }).onCu
    fun u => { u with day := { u.day with recordCount := 14746 } }), by decide +kernel⟩

/-- A burst of the host whose first word's store access is answered, with words left. -/
def bursting (off : Nat) (rest : List WriteWord) : State :=
  { calmOn (fun c => c.onAp fun a => { a with
      host := some ⟨.write (wd off) (⟨5, 15⟩ :: rest), off, ⟨5, 15⟩ :: rest, some .setup, 0, true, .waiting (.word 5 15 false)⟩ }) with
    arb := { Arbiter.reset with port := .host (.write off [⟨5, 15⟩]) } }

theorem witness_HostWordsJudged : (0x204 : Nat) % 4 = 0 ∧ (623 : Nat) < 624 ∧ 48 * (12 : Fin 13).val + 44 = 620 ∧
    1024 * (3 : Fin 4).val + 128 * (7 : Fin 8).val + 4 * (31 : Fin 32).val = 4092 ∧ calm.HostFree ∧
    (∀ k < 1 + 1 + 1, calm.chip.windowOf (wrapAddr ((0x100 : Word).toNat + 4 * k)) = some .setup) ∧
    (∀ z ∈ [(⟨7, 0⟩ : WriteWord)], z.enables = 0) ∧ (1 : BitVec 4) ≠ 0 ∧
    watched .setup (0x104 - 0) = false ∧ watched .setup (0x148 - 0) = true ∧ (1 : BitVec 4) ≠ allBytes := by
  exact ⟨by decide, by decide, by decide, by decide, calm_free, by decide +kernel, by decide, by decide, by decide +kernel, by decide +kernel,
    by decide⟩
theorem witness_HostWordsJudged_stored : ∃ p : HostProg, (bursting 0x104 [⟨7, 0⟩, ⟨8, 15⟩]).prompt = false ∧
    (bursting 0x104 [⟨7, 0⟩, ⟨8, 15⟩]).arb.port = .host (.write 0x104 [⟨5, 15⟩]) ∧
    (bursting 0x104 [⟨7, 0⟩, ⟨8, 15⟩]).chip.ap.host = some p ∧ p.granted = true ∧ p.window = some .setup ∧
    p.phase = .waiting (.word 5 15 false) ∧ p.rest.drop 1 = [⟨7, 0⟩] ++ ⟨8, 15⟩ :: [] ∧
    (∀ z ∈ [(⟨7, 0⟩ : WriteWord)], z.enables = 0) ∧ (15 : BitVec 4) ≠ 0 :=
  ⟨_, rfl, rfl, rfl, rfl, rfl, rfl, rfl, by decide, by decide⟩
theorem witness_HostWordsJudged_words : calm.HostNext ∧ calm.chip.windowOf (0x148 : Word).toNat = some .setup ∧
    watched .setup ((0x148 : Word).toNat - calm.chip.windowBase .setup) = true ∧ (1 : BitVec 4) ≠ 0 ∧ (1 : BitVec 4) ≠ allBytes ∧
    calm.chip.windowOf (0x104 : Word).toNat = some .setup ∧ calm.chip.windowOf (0x5107C : Word).toNat = some .print ∧
    (0x5107C : Word).toNat - calm.chip.windowBase .print = 124 ∧ calm.chip.slotStatus 0 0 ≠ .queued ∧ calm.chip.slotStatus 0 0 ≠ .printing ∧
    calm.chip.windowOf (0x100FC : Word).toNat = some .journal ∧ (0x100FC : Word).toNat - calm.chip.windowBase .journal = 252 ∧
    calm.chip.windowOf (0x500A0 : Word).toNat = some .broadcast ∧
    ∃ s : State, s.HostNext ∧ s.chip.windowOf (0x61000 : Word).toNat = some .print ∧ 4096 ≤ (0x61000 : Word).toNat - s.chip.windowBase .print ∧
      s.chip.windowOf (0x7C000 : Word).toNat = some .screens ∧ 49152 ≤ (0x7C000 : Word).toNat - s.chip.windowBase .screens :=
  ⟨calm_next, by decide +kernel, by decide +kernel, by decide, by decide, by decide +kernel, by decide +kernel, by decide +kernel, by decide +kernel,
   by decide +kernel, by decide +kernel, by decide +kernel, by decide +kernel,
   calmOn fun c => c.onAp fun a => { a with placed := vput (vput a.placed 4 ⟨0x60, 0x61⟩) 2 ⟨0x70, 0x7C⟩ },
   next_of (by decide +kernel) (by decide +kernel), by decide +kernel⟩

/-- A submission of printer 2's slot 0 in an open day, its words read or its record being read. -/
def submitting (u : Fin 9) (op : StoreOp) (tag : Tag) (m : List Host.Cell) : State :=
  { answering u op tag (calmOn fun c =>
    let c := (inDay .dayOpen c).onCu fun x => { x with day := { x.day with first := 1 } }
    { c with pru := { c.pru with submission := some ⟨2, 0, false, anEntry⟩ } }) with mem := m }

theorem witness_CommitAndSubmitHeld_steps : (submitting rPRU (.read 0 4 2) .subRead []).prompt = false ∧
    (submitting rPRU (.read 0 4 2) .subRead []).chip.pru.submission = some ⟨2, 0, false, anEntry⟩ ∧
    (submitting rPRU (.read 0 4 2) .subRead []).arb.port = .own rPRU (.read 0 4 2) .subRead false ∧
    (submitting rJU (.read 0 4 8) (.recordA .submission 1) []).arb.port = .own rJU (.read 0 4 8) (.recordA .submission 1) false ∧
    (submitting rJU (.read 0 4 4) (.recordB .submission 1 [1]) []).arb.port = .own rJU (.read 0 4 4) (.recordB .submission 1 [1]) false ∧
    (submitting rJU (.read 0 4 8) (.originalA .submission [1] 2) []).arb.port =
      .own rJU (.read 0 4 8) (.originalA .submission [1] 2) false ∧
    (submitting rJU (.read 0 4 4) (.originalB .submission [1] 2 [2]) []).arb.port =
      .own rJU (.read 0 4 4) (.originalB .submission [1] 2 [2]) false ∧
    (submitting rPRU (.write 0 []) .subQueued []).arb.port = .own rPRU (.write 0 []) .subQueued false ∧
    (submitting rPRU (.write 0 []) .subRefused []).arb.port = .own rPRU (.write 0 []) .subRefused false ∧
    (submitting rPRU (.write 0 []) .subRefused []).chip.su.reports.length < 16 := by decide +kernel
/-- A record of the book, not yet printed, is queued; one with NOT_BOOK in its stamp is refused (R138). -/
theorem test_submission_judged :
    let r := { walkedCash with seq := 1, book := true }
    let ws := r.words ++ [stampWord (recordCrc r.words) .notPrinted .posted]
    let m (ws : List Word) := writeWords [] 0 (ws.drop 8 |>.map whole)
    ((after (.storeAnswer true) (submitting rJU (.read 0 4 4) (.recordB .submission 1 (ws.take 8)) (m ws))).chip.slotStatus 2 0 = .queued) ∧
    (after (.storeAnswer true) (submitting rJU (.read 0 4 4) (.recordB .submission 1 ((ringRecord r).take 8)) (m (ringRecord r)))).chip.slotStatus
      2 0 = .refused Reason.notBook.code := by decide +kernel

/-- The settings and the day record read at start-up with their CRCs, every setting word 0. -/
def loadedWell (day : Word) : State := calmOn fun c => (c.onSu fun _ =>
  let ws := List.replicate 255 (0 : Word)
  let dw := day :: List.replicate 30 0
  { SuState.reset with load := ⟨ws ++ [wd (crc16 (wordsBytes ws))], dw ++ [wd (crc16 (wordsBytes dw))], some 64, false, 0⟩ }).onAp fun a =>
  { a with held := true }

theorem witness_LoadingEnds_outcomes : (loadedWell 1).prompt = false ∧ (loadedWell 1).chip.loadingComplete = true ∧
    (after .loadingEnd (loadedWell 1)).chip.su.outcome = some .loaded ∧
    (after .loadingEnd (loadedWell 1)).chip.su.unitState = .rebuilding ∧ (loadedWell 1).chip.su.reports.length < 15 ∧
    (after .loadingEnd (loadedWell 0)).chip.su.unitState = .ready ∧
    (after .loadingEnd (loadedWell 5)).chip.su.outcome = some .defaultedDay := by decide +kernel

/-- Line 1's third drop with a row of its sweep in flight. -/
def sweeping (u : LineUse) : State := calmOn fun c => (c.onLine 1 fun x => { x with use := u }).onScreen (posOf 1 2) fun x =>
  { x with sweeping := true, flight := some ⟨7, false⟩, sweep := noRows, sweepCount := 4294967295 }

theorem witness_SweepsAndFanOuts_rows : (sweeping (.awaiting 2 (aFrame (.row 7) 3) 5)).prompt = false ∧
    ((sweeping (.awaiting 2 (aFrame (.row 7) 3) 5)).chip.screen (posOf 1 2)).sweeping = true ∧
    ((sweeping (.awaiting 2 (aFrame (.row 7) 3) 5)).chip.screen (posOf 1 2)).flight = some ⟨7, false⟩ ∧
    ((sweeping (.awaiting 2 (aFrame (.row 7) 3) 5)).chip.line 1).use = .awaiting 2 (aFrame (.row 7) 3) 5 ∧
    (aFrame (.row 7) 3).kind = .row 7 ∧ 3 ≤ (aFrame (.row 7) 3).sends ∧ ((sweeping (.reading 2 7)).chip.line 1).use = .reading 2 7 ∧
    ((after (.terminalAck 1 false []) (sweeping (.awaiting 2 (aFrame (.row 7) 3) 5))).chip.screen (posOf 1 2)).sweepCount = 0 ∧
    ∃ s : State, (s.chip.line 1).use = .reading 2 7 ∧
      s.arb.port = .own (rSLC 1) (.read 0 4 8) (.rowRead (posOf 1 2) 4 (s.chip.line 1).epoch []) false :=
  ⟨rfl, by decide +kernel, by decide +kernel, by decide +kernel, rfl, by decide, by decide +kernel, by decide +kernel,
   answering (rSLC 1) (.read 0 4 8) (.rowRead (posOf 1 2) 4 ((sweeping (.reading 2 7)).chip.line 1).epoch []) (sweeping (.reading 2 7)),
   by decide +kernel⟩

/-- The fan-out's access answered. -/
def fanning (op : StoreOp) (tag : Tag) (phase : FanPhase) : State :=
  answering rSCU op tag (calmOn fun c => c.onFan fun f => { f with phase := phase, copy := List.replicate 32 7, screens := [3, 5] })

theorem witness_SweepsAndFanOuts_fans :
    (fanning (.read 0 4 8) (.fanRead 4) .reading).arb.port = .own rSCU (.read 0 4 8) (.fanRead 4) false ∧
    (fanning (.read 0 4 8) (.fanRead 4) .reading).chip.scu.fan.start = false ∧
    (fanning (.read 0 4 8) (.fanRead 4) .reading).chip.scu.fan.failed = false ∧
    (fanning (.read 0 4 8) (.fanRead 4) .reading).chip.scu.work = [] ∧
    (after (.storeAnswer true) (fanning (.read 0 4 8) (.fanRead 4) .reading)).chip.scu.serving = some (.fanWrite 3) ∧
    (fanning (.write 0 []) (.fanWrite 2 4) .writing).arb.port = .own rSCU (.write 0 []) (.fanWrite 2 4) false ∧
    (fanning (.write 0 []) (.fanWrite 2 4) .writing).chip.scu.fan.phase = .writing ∧
    (fanning (.write 0 []) (.fanWrite 2 4) .writing).chip.scu.fan.start = false := by decide +kernel

/-- The settings hold a last page of JOURNAL and of PRINT. -/
def placing (limit : Nat) : State := calmOn fun c =>
  c.putImage (Setting.placement 0 true).index (wd limit) |>.putImage (Setting.placement 4 true).index (wd limit)

theorem witness_PlacementsMove : calm.HostNext ∧ settingWritten (.placementWrite 0 false 0x10 15) = some (.placement 0 false, 0x10, allBytes) ∧
    calm.chip.SetupWord (0x200 + 4 * (Setting.placement 0 false).index) ∧ calm.chip.frozen .day = false ∧
    calm.chip.SetupWord (0x208 + 4 * flagBit true) ∧ calm.chip.SetupWord (0x210 + 4 * flagBit true) ∧
    calm.chip.SetupWord (0x220 + 4 * flagBit true) ∧ min (5 : Word).toNat 0xFFFFF ≠ calm.chip.setting (.placement 2 true) ∧
    settingWritten (.jnlCapacityWrite 1024 15) = some (.jnlCapacity, 1024, allBytes) ∧
    (∃ s : State, s.HostNext ∧ s.chip.frozen .day = false ∧ s.chip.SetupWord (0x200 + 4 * (Setting.placement 0 false).index) ∧
      s.chip.setting (.placement 0 true) = 0x200) :=
  ⟨calm_next, by decide +kernel, setup_of (by decide +kernel), by decide +kernel, setup_of (by decide +kernel), setup_of (by decide +kernel),
   setup_of (by decide +kernel), by decide +kernel, by decide +kernel, placing 0x200, next_of (by decide +kernel) (by decide +kernel),
   by decide +kernel, setup_of (by decide +kernel), by decide +kernel⟩
theorem witness_PlacementsMove_answers : ∃ s₁ s₂ : State,
    (s₁.prompt = false ∧ s₁.arb.port = .own (rSLC (lineOf 11)) (.read 0 4 1) (.keyInit 11 (s₁.chip.drop 11).keyEpoch) false ∧
      (s₁.chip.line (lineOf 11)).keys = [] ∧ s₁.chip.screenPresent 11 = true) ∧
    (s₂.prompt = false ∧ s₂.arb.port = .own rPRU (.read 0 128 8) (.slotScan 3) false ∧ s₂.chip.pru.scanning = 1 ∧
      s₂.chip.pru.submission = some ⟨2, 0, true, anEntry⟩) :=
  ⟨answering (rSLC (lineOf 11)) (.read 0 4 1) (.keyInit 11 (calm.chip.drop 11).keyEpoch) calm,
   answering rPRU (.read 0 128 8) (.slotScan 3) (calmOn fun c =>
    { c with pru := { c.pru with scanning := 1, submission := some ⟨2, 0, true, anEntry⟩ } }), by decide +kernel⟩

/-! ### Witnesses of serial levels, keys, bursts, strikes and request ends -/

/-- Bit 4 of 0x08, and the stop bit, of the byte of line 1 and the byte of printer 3 in progress (R119, R197). -/
theorem witness_FramesGoOut_levels : ∃ s₁ s₂ : State,
    (s₁.chip.line 1).use = .sending 3 ⟨.poll, [0xA5, 0x08], 1⟩ (6 * bitClk (s₁.chip.line 1).rate) 30 ∧
    (⟨.poll, [0xA5, 0x08], 1⟩ : LineFrame).bytes[1]? = some 0x08 ∧ 0 < bitClk (s₁.chip.line 1).rate ∧
    6 * bitClk (s₁.chip.line 1).rate + (10 * 1 + (4 : Fin 10).val) * bitClk (s₁.chip.line 1).rate + 0 =
      10 * bitClk (s₁.chip.line 1).rate * 2 ∧ s₁.chip.txd 1 = true ∧
    (s₁.chip.line 0).use = .stopping 0xA5 1250 1250 ∧ 1250 + (10 * 0 + (9 : Fin 10).val) * 1250 + 0 = 10 * 1250 * 1 ∧
    s₁.chip.txd 0 = true ∧ (s₁.chip.line 2).use = .free ∧
    (s₂.chip.printer 3).head = .sending [2] 6250 ∧ 6250 + (10 * 0 + (0 : Fin 10).val) * 625 + 0 = 10 * 625 * 1 ∧ s₂.chip.htx 3 = false ∧
    (s₂.chip.printer 2).head = .stopping 2 4375 ∧ 4375 + (10 * 0 + (3 : Fin 10).val) * 625 + 0 = 10 * 625 * 1 ∧ s₂.chip.htx 2 = false ∧
    (s₂.chip.printer 0).head = .idle :=
  ⟨calmOn fun c => (c.onLine 1 fun x => { x with use := .sending 3 ⟨.poll, [0xA5, 0x08], 1⟩ (6 * bitClk x.rate) 30 }).onLine 0
    fun x => { x with use := .stopping 0xA5 1250 1250 },
   calmOn fun c => (c.onPrinter 3 fun x => { x with head := .sending [2] 6250 }).onPrinter 2 fun x => { x with head := .stopping 2 4375 },
   by decide +kernel⟩

/-- Line 1 waiting for a burst of drop 2's row 7. -/
def readingRow (burst : Nat) (w : List Word) : State := answering (rSLC 1) (.read 0 4 8) (.rowRead (posOf 1 2) burst 0 w)
  (calmOn fun c => c.onLine 1 fun x => { x with use := .reading 2 7 })

theorem witness_FramesGoOut_rows : ((readingRow 0 []).chip.line 1).use = .reading 2 7 ∧ ((readingRow 0 []).chip.line 1).epoch = 0 ∧
    (readingRow 0 []).arb.port = .own (rSLC 1) (.read 0 4 8) (.rowRead (posOf 1 2) 0 0 []) false ∧
    (List.replicate 32 (0 : Word) ++ readWords (readingRow 4 (List.replicate 32 0)).mem 0 4 8).length = 40 ∧
    ∃ s : State, s.prompt = false ∧ s.arb.port = .idle ∧ s.chip.hostWaiting = none ∧
      (∀ u : Fin 9, u ≠ rSLC (lineOf 6) → s.chip.waiting[u.val] = []) ∧
      s.chip.own[(rSLC (lineOf 6)).val] = [⟨.read 0 4 8, .rowRead 6 0 0 [], false⟩] ∧ (s.chip.line (lineOf 6)).epoch = 0 :=
  ⟨by decide +kernel, by decide +kernel, by decide +kernel, by decide +kernel,
   calmOn fun c => c.push (rSLC (lineOf 6)) (.read 0 4 8) (.rowRead 6 0 0 []), by decide +kernel⟩

/-- Line 1 awaiting drop 2's answer, the drop's ring holding some keys, its screen absent or not. -/
def keyed (unread : Nat) (absent : Bool) : State :=
  let s := awaiting (aFrame .poll 1) 30
  { s with chip :=
    let c := s.chip.onDrop (posOf 1 2) fun x => { x with writeIndex := unread, readIndex := 0 }
    if absent = true then { c with ap := { c.ap with placed := Vector.replicate 6 disabledPlacement } } else c }

theorem witness_KeysAndSensors : ([0x41, 0xFFFF, 0x42, 0x43] : List (BitVec 16)).length ≤ 4 ∧
    ((keyed 15 false).chip.line 1).use = .awaiting 2 (aFrame .poll 1) 30 ∧ (aFrame .poll 1).kind ≠ .identReq ∧
    (keyed 15 false).chip.screenPresent (posOf 1 2) = true ∧ ((keyed 15 false).chip.line 1).placing = false ∧
    ((keyed 15 false).chip.line 1).initLeft = 0 ∧ ((keyed 15 false).chip.line 1).keys = [] ∧
    ((keyed 15 false).chip.drop (posOf 1 2)).writeIndex = 15 ∧ ((keyed 16 false).chip.drop (posOf 1 2)).writeIndex = 16 ∧
    (keyed 0 true).chip.screenPresent (posOf 1 2) = false ∧ ((keyed 0 true).chip.line 1).keys = [] ∧
    ((keyed 15 false).chip.drop (posOf 1 2)).sensor ≠ .sensorOpen ∧ ((keyed 15 false).chip.screen (posOf 1 2)).autoBlanked = false ∧
    (∃ s : State, (s.chip.line 1).placing = true ∧ s.chip.screenPresent (posOf 1 2) = true) ∧
    ∃ s : State, (s.chip.drop (posOf 1 2)).sensor = .sensorOpen ∧ (s.chip.drop (posOf 1 2)).attention = true :=
  ⟨by decide, by decide +kernel, by decide, by decide +kernel, by decide +kernel, by decide +kernel, by decide +kernel, by decide +kernel,
   by decide +kernel, by decide +kernel, by decide +kernel, by decide +kernel, by decide +kernel,
   ⟨calmOn fun c => c.onLine 1 fun x => { x with placing := true }, by decide +kernel⟩,
   calmOn fun c => c.onDrop (posOf 1 2) fun x => { x with sensor := .sensorOpen, attention := true }, by decide +kernel⟩
/-- Of four keys the DRAWER key is no key of the ring; the first of the others is placed in the one place left (R127, R128). -/
theorem test_keys_taken :
    let t := after (.terminalAck 1 false [0xFFFF, 0x41, 0x42, 0x43]) (keyed 15 false)
    (t.chip.line 1).keys = [⟨2, 0x42, 0⟩, ⟨2, 0x43, 0⟩] ∧ t.chip.own[(rSLC 1).val].length = 2 ∧
    (after (.terminalAck 1 false [0x41, 0x42]) (keyed 16 false)).chip.su.reports.map (·.kind) = [.keysDropped] := by decide +kernel

/-- A key of position 6 being placed, with another waiting. -/
def placingKey (op : StoreOp) (tag : Tag) : State := answering (rSLC (lineOf 6)) op tag
  (calmOn fun c => c.onLine (lineOf 6) fun x => { x with placing := true, keys := [⟨3, 0x42, 7⟩] })

theorem witness_KeysAndSensors_answers :
    (placingKey (.write 0 []) (.keyEntry 6 0)).prompt = false ∧
    (placingKey (.write 0 []) (.keyEntry 6 0)).arb.port = .own (rSLC (lineOf 6)) (.write 0 []) (.keyEntry 6 0) false ∧
    ((placingKey (.write 0 []) (.keyEntry 6 0)).chip.drop 6).keyEpoch = 0 ∧
    (placingKey (.write 0 []) (.keyIndex 6 0)).arb.port = .own (rSLC (lineOf 6)) (.write 0 []) (.keyIndex 6 0) false ∧
    ((placingKey (.write 0 []) (.keyIndex 6 0)).chip.line (lineOf 6)).initLeft = 0 ∧
    ((placingKey (.write 0 []) (.keyIndex 6 0)).chip.line (lineOf 6)).keys = [⟨3, 0x42, 7⟩] ∧
    (placingKey (.write 0 []) (.keyIndex 6 0)).chip.screenPresent (posOf (lineOf 6) 3) = true ∧
    (placingKey (.write 0 []) (.screenWord 6)).arb.port = .own (rSLC (lineOf 6)) (.write 0 []) (.screenWord 6) false ∧
    ((awaiting (aFrame .identReq 1) 30).chip.line 1).use = .awaiting 2 (aFrame .identReq 1) 30 ∧
    (awaiting (aFrame .identReq 1) 30).chip.Missed (.answerPauseTimeout 1) 1 2 (aFrame .identReq 1) ∧
    ∃ s : State, s.chip.Missed (.replyTimeout 1) 1 2 (aFrame .poll 1) ∧ (s.chip.drop (posOf 1 2)).terminal = .attached ∧
      (s.chip.drop (posOf 1 2)).misses = 2 ∧ (s.chip.drop (posOf 1 2)).sensor ≠ .unknown :=
  ⟨by decide +kernel, by decide +kernel, by decide +kernel, by decide +kernel, by decide +kernel, by decide +kernel, by decide +kernel,
   by decide +kernel, by decide +kernel, .inr ⟨30, by decide +kernel, .inl rfl⟩,
   { awaiting (aFrame .poll 1) 0 with chip := (awaiting (aFrame .poll 1) 0).chip.onDrop (posOf 1 2) fun x =>
      { x with terminal := .attached, misses := 2, sensor := .shut } },
   .inl ⟨by decide +kernel, rfl⟩, by decide +kernel, by decide +kernel, by decide +kernel⟩
theorem witness_TerminalsAnswer_wakes : ∃ s : State, (s.chip.line 1).use = .awaiting 2 (aFrame .poll 1) (29 + 1) ∧
    (s.chip.screen (posOf 1 2)).autoBlanked = true ∧ (s.chip.line 1).keys = [] :=
  ⟨{ awaiting (aFrame .poll 1) 30 with chip := (awaiting (aFrame .poll 1) 30).chip.onScreen (posOf 1 2) fun x =>
      { x with autoBlanked := true, remembered := some .normal, mode := ⟨.blanked, 0, 23⟩ } }, by decide +kernel⟩

/-- The status row of screen 5 being written, with work waiting. -/
def rendering (burst : Nat) (work : List ScuWork) : State := answering rSCU (.write 0 []) (.scuStatus 5 burst)
  (calmOn fun c => ({ c with scu := { c.scu with serving := some (.status 5), work := work } } : Chip))

theorem witness_StatusRowsRender_bursts : (rendering 4 [.count 6]).prompt = false ∧
    (rendering 4 [.count 6]).arb.port = .own rSCU (.write 0 []) (.scuStatus 5 4) false ∧ (rendering 4 [.count 6]).chip.scu.work = [.count 6] ∧
    (rendering 4 [.count 6]).chip.screenPresent 6 = true ∧ (rendering 3 []).chip.scu.work = [] ∧
    (rendering 4 [.status 7]).chip.scu.work = [.status 7] ∧ (rendering 4 [.mode 5 true]).chip.scu.work = [.mode 5 true] := by decide +kernel

/-- Printer 2 composing the record of its request, a day of records 1 to 6. -/
def composing (u : Fin 9) (op : StoreOp) (tag : Tag) (m : List Host.Cell) : State :=
  { answering u op tag (calmOn fun c => ((c.onPrinter 2 fun x => { x with state := .striking, service := some aService, composing := true }).onCu
      fun x => { x with day := { x.day with first := 1 } }).onJu fun j => { j with nextSeq := 7 }) with mem := m }

theorem witness_StrikesRun_records :
    let void := ringRecord { walkedVoid with seq := 1 }
    let cash := ringRecord voidedCash
    let s₁ := composing rJU (.read 0 4 4) (.recordB (.strike 2 0) 1 (void.take 8)) (writeWords [] 0 (void.drop 8 |>.map whole))
    let s₂ := composing rJU (.read 0 4 4) (.originalB (.strike 2 0) void 2 (cash.take 8)) (writeWords [] 0 (cash.drop 8 |>.map whole))
    let s₃ := composing rJU (.read 0 4 4) (.recordB (.strike 2 0) 1 (cash.take 8)) []
    s₁.prompt = false ∧ (s₁.chip.printer 2).service = some aService ∧ (s₁.chip.printer 2).epoch = 0 ∧ aService.entry.seq = 1 ∧
    (recordOfWords (void.take 8 ++ readWords s₁.mem 0 4 4)).seq = 1 ∧ (recordOfWords (void.take 8 ++ readWords s₁.mem 0 4 4)).code = 8 ∧
    stampStatus (wordAt (void.take 8 ++ readWords s₁.mem 0 4 4) 11) ≠ .free ∧
    (after (.storeAnswer true) s₁).chip.own[rJU.val] = [⟨.read (s₁.chip.ringAddr 2 0) 4 8, .originalA (.strike 2 0) void 2, false⟩] ∧
    (recordOfWords (cash.take 8 ++ readWords s₂.mem 0 4 4)).seq = 2 ∧ stampStatus (wordAt (cash.take 8 ++ readWords s₂.mem 0 4 4) 11) ≠ .free ∧
    (recordOfWords (cash.take 8 ++ readWords s₃.mem 0 4 4)).seq ≠ 1 ∧
    (after (.storeAnswer true) s₃).chip.slotStatus 2 aService.entry.slot = .aborted Reason.storeError.code := by decide +kernel
theorem witness_StrikesRun_failed :
    (composing rJU (.read 0 4 8) (.recordA (.strike 2 0) 1) []).arb.port = .own rJU (.read 0 4 8) (.recordA (.strike 2 0) 1) false ∧
    (composing rJU (.read 0 4 8) (.originalA (.strike 2 0) [] 2) []).arb.port = .own rJU (.read 0 4 8) (.originalA (.strike 2 0) [] 2) false ∧
    (composing rPRU (.read 0 4 8) (.textRead 2 1 0 []) []).arb.port = .own rPRU (.read 0 4 8) (.textRead 2 1 0 []) false ∧
    (∀ left, (calm.chip.printer 2).head ≠ .awaiting (left + 1)) ∧ ∃ s : State, (s.chip.printer 2).service = some { aService with entry := { anEntry with seq := 0 } } ∧
      s.arb.port = .own rPRU (.read 0 4 8) (.textRead 2 1 0 []) false :=
  ⟨by decide +kernel, by decide +kernel, by decide +kernel,
   (fun left h => by rw [show (calm.chip.printer 2).head = .idle by decide +kernel] at h; cases h),
   answering rPRU (.read 0 4 8) (.textRead 2 1 0 []) (printing fun x => { x with service := some { aService with entry := { anEntry with seq := 0 } } }),
   by decide +kernel⟩

/-- A request in progress, with an access of a unit answered. -/
def requested (code : Nat) (u : Fin 9) (op : StoreOp) (tag : Tag) (m : List Host.Cell) : State :=
  { answering u op tag (calmOn fun c => (c.onSu fun x => { x with request := some code }).onAp fun a => { a with
      host := some ⟨.write 0x100 [whole (wd code)], 0, [], some .setup, 0, true, .heldOwner (.request code)⟩ }) with mem := m }

theorem witness_DayRequestsServed_cleared :
    (requested 3 rSU (.write 0 []) (.dayCrc .clearStore) []).chip.su.request = some 3 ∧
    (requested 3 rSU (.write 0 []) (.dayCrc .clearStore) []).arb.port = .own rSU (.write 0 []) (.dayCrc .clearStore) false ∧
    (requested 3 rSU (.write 0 []) (.dayCrc .clearStore) []).chip.windowEnabled .totals = true ∧
    (requested 3 rCU (.write 0 []) (.mirror 12 3 .clearSlots) []).arb.port = .own rCU (.write 0 []) (.mirror 12 3 .clearSlots) false ∧
    (requested 3 rCU (.write 0 []) (.mirror 12 3 .clearSlots) []).chip.ap.journalUsable = true ∧
    (requested 3 rCU (.write 0 []) (.running 1 .clearSlots) []).arb.port = .own rCU (.write 0 []) (.running 1 .clearSlots) false ∧
    (requested 3 rJU (.write 0 []) (.slotEmpty true) []).arb.port = .own rJU (.write 0 []) (.slotEmpty true) false ∧
    (requested 3 rJU (.write 0 []) (.slotEmpty false) []).arb.port = .own rJU (.write 0 []) (.slotEmpty false) false ∧
    ∃ s : State, s.HostFree ∧ s.chip.cu.day.state = .sent ∧ s.chip.cu.damage = [] ∧ (s.chip.drawerOf 3).excess = true :=
  ⟨by decide +kernel, by decide +kernel, by decide +kernel, by decide +kernel, by decide +kernel, by decide +kernel, by decide +kernel,
   by decide +kernel, calmOn fun c => (inDay .sent c).onCu fun u => { u with drawers := vupd u.drawers 3 fun d => { d with excess := true } },
   free_of (by decide +kernel), by decide +kernel, by decide +kernel, by decide +kernel⟩
theorem witness_LinkResetAndBadRequests_ends :
    (requested 9 rSU (.read 0 4 2) (.operands 9) [(4, 3)]).prompt = false ∧
    (requested 9 rSU (.read 0 4 2) (.operands 9) [(4, 3)]).chip.su.request = some 9 ∧
    (requested 9 rSU (.read 0 4 2) (.operands 9) [(4, 3)]).arb.port = .own rSU (.read 0 4 2) (.operands 9) false ∧
    field (readWord (requested 9 rSU (.read 0 4 2) (.operands 9) [(4, 3)]).mem 4) 0 2 = 3 ∧
    3 < (readWord (requested 5 rSU (.read 0 4 2) (.operands 5) [(0, 4)]).mem 0).toNat ∧
    (readWord (requested 9 rSU (.read 0 4 2) (.operands 9) [(4, 8)]).mem 4) &&& 0x001F1F07 ≠
      readWord (requested 9 rSU (.read 0 4 2) (.operands 9) [(4, 8)]).mem 4 ∧
    2 < (readWord (requested 11 rSU (.read 0 4 2) (.operands 11) [(0, 3)]).mem 0).toNat ∧
    readWord (requested 12 rSU (.read 0 4 2) (.operands 12) [(7, 1)]).mem 4 ≠ 0 ∧
    (requested 12 rSU (.write 0 []) (.result true) []).arb.port = .own rSU (.write 0 []) (.result true) false ∧
    (requested 12 rSU (.write 0 []) (.result false) []).chip.ap.host.isSome = true := by decide +kernel

theorem witness_PostingSteps_errors : ∃ s₁ s₂ : State, s₁.prompt = false ∧ s₁.chip.ju.posting = some (aPosting 3) ∧
    s₁.arb.port = .own rJU (.write 0 []) (.post .word0) false ∧ s₂.chip.ju.posting = some (aPosting 3) ∧
    s₂.arb.port = .own rJU (.write 0 []) (.post .outcome) false :=
  ⟨posting (aPosting 3) (.write 0 []) .word0 [] id, posting (aPosting 3) (.write 0 []) .outcome [] id, by decide +kernel⟩

/-- An anchor part's last burst answered, one before it having failed. -/
def anchoring (a : After) (f : Chip → Chip) : State :=
  answering rCU (.write 0xA0 []) (.anchor 3 a) (calmOn fun c => f (c.onCu fun u => { u with anchorBad := true }))

theorem witness_RecordsWritten_failed : (anchoring .nothing id).prompt = false ∧ (anchoring .nothing id).chip.cu.anchorBad = true ∧
    (anchoring .nothing id).arb.port = .own rCU (.write 0xA0 []) (.anchor 3 .nothing) false ∧ (anchoring .nothing id).chip.su.reports.length + 2 ≤ 16 ∧
    (anchoring .clearStore id).arb.port = .own rCU (.write 0xA0 []) (.anchor 3 .clearStore) false ∧
    (∃ s : State, s.arb.port = .own rCU (.write 0xA0 []) (.anchor 3 .posting) false ∧ s.chip.ju.posting = some (handed 1 none) ∧
      s.chip.cu.anchorBad = true) ∧
    ∃ s : State, s.arb.port = .own rCU (.write 0xA0 []) (.anchor 3 .rebuild) false ∧ s.chip.cu.anchorBad = true ∧
      s.chip.cu.walk = some ⟨5, 4, .finishing, false, false⟩ ∧ s.chip.scu.serving = none ∧ s.chip.scu.work = [] :=
  ⟨by decide +kernel, by decide +kernel, by decide +kernel, by decide +kernel, by decide +kernel,
   ⟨anchoring .posting fun c => c.onJu fun j => { j with posting := some (handed 1 none) }, by decide +kernel⟩,
   anchoring .rebuild fun c => c.onCu fun u => { u with walk := some ⟨5, 4, .finishing, false, false⟩ }, by decide +kernel⟩
theorem witness_RebuildWalks_repair :
    (walkReads walkedCash (.walkRepair 2)).chip.cu.walk = some ⟨5, 4, .reading, false, false⟩ ∧
    (walkReads walkedCash (.walkRepair 2)).arb.port = .own rCU (.read 0 4 4) (.walkRepair 2) false := by decide +kernel

theorem witness_ScreenRequestsServed_remembered : ∃ s : State, s.Alone ∧ (s.chip.screen 0).autoBlanked = true ∧
    (s.chip.screen 0).askedPlain = false ∧ s.chip.screenPresent 0 = true ∧ s.chip.SetupWord 0x100 ∧
    s.chip.OperandsAre s.mem (wd (0 : Fin 12).val) (wd (ModeKind.normal.code + 4 * flagBit false + 256 * (0 : Fin 32).val + 65536 * (0 : Fin 32).val)) :=
  ⟨calmOn fun c => c.onScreen 0 fun x => { x with autoBlanked := true, mode := ⟨.blanked, 0, 23⟩ },
   alone_of (by decide +kernel) (by decide +kernel), by decide +kernel, by decide +kernel, by decide +kernel, setup_of (by decide +kernel),
   by decide +kernel, by decide +kernel⟩

theorem witness_LinkFramesHeard_threshold : ∃ s : State, s.prompt = false ∧ s.chip.hlc.link = .up ∧ s.chip.LineError (.invalidFrame [0x7D]) ∧
    s.chip.LineError (.ack 200) ∧ s.chip.LineError (.accepted 5) ∧ s.chip.linkSet .errThreshold ≤ min 15 (s.chip.hlc.errors + 1) ∧
    s.chip.hlc.send = some aSend ∧ s.chip.su.reports.length < 16 := by
  have h : (linked fun h => { h with link := .up, errors := 15, send := some aSend }).chip.hlc.send = some aSend := by decide +kernel
  refine ⟨linked fun h => { h with link := .up, errors := 15, send := some aSend }, by decide +kernel, by decide +kernel,
    .inl ⟨[0x7D], by decide, by decide, by decide +kernel, rfl⟩, .inr (.inl ⟨200, fun x hx => ?_, .inl rfl⟩),
    .inr (.inr ⟨5, fun x hx => ?_, rfl⟩), by decide +kernel, h, by decide +kernel⟩ <;>
  rw [h] at hx <;> cases hx <;> decide
theorem witness_SendsEnd_idle : calm.prompt = false ∧ calm.chip.hlc.link = .down ∧ (linked fun h => { h with link := .up }).chip.hlc.link = .up ∧
    (linked fun h => { h with link := .up }).chip.hlc.send = none ∧
    (linked fun h => { h with link := .calling, send := some { aSend with state := .awaitVerdict } }).chip.hlc.link = .calling ∧
    (linked fun h => { h with link := .calling, send := some { aSend with state := .awaitVerdict } }).chip.hlc.send =
      some { aSend with state := .awaitVerdict } ∧
    ∃ s : State, s.chip.hlc.link = .up ∧ ∀ x, s.chip.hlc.send = some x → x.state = .suspended :=
  ⟨by decide +kernel, by decide +kernel, by decide +kernel, by decide +kernel, by decide +kernel, by decide +kernel,
   linked fun h => { h with link := .up, send := some { aSend with state := .suspended } }, by decide +kernel,
   fun x h => by cases (show some { aSend with state := SendState.suspended } = some x from h); decide⟩

end Sys2Proof.Tests
end

section
/-! PROOF. Every step keeps the store canonical and the host streak at most 4 (O4). -/

namespace Sys2Proof.Machine

/-- An answered access keeps the canonical form. -/
theorem memWf_answered (op : StoreOp) (m : List Host.Cell) (okay : Bool) (h : memWf m = true) :
    memWf (op.answered m okay) = true := by
  unfold StoreOp.answered
  split
  · cases op with
    | read addr stride len => exact h
    | write addr words => exact memWf_writeWords m addr words h
  · exact h

/-- A write cut short by device reset keeps the canonical form. -/
theorem memWf_abandoned (port : PortUse) (k : Nat) (m : List Host.Cell) (h : memWf m = true) :
    memWf (port.abandoned k m) = true := by
  unfold PortUse.abandoned
  split
  · exact h
  · exact memWf_writeWords m _ _ h
  · exact memWf_writeWords m _ _ h
  · exact h

/-- A host grant raises the streak only from below 4; an own grant clears it (R15). -/
theorem State.Safe.grant {s : State} (h : s.Safe) : s.grant.Safe := by
  obtain ⟨hmem, hstreak⟩ := h
  obtain hg | ⟨-, p, op, w, -, hw, hg⟩ | ⟨-, u, r, -, hg⟩ := s.grant_cases <;> rw [hg]
  · exact ⟨hmem, hstreak⟩
  · refine ⟨hmem, ?_⟩
    show (if w then s.arb.streak + 1 else s.arb.streak) ≤ 4
    split
    · next hw1 => exact hw hw1
    · exact hstreak
  · exact ⟨hmem, Nat.zero_le 4⟩

/-- An answer makes at most the access's own write and leaves the streak. -/
theorem State.Safe.answer {s : State} (h : s.Safe) (okay : Bool) : (s.answer okay).Safe := by
  obtain ⟨hmem, hstreak⟩ := h
  unfold State.answer
  split
  · exact ⟨hmem, hstreak⟩
  · next op _ =>
    obtain ⟨q, hq⟩ := State.afterHost_eq
      { s with mem := op.answered s.mem okay, chip := s.chip.hostAnswered (op.answered s.mem okay) okay (op.data s.mem) }
    rw [hq]
    exact ⟨memWf_answered op s.mem okay hmem, hstreak⟩
  · next op _ _ _ => exact ⟨memWf_answered op s.mem okay hmem, hstreak⟩

/-- What a grant and an OKAY answer keep, draining keeps. -/
theorem State.drain_keeps {P : State → Prop} (hp : ∀ s, P s → P (s.grant.answer true)) (fuel : Nat) {s : State} (h : P s) :
    P (s.drain fuel) := by
  induction fuel generalizing s with
  | zero => exact h
  | succ n ih =>
    unfold State.drain
    split
    · exact h
    · exact ih (hp s h)

/-- What a grant and an OKAY answer keep, settling keeps. -/
theorem State.settle_keeps {P : State → Prop} (hp : ∀ s, P s → P (s.grant.answer true)) {s : State} (h : P s) : P s.settle := by
  unfold State.settle
  split
  · exact State.drain_keeps hp drainFuel h
  · exact h

/-- Settling keeps a safe state. -/
theorem State.Safe.settle {s : State} (h : s.Safe) : s.settle.Safe :=
  State.settle_keeps (fun _ hs => hs.grant.answer true) h

/-- A command of the part keeps a safe state, whatever it does to the part. -/
theorem State.Safe.act {s : State} (h : s.Safe) (f : Chip → Chip) : (s.act f).Safe :=
  State.Safe.settle (s := s.settle.onChip f) h.settle

/-- Every command keeps a safe state. -/
theorem State.Safe.exec {s t : State} (h : s.Safe) (i : Instr) (ht : exec i s = .next t) : t.Safe := by
  by_cases hi : portCommand i = false
  · obtain ⟨f, hf⟩ := exec_is_host i hi
    rw [hf] at ht
    cases ht
    exact h.act _
  · cases i
    case deviceReset sel =>
      cases ht
      exact State.Safe.settle (s := s.deviceReset sel) ⟨memWf_abandoned _ _ _ h.1, Nat.zero_le 4⟩
    case arbiterGrant =>
      cases ht
      exact State.Safe.grant (s := s.stall) h
    case storeAnswer okay =>
      cases ht
      exact State.Safe.answer (s := s.stall) h okay
    all_goals exact absurd rfl hi

/-- Settles O4: grants, answers and device reset keep the two bounds, and every other command acts on the part alone. -/
theorem stepKeepsSafe : Obligations.StepKeepsSafe := by
  intro s t h ht
  unfold step at ht
  split at ht
  · next i rest _ => exact State.Safe.exec (s := { s with pending := rest }) h i ht
  · cases ht
    exact h.act _

end Sys2Proof.Machine
end

section
/-! PROOF. The prompt store and device reset (O12, O16). -/

namespace Sys2Proof.Machine

/-! ### The prompt store -/

/-- A command other than the three that reset the part or work the store port. -/
theorem portCommand_eq_false {i : Instr} (hg : i ≠ .arbiterGrant) (ha : ∀ b, i ≠ .storeAnswer b) (hr : ∀ x, i ≠ .deviceReset x) :
    portCommand i = false := by
  unfold portCommand
  split
  · exact absurd rfl (hr _)
  · exact absurd rfl hg
  · exact absurd rfl (ha _)
  · rfl

/-- With a store that is not prompt, a command of the controller port changes the part alone, which sees the store as it is. -/
theorem State.host_of_not_prompt (s : State) (f : List Host.Cell → Chip → Chip) (h : s.prompt = false) :
    s.host f = { s with chip := f s.mem s.chip } := by
  rw [State.host, State.settle_of_not_prompt s h, State.act_of_not_prompt s _ h]

/-- With a prompt store, a command of the controller port settles, changes the part, and settles. -/
theorem State.host_of_prompt (s : State) (f : List Host.Cell → Chip → Chip) (h : s.prompt = true) :
    s.host f = ({ ({ s.settle with prompt := false } : State).host f with prompt := true }).settle := by
  have hp : s.settle.prompt = true := by rw [State.settle_prompt, h]
  rw [State.host_of_not_prompt { s.settle with prompt := false } f rfl]
  show (s.settle.onChip (f s.settle.mem)).settle = _
  congr 1
  show _ = { s.settle with chip := f s.settle.mem s.settle.chip, prompt := true }
  rw [← hp]
  rfl

/-- Settles O12: but for the three commands of the port, a command is one function of the store and the part. -/
theorem promptStoreDrains : Obligations.PromptStoreDrains := by
  intro s i hg ha hr
  obtain ⟨f, hf⟩ := exec_is_host i (portCommand_eq_false hg ha hr)
  constructor
  · intro hp
    exact ⟨_, hf _, by rw [hf, State.host_of_prompt s f hp]⟩
  · intro hp
    refine ⟨_, hf s, ?_⟩
    rw [State.host_of_not_prompt s f hp]
    exact ⟨rfl, rfl, rfl, rfl⟩

/-! ### Device reset -/

/-- A burst leaves alone every byte that none of its words covers. -/
theorem readByte_writeWords_ne (m : List Host.Cell) (a b : Nat) (ws : List WriteWord)
    (h : ∀ k < 4 * ws.length, b ≠ wrapAddr (a + k)) : readByte (writeWords m a ws) b = readByte m b := by
  induction ws generalizing m a with
  | nil => rfl
  | cons w rest ih =>
    rw [List.length_cons] at h
    rw [writeWords, ih _ _ fun k hk => by rw [Nat.add_assoc]; exact h _ (by omega)]
    exact readByte_writeWord_ne _ _ _ _ fun i hi _ => h i (by omega)

/-- A write cut short by device reset leaves alone every byte outside the write (R13). -/
theorem readByte_abandoned (port : PortUse) (k b : Nat) (m : List Host.Cell)
    (h : ∀ addr ws, port.writing = some (addr, ws) → ∀ j < 4 * ws.length, b ≠ wrapAddr (addr + j)) :
    readByte (port.abandoned k m) b = readByte m b := by
  have burst : ∀ addr ws, port.writing = some (addr, ws) → ∀ n, readByte (writeWords m addr (ws.take n)) b = readByte m b := by
    intro addr ws hw n
    refine readByte_writeWords_ne _ _ _ _ fun j hj => h addr ws hw j ?_
    have := List.length_take_le' n ws
    omega
  unfold PortUse.abandoned
  split
  · rfl
  · exact burst _ _ rfl _
  · exact burst _ _ rfl _
  · rfl

/-- Settles O16: the reset state field by field, and the bytes outside an abandoned write. -/
theorem deviceResets : Obligations.DeviceResets := by
  intro s sel hp
  refine ⟨s.deviceReset sel, ?_, rfl, rfl, Nat.mul_comm _ _, rfl, rfl, rfl, ?_, rfl, rfl, ?_⟩
  · show Host.Outcome.next (s.deviceReset sel).settle = _
    rw [State.settle_of_not_prompt (s.deviceReset sel) hp]
  · intro u
    show (vput (Vector.replicate 9 []) 8 (loadingAccesses (sel.val * 4096 * 4096)))[u.val] = _
    rw [vput_get, Nat.mul_assoc, Nat.mul_comm]
    by_cases hu : u = rSU
    · subst hu; rfl
    · rw [if_neg hu, if_neg (fun e => hu (Fin.ext e.symm)), Vector.getElem_replicate]
  · exact fun b hb => readByte_abandoned _ _ b _ hb

end Sys2Proof.Machine
end

section
/-! PROOF. The state right after device reset, and that every invariant holds there (O3). -/

namespace Sys2Proof.Machine

/-- Right after device reset only loading accesses wait. -/
theorem tags_reset : ∀ tag ∈ State.reset.tags, tag ∈ [Tag.loadIdent, .loadSettings, .loadDay, .loadIndex] := by
  decide +kernel

/-- An own access of another kind does not wait right after device reset. -/
theorem not_mem_tags_reset {tag : Tag} (h : tag ∉ [Tag.loadIdent, .loadSettings, .loadDay, .loadIndex]) :
    tag ∉ State.reset.tags := fun hm => h (tags_reset tag hm)

/-- No posting access waits right after device reset. -/
theorem ofPosting_reset : State.reset.tags.filter Tag.ofPosting = [] := by decide +kernel

/-- No submission access waits right after device reset. -/
theorem ofSubmission_reset : State.reset.tags.filter Tag.ofSubmission = [] := by decide +kernel

theorem safe_reset : State.reset.Safe := ⟨rfl, Nat.zero_le 4⟩

theorem bridgesSafe_reset : State.reset.BridgesSafe := by
  intro n
  have h : ∀ n : Fin 4, (State.reset.chip.feed n).aHi = .reset ∧ (State.reset.chip.feed n).bHi = .reset := by decide
  obtain ⟨ha, hb⟩ := h n
  refine ⟨fun hx => ?_, fun hx => ?_⟩
  · rw [ha] at hx; exact absurd hx.1 (by simp [Output.engaged, Output.reset])
  · rw [hb] at hx; exact absurd hx.1 (by simp [Output.engaged, Output.reset])

theorem oneHold_reset : State.reset.OneHold where
  posting h := absurd rfl h
  submission h := absurd rfl h
  request h := absurd rfl h
  walk h := absurd rfl h
  send h := absurd rfl h
  loading _ := ⟨rfl, fun p hp => by cases hp⟩
  released h := absurd h (not_mem_tags_reset (by decide))
  operands code h := absurd h (not_mem_tags_reset (by simp))

theorem settled_reset : State.reset.chip.Settled := fun _ hf => absurd hf (by decide)

theorem inRange_zero : Sum.zero.InRange := ⟨Nat.zero_le _, by decide⟩

theorem cashInRange_reset : State.reset.CashInRange where
  drawers i x hx := by
    have h : ∀ i : Fin 13, ∀ x ∈ [(State.reset.chip.drawer i).cashIn, (State.reset.chip.drawer i).cashOut,
      (State.reset.chip.drawer i).noncashIn, (State.reset.chip.drawer i).noncashOut, (State.reset.chip.drawer i).transferIn,
      (State.reset.chip.drawer i).transferOut], x = .zero := by decide
    exact h i x hx ▸ inRange_zero
  day x hx := by
    have h : ∀ x ∈ [State.reset.chip.cu.day.cashIn, State.reset.chip.cu.day.cashOut, State.reset.chip.cu.day.noncashIn,
      State.reset.chip.cu.day.noncashOut], x = .zero := by decide
    exact h x hx ▸ inRange_zero
  hash := by decide
  difference := by decide

theorem countsBounded_reset : State.reset.CountsBounded where
  toOneHold := oneHold_reset
  counts := by decide
  declared i x hx := by
    have h : ∀ i : Fin 13, (State.reset.chip.drawer i).declared = none := by decide
    rw [h i] at hx
    cases hx
  one := by rw [ofPosting_reset]; exact Nat.zero_le 1
  calm _ := ofPosting_reset
  running po hpo := by cases hpo
  handed po hpo := by cases hpo
  applying po hpo := by cases hpo

theorem printsDistinct_reset : State.reset.PrintsDistinct where
  toOneHold := oneHold_reset
  distinct := by decide
  frozen _ := by decide
  one := by rw [ofSubmission_reset]; exact Nat.zero_le 1
  calm _ := ofSubmission_reset
  accepted b hb := by cases hb

theorem sendOrdered_reset : State.reset.SendOrdered where
  toOneHold := oneHold_reset
  indices x hx := by cases hx
  window x hx := by cases hx
  resend x i hx := by cases hx
  recent x hx := by cases hx
  setting _ _ _ _ _ _ _ _ := rfl

theorem releasesGated_reset : State.reset.ReleasesGated where
  toOneHold := oneHold_reset
  active p hp := by
    have h : ∀ p : Fin 12, State.reset.chip.drwrel p = false := by decide
    rw [h p] at hp
    cases hp
  asking l d f hf := by
    have h : ∀ l : Fin 3, (State.reset.chip.line l).use = .free := by decide
    rw [h l] at hf
    cases hf
  resent p f hf := by
    have h : ∀ p : Fin 12, (State.reset.chip.drop p).resend = none := by decide
    rw [h p] at hf
    cases hf

/-- Settles O3: the reset values are evaluated unit by unit; each invariant is one of the lemmas above. -/
theorem resetValues : Obligations.ResetValues :=
  ⟨by decide, rfl, rfl, rfl, rfl, rfl, rfl, rfl, rfl, rfl, rfl, rfl, rfl, by decide, by decide +kernel, by decide, by decide,
    by decide, rfl, rfl, rfl, safe_reset, bridgesSafe_reset, oneHold_reset, settled_reset, cashInRange_reset,
    countsBounded_reset, printsDistinct_reset, sendOrdered_reset, releasesGated_reset⟩

end Sys2Proof.Machine
end

section
/-! PROOF. The store port: who is granted, and what an answer does (O19). -/

namespace Sys2Proof.Machine

/-! ### The first waiting requester -/

/-- The requester at place `k` of the rotation from `u` on. -/
theorem requestersAfter_getElem (u : Fin 9) (k : Nat) (hk : k < 9) :
    ((requestersAfter u)[k]? = some ⟨(u.val + 1 + k) % 9, Nat.mod_lt _ (by decide)⟩) := by
  revert u k
  decide

/-- Every own requester has its turn in the rotation. -/
theorem mem_requestersAfter (u v : Fin 9) : v ∈ requestersAfter u := by
  revert u v
  decide

/-- The search takes the first requester of the list that waits, and its oldest access. -/
theorem firstWaiting_eq_some {own : Vector (List OwnReq) 9} {us : List (Fin 9)} {u : Fin 9} {r : OwnReq}
    (h : firstWaiting own us = some (u, r)) :
    ∃ k : Nat, ∃ rest, us[k]? = some u ∧ own[u.val] = r :: rest ∧ ∀ j < k, ∀ v, us[j]? = some v → own[v.val] = [] := by
  induction us with
  | nil => cases h
  | cons x xs ih =>
    rw [firstWaiting] at h
    split at h
    · next r' rest hx =>
      obtain ⟨rfl, rfl⟩ : x = u ∧ r' = r := by simpa using h
      exact ⟨0, rest, rfl, hx, fun j hj => absurd hj (Nat.not_lt_zero j)⟩
    · next hx =>
      obtain ⟨k, rest, hk, hr, hbefore⟩ := ih h
      refine ⟨k + 1, rest, hk, hr, fun j hj v hv => ?_⟩
      cases j with
      | zero =>
        obtain rfl : x = v := by simpa using hv
        exact hx
      | succ j => exact hbefore j (by omega) v hv

/-- The search fails when none of the list waits. -/
theorem firstWaiting_eq_none {own : Vector (List OwnReq) 9} {us : List (Fin 9)} :
    firstWaiting own us = none ↔ ∀ u ∈ us, own[u.val] = [] := by
  induction us with
  | nil => simp [firstWaiting]
  | cons x xs ih =>
    rw [firstWaiting]
    split
    · next hx => simp [hx]
    · next hx => simp [hx, ih]

/-- The rotation finds nobody exactly when no unit waits. -/
theorem firstWaiting_rotation_eq_none {c : Chip} {u : Fin 9} :
    firstWaiting c.waiting (requestersAfter u) = none ↔ c.NoneWaits := by
  rw [firstWaiting_eq_none]
  exact ⟨fun h v => h v (mem_requestersAfter u v), fun h v _ => h v⟩

/-! ### A grant -/

/-- A port in use grants nobody. -/
theorem State.grant_of_busy {s : State} (h : s.arb.port ≠ .idle) : s.grant = s := by
  unfold State.grant
  rw [if_pos (by simpa using h)]

/-- A free port with nobody waiting grants nobody. -/
theorem State.grant_of_none {s : State} (hh : s.chip.hostWaiting = none) (hn : s.chip.NoneWaits) : s.grant = s := by
  unfold State.grant
  rw [hh, firstWaiting_rotation_eq_none.mpr hn]
  split <;> rfl

/-- The host is granted while its streak is below 4 or no unit waits; the streak goes up past a waiting unit (R15). -/
theorem State.grant_of_host {s : State} {p : HostProg} {op : StoreOp} (hp : s.arb.port = .idle)
    (hh : s.chip.hostWaiting = some (p, op)) (hs : s.arb.streak < 4 ∨ s.chip.NoneWaits) :
    ∃ b : Bool, (b = false ↔ s.chip.NoneWaits) ∧ s.grant = s.grantHost p op b := by
  unfold State.grant
  rw [hp, hh]
  cases hf : firstWaiting s.chip.waiting (requestersAfter s.arb.rotation) with
  | none => exact ⟨false, by simp [firstWaiting_rotation_eq_none.mp hf], rfl⟩
  | some q =>
    have hn : ¬ s.chip.NoneWaits := fun hn => by rw [firstWaiting_rotation_eq_none.mpr hn] at hf; cases hf
    refine ⟨true, by simp [hn], ?_⟩
    simp only [bne_self_eq_false, Bool.false_eq_true, if_false, if_pos (hs.resolve_right hn)]

/-- A unit is granted when the host does not wait or has had its four grants (R15, R16). -/
theorem State.grant_of_own {s : State} (hp : s.arb.port = .idle) (hn : ¬ s.chip.NoneWaits)
    (hs : s.chip.hostWaiting = none ∨ 4 ≤ s.arb.streak) :
    ∃ u r, firstWaiting s.chip.waiting (requestersAfter s.arb.rotation) = some (u, r) ∧ s.grant = s.grantOwn u r := by
  cases hf : firstWaiting s.chip.waiting (requestersAfter s.arb.rotation) with
  | none => exact absurd (firstWaiting_rotation_eq_none.mp hf) hn
  | some q =>
    refine ⟨q.1, q.2, rfl, ?_⟩
    unfold State.grant
    rw [hp, hf]
    cases hh : s.chip.hostWaiting with
    | none => rfl
    | some x =>
      have h4 : ¬ s.arb.streak < 4 := Nat.not_lt.mpr (hs.resolve_left (by rw [hh]; exact Option.some_ne_none x))
      simp only [bne_self_eq_false, Bool.false_eq_true, if_false, if_neg h4]

/-! ### The commands of the port -/

/-- With a store that is not prompt, ARBITER_GRANT is a grant. -/
theorem exec_arbiterGrant (s : State) (h : s.prompt = false) : exec .arbiterGrant s = .next s.grant := by
  show Host.Outcome.next s.stall.grant = _
  rw [show s.stall = s by rw [State.stall, ← h]]

/-- With a store that is not prompt, STORE_ANSWER is an answer. -/
theorem exec_storeAnswer (s : State) (okay : Bool) (h : s.prompt = false) : exec (.storeAnswer okay) s = .next (s.answer okay) := by
  show Host.Outcome.next (s.stall.answer okay) = _
  rw [show s.stall = s by rw [State.stall, ← h]]

/-- The answer to an own access: its unit acts, and the port is free (R17). -/
theorem State.answer_of_own {s : State} {u : Fin 9} {op : StoreOp} {tag : Tag} {fin : Bool}
    (h : s.arb.port = .own u op tag fin) (okay : Bool) :
    s.answer okay = { s with
      mem := op.answered s.mem okay
      chip := (let c := s.chip.ownAnswered (op.answered s.mem okay) u tag okay op.addr (op.data s.mem)
        if fin then c.requestDone else c)
      arb := { s.arb with port := .idle } } := by
  unfold State.answer
  rw [h]

/-- The answer to a host access: the access goes on under the same grant, or the port is free (R15). -/
theorem State.answer_of_host {s : State} {op : StoreOp} (h : s.arb.port = .host op) (okay : Bool) :
    s.answer okay = State.afterHost { s with
      mem := op.answered s.mem okay
      chip := s.chip.hostAnswered (op.answered s.mem okay) okay (op.data s.mem) } := by
  unfold State.answer
  rw [h]

/-- After a host answer the port makes the access's next store access if it is granted and has one, and is free otherwise. -/
theorem State.afterHost_port (s : State) :
    s.afterHost.arb.port = .idle ∨ ∃ p op, s.chip.ap.host = some p ∧ p.granted = true ∧ p.nextOp = some op ∧
      s.afterHost = { s with arb := { s.arb with port := .host op } } := by
  unfold State.afterHost
  split
  · next p hp =>
    split
    · next op hg hn => exact .inr ⟨p, op, hp, hg, hn, rfl⟩
    · exact .inl rfl
  · exact .inl rfl

/-- An access that is passed over: a half of the running part that is no longer stale (R79). -/
def Chip.passedOver (c : Chip) (r : OwnReq) : Bool :=
  match r.op with
  | .staleRunning _ => !c.cu.runningStale
  | _ => false

/-- The accesses that wait are those asked for, but for the ones passed over at the head of CU's. -/
theorem Chip.waiting_eq (c : Chip) : c.waiting = vupd c.own rCU (·.dropWhile c.passedOver) := by
  unfold Chip.waiting
  rfl

/-- Only CU's accesses are ever passed over. -/
theorem Chip.waiting_of_ne (c : Chip) {u : Fin 9} (h : u ≠ rCU) : c.waiting[u.val] = c.own[u.val] := by
  rw [Chip.waiting_eq, vupd_get_ne _ _ _ _ h]

/-- CU's accesses that wait. -/
theorem Chip.waiting_cu (c : Chip) : c.waiting[rCU.val] = (c.own[rCU.val] : List OwnReq).dropWhile c.passedOver := by
  rw [Chip.waiting_eq, vupd_get_same]

/-- While the running part is stale none of its halves is passed over. -/
theorem Chip.passedOver_of_stale {c : Chip} (h : c.cu.runningStale = true) (r : OwnReq) : c.passedOver r = false := by
  unfold Chip.passedOver
  rw [h]
  split <;> rfl

/-- Otherwise they are, and nothing else is. -/
theorem Chip.passedOver_of_not_stale {c : Chip} (h : c.cu.runningStale = false) (r : OwnReq) :
    c.passedOver r = true ↔ ∃ half, r.op = .staleRunning half := by
  obtain ⟨op, tag, fin⟩ := r
  cases op <;> simp [Chip.passedOver, h]

/-- A grant tells SCU at most that a row's read has begun (R101). -/
theorem Chip.grantHook_only (c : Chip) (tag : Tag) : c.Only [.scu] (c.grantHook tag) := by
  unfold Chip.grantHook
  split
  · split
    · constructor <;> simp
    · constructor <;> simp
  · constructor <;> simp

/-! ### The statement -/

/-- Which accesses wait, and what the CRC words are as they are granted. -/
theorem waiting_and_crcs (c : Chip) : (∀ u : Fin 9, u ≠ rCU → c.waiting[u.val] = c.own[u.val]) ∧
    (c.cu.runningStale = true → c.waiting[rCU.val] = c.own[rCU.val]) ∧
    (c.cu.runningStale = false → ∃ past, c.own[rCU.val] = past ++ c.waiting[rCU.val] ∧
      (∀ r ∈ past, ∃ half, r.op = .staleRunning half) ∧
      ∀ r half, (c.waiting[rCU.val] : List OwnReq).head? = some r → r.op ≠ .staleRunning half) ∧
    c.resolveOp .settingsCrc = .write (c.setupAddr 0x5FC) [whole (wd (crc16 (wordsBytes c.su.image.toList)))] ∧
    c.resolveOp .dayCrc = .write (c.setupAddr 0x0BC) [whole (wd (crc16 (wordsBytes c.cu.day.anchorWords)))] := by
  refine ⟨fun u => c.waiting_of_ne, fun hs => ?_, fun hs => ?_, rfl, rfl⟩
  · rw [c.waiting_cu, List.dropWhile_eq_self_iff.mpr]
    exact fun _ => by simp [Chip.passedOver_of_stale hs]
  · refine ⟨(c.own[rCU.val] : List OwnReq).takeWhile c.passedOver, ?_, fun r hr => ?_, fun r half hr hop => ?_⟩
    · rw [c.waiting_cu, List.takeWhile_append_dropWhile]
    · exact (Chip.passedOver_of_not_stale hs r).mp (List.mem_takeWhile_imp hr)
    · rw [c.waiting_cu] at hr
      have hfalse := List.head?_dropWhile_not c.passedOver (c.own[rCU.val] : List OwnReq)
      rw [hr] at hfalse
      exact absurd ((Chip.passedOver_of_not_stale hs r).mpr ⟨half, hop⟩) (by simpa using hfalse)

/-- What a grant of a unit changes. -/
theorem State.grantOwn_spec {s : State} {u : Fin 9} {r : OwnReq}
    (h : firstWaiting s.chip.waiting (requestersAfter s.arb.rotation) = some (u, r)) :
    ∃ (k : Nat) (rest : List OwnReq), k < 9 ∧ u.val = (s.arb.rotation.val + 1 + k) % 9 ∧
      (∀ j < k, ∀ v : Fin 9, v.val = (s.arb.rotation.val + 1 + j) % 9 → s.chip.waiting[v.val] = []) ∧
      s.chip.waiting[u.val] = r :: rest ∧ (s.grantOwn u r).chip.own = vput s.chip.waiting u rest ∧
      s.chip.Only [.own, .scu] (s.grantOwn u r).chip := by
  obtain ⟨k, rest, hk, hr, hbefore⟩ := firstWaiting_eq_some h
  have hk9 : k < 9 := by
    obtain ⟨hlt, -⟩ := List.getElem?_eq_some_iff.mp hk
    simpa [requestersAfter] using hlt
  have hu : u.val = (s.arb.rotation.val + 1 + k) % 9 := by
    rw [requestersAfter_getElem _ _ hk9] at hk
    exact (congrArg Fin.val (Option.some.inj hk)).symm
  have hook := Chip.grantHook_only { s.chip with own := vupd s.chip.waiting u (·.drop 1) } r.tag
  refine ⟨k, rest, hk9, hu, fun j hj v hv => hbefore j hj v ?_, hr, ?_, ?_⟩
  · rw [requestersAfter_getElem _ _ (by omega)]
    exact congrArg some (Fin.ext hv.symm)
  · refine (hook.own (by simp)).trans ?_
    rw [vupd, vput, hr, List.drop_succ_cons, List.drop_zero]
  · exact ⟨fun _ => hook.ap (by simp), fun hn => absurd (by simp) hn, fun _ => hook.su (by simp), fun _ => hook.ju (by simp),
      fun _ => hook.cu (by simp), fun hn => absurd (by simp) hn, fun _ => hook.slc (by simp), fun _ => hook.pru (by simp),
      fun _ => hook.fd (by simp), fun _ => hook.hlc (by simp), fun _ => hook.pins (by simp), fun _ => hook.free (by simp)⟩

/-- Settles O19: the four outcomes of a grant, and the answers to an own access and to the host's. -/
theorem storePort : Obligations.StorePort := by
  refine ⟨waiting_and_crcs, fun s hp => ⟨fun hb => ?_, fun hi hh hn => ?_, fun p op hi hh hs => ?_, fun hi hn hs => ?_⟩,
    fun s okay hp => ⟨fun hi => ?_, fun u op tag fin hu => ?_, fun op hop => ?_⟩⟩
  · rw [exec_arbiterGrant s hp, State.grant_of_busy hb]
  · rw [exec_arbiterGrant s hp, State.grant_of_none hh hn]
  · obtain ⟨b, hb, hg⟩ := State.grant_of_host hi hh hs
    rw [exec_arbiterGrant s hp, hg]
    cases b with
    | false => exact ⟨0, fun _ => rfl, fun hn => absurd (hb.mp rfl) hn, rfl⟩
    | true => exact ⟨1, fun hn => by simpa using hb.mpr hn, fun _ => rfl, rfl⟩
  · obtain ⟨u, r, hf, hg⟩ := State.grant_of_own hi hn hs
    obtain ⟨k, rest, hk, hu, hbefore, hr, hown, honly⟩ := State.grantOwn_spec hf
    refine ⟨u, k, r, rest, hk, hu, hbefore, hr, s.grant, exec_arbiterGrant s hp, ?_⟩
    rw [hg]
    exact ⟨rfl, hown, rfl, rfl, honly⟩
  · rw [exec_storeAnswer s okay hp]
    unfold State.answer
    rw [hi]
  · exact ⟨_, exec_storeAnswer s okay hp, by rw [State.answer_of_own hu]; exact ⟨rfl, rfl, rfl, rfl⟩⟩
  · refine ⟨_, exec_storeAnswer s okay hp, ?_⟩
    rw [State.answer_of_host hop]
    obtain ⟨q, hq⟩ := State.afterHost_eq { s with
      mem := op.answered s.mem okay
      chip := s.chip.hostAnswered (op.answered s.mem okay) okay (op.data s.mem) }
    obtain hidle | ⟨p, op', hh, hgr, hn, hport⟩ := State.afterHost_port { s with
      mem := op.answered s.mem okay
      chip := s.chip.hostAnswered (op.answered s.mem okay) okay (op.data s.mem) }
    · rw [hq] at hidle ⊢
      exact ⟨rfl, rfl, rfl, rfl, rfl, .inl hidle⟩
    · rw [hport]
      exact ⟨rfl, rfl, rfl, rfl, rfl, .inr ⟨p, op', hh, hgr, hn, rfl⟩⟩

end Sys2Proof.Machine
end

section
/-! PROOF. Host accesses: arrival, grant and answer (O18). -/

namespace Sys2Proof.Machine

/-! ### The host access of the part -/

/-- The part with the host access in progress and its answer replaced. -/
def Chip.withHost (c : Chip) (h : Option HostProg) (x : Option HostAnswer) : Chip :=
  c.onAp fun a => { a with host := h, answer := x }

@[simp] theorem Chip.withHost_own (c : Chip) (h : Option HostProg) (x : Option HostAnswer) : (c.withHost h x).own = c.own := rfl
@[simp] theorem Chip.withHost_su (c : Chip) (h : Option HostProg) (x : Option HostAnswer) : (c.withHost h x).su = c.su := rfl
@[simp] theorem Chip.withHost_ju (c : Chip) (h : Option HostProg) (x : Option HostAnswer) : (c.withHost h x).ju = c.ju := rfl
@[simp] theorem Chip.withHost_cu (c : Chip) (h : Option HostProg) (x : Option HostAnswer) : (c.withHost h x).cu = c.cu := rfl
@[simp] theorem Chip.withHost_scu (c : Chip) (h : Option HostProg) (x : Option HostAnswer) : (c.withHost h x).scu = c.scu := rfl
@[simp] theorem Chip.withHost_slc (c : Chip) (h : Option HostProg) (x : Option HostAnswer) : (c.withHost h x).slc = c.slc := rfl
@[simp] theorem Chip.withHost_pru (c : Chip) (h : Option HostProg) (x : Option HostAnswer) : (c.withHost h x).pru = c.pru := rfl
@[simp] theorem Chip.withHost_fd (c : Chip) (h : Option HostProg) (x : Option HostAnswer) : (c.withHost h x).fd = c.fd := rfl
@[simp] theorem Chip.withHost_hlc (c : Chip) (h : Option HostProg) (x : Option HostAnswer) : (c.withHost h x).hlc = c.hlc := rfl
@[simp] theorem Chip.withHost_pins (c : Chip) (h : Option HostProg) (x : Option HostAnswer) : (c.withHost h x).pins = c.pins := rfl
@[simp] theorem Chip.withHost_free (c : Chip) (h : Option HostProg) (x : Option HostAnswer) : (c.withHost h x).free = c.free := rfl
@[simp] theorem Chip.withHost_ap (c : Chip) (h : Option HostProg) (x : Option HostAnswer) :
    (c.withHost h x).ap = { c.ap with host := h, answer := x } := rfl
@[simp] theorem Chip.withHost_withHost (c : Chip) (h h' : Option HostProg) (x x' : Option HostAnswer) :
    (c.withHost h x).withHost h' x' = c.withHost h' x' := rfl
@[simp] theorem Chip.windowOf_withHost (c : Chip) (h : Option HostProg) (x : Option HostAnswer) (a : Nat) :
    (c.withHost h x).windowOf a = c.windowOf a := rfl
@[simp] theorem Chip.windowBase_withHost (c : Chip) (h : Option HostProg) (x : Option HostAnswer) (w : Window) :
    (c.withHost h x).windowBase w = c.windowBase w := rfl
@[simp] theorem Chip.ownerAnswer_withHost (c : Chip) (h : Option HostProg) (x : Option HostAnswer) (m : List Host.Cell) (w : Window)
    (off : Nat) (v : Word) : (c.withHost h x).ownerAnswer m w off v = c.ownerAnswer m w off v := rfl

/-- Only AP knows of the host access. -/
theorem Chip.withHost_only (c : Chip) (h : Option HostProg) (x : Option HostAnswer) : c.Only [.ap] (c.withHost h x) := by
  constructor <;> simp

@[simp] theorem Chip.withHost_answerHost (c : Chip) (h : Option HostProg) (x : Option HostAnswer) (okay : Bool) (data : List Word) :
    (c.withHost h x).answerHost okay data = c.answerHost okay data := rfl
@[simp] theorem Chip.withHost_setHost (c : Chip) (h : Option HostProg) (x : Option HostAnswer) (p : HostProg) :
    (c.withHost h x).setHost p = c.withHost (some p) x := rfl

/-! ### Arrival -/

/-- A byte address of the 32-bit space stands as it is. -/
@[simp] theorem wrapAddr_toNat (a : Word) : wrapAddr a.toNat = a.toNat := Nat.mod_eq_of_lt a.isLt

/-- An address brought into the 32-bit space stands as it is. -/
@[simp] theorem wrapAddr_wrapAddr (a : Nat) : wrapAddr (wrapAddr a) = wrapAddr a := Nat.mod_mod _ _

/-- The word address of a number. -/
theorem toNat_wd (a : Nat) : (wd a).toNat = wrapAddr a := BitVec.toNat_ofNat _ _

/-- An access that arrives while one is in progress is not taken (log 26). -/
theorem Chip.hostAccess_of_busy {c : Chip} (m : List Host.Cell) (a : HostAccess) (h : c.ap.host.isSome = true) :
    c.hostAccess m a = c := by
  unfold Chip.hostAccess
  rw [if_pos h]

/-- Until LOADING has ended an access is held (R13). -/
theorem Chip.hostAccess_of_held {c : Chip} (m : List Host.Cell) (a : HostAccess) (hh : c.ap.host = none) (h : c.ap.held = true) :
    c.hostAccess m a = c.withHost (some ⟨a, 0, [], none, 0, false, .heldLoading⟩) none := by
  unfold Chip.hostAccess
  rw [if_neg (by simp [hh])]
  exact if_pos h

/-- Otherwise it is decoded as it arrives. -/
theorem Chip.hostAccess_of_free {c : Chip} (m : List Host.Cell) (a : HostAccess) (hh : c.ap.host = none) (h : c.ap.held = false) :
    c.hostAccess m a = (c.withHost none none).arrive m a := by
  unfold Chip.hostAccess
  rw [if_neg (by simp [hh])]
  refine (if_neg (by simp [h])).trans (congrArg (Chip.arrive · m a) ?_)
  show { c with ap := { c.ap with answer := none } } = { c with ap := { c.ap with host := none, answer := none } }
  rw [← hh]

/-- The words of a burst that stand in the window of the first. -/
theorem Chip.burstWindows_all (c : Chip) (addr : Nat) (ws : List WriteWord) :
    ((c.burstWindows addr ws).all (· == c.windowOf addr)) = true ↔
      ∀ k < ws.length, c.windowOf (wrapAddr (addr + 4 * k)) = c.windowOf addr := by
  simp [Chip.burstWindows]

/-- A burst that is not wholly in one window is refused whole (R14). -/
theorem Chip.arrive_crossing (c : Chip) (m : List Host.Cell) (addr : Word) (ws : List WriteWord)
    (h : ∃ k < ws.length, c.windowOf (wrapAddr (addr.toNat + 4 * k)) ≠ c.windowOf addr.toNat) :
    c.arrive m (.write addr ws) = c.answerHost false [] := by
  obtain ⟨k, hk, hne⟩ := h
  have hall : ((c.burstWindows addr.toNat ws).all (· == c.windowOf addr.toNat)) = false := by
    rw [Bool.eq_false_iff]
    exact fun ht => hne ((c.burstWindows_all addr.toNat ws).mp ht k hk)
  unfold Chip.arrive
  simp only [hall, Bool.not_false, if_true]

/-- A burst inside one window is judged word by word. -/
theorem Chip.arrive_window (c : Chip) (m : List Host.Cell) (addr : Word) (ws : List WriteWord) (w : Window) (hne : ws ≠ [])
    (h : ∀ k < ws.length, c.windowOf (wrapAddr (addr.toNat + 4 * k)) = some w) :
    c.arrive m (.write addr ws) =
      c.advance m ⟨.write addr ws, addr.toNat, ws, some w, c.windowBase w, false, .waiting .burst⟩ w ws := by
  have h0 : c.windowOf addr.toNat = some w := by
    simpa using h 0 (List.length_pos_iff.mpr hne)
  have hall : ((c.burstWindows addr.toNat ws).all (· == some w)) = true := by
    rw [← h0]
    exact (c.burstWindows_all addr.toNat ws).mpr fun k hk => by rw [h k hk, h0]
  unfold Chip.arrive
  simp only [h0, hall, Bool.not_true, Bool.false_eq_true, if_false, Option.map_some, Option.getD_some]

/-- A burst outside every window goes to the store as it is, or has OKAY at once when none of its words sets a byte enable. -/
theorem Chip.arrive_outside (c : Chip) (m : List Host.Cell) (addr : Word) (ws : List WriteWord) (hne : ws ≠ [])
    (h : ∀ k < ws.length, c.windowOf (wrapAddr (addr.toNat + 4 * k)) = none) :
    c.arrive m (.write addr ws) = if ws.all (·.enables == 0) then c.answerHost true []
      else c.setHost ⟨.write addr ws, addr.toNat, ws, none, 0, false, .waiting .burst⟩ := by
  have h0 : c.windowOf addr.toNat = none := by
    simpa using h 0 (List.length_pos_iff.mpr hne)
  have hall : ((c.burstWindows addr.toNat ws).all (· == none)) = true := by
    rw [← h0]
    exact (c.burstWindows_all addr.toNat ws).mpr fun k hk => by rw [h k hk, h0]
  unfold Chip.arrive
  simp only [h0, hall, Bool.not_true, Bool.false_eq_true, if_false, Option.map_none, Option.getD_none]

/-! ### The host access at the port -/

/-- HOST_WRITE with a store that is not prompt. -/
theorem exec_hostWrite (s : State) (a : HostAccess) (h : s.prompt = false) :
    exec (.hostWrite a) s = .next { s with chip := s.chip.hostAccess s.mem a } :=
  congrArg Host.Outcome.next (State.host_of_not_prompt s (fun m c => c.hostAccess m a) h)

/-- An access that ends leaves the port free. -/
theorem State.afterHost_of_none {s : State} (h : s.chip.ap.host = none) :
    s.afterHost = { s with arb := { s.arb with port := .idle } } := by
  unfold State.afterHost
  rw [h]

/-- A granted access with a next store access goes on under the same grant. -/
theorem State.afterHost_of_next {s : State} {p : HostProg} {op : StoreOp} (h : s.chip.ap.host = some p) (hg : p.granted = true)
    (hn : p.nextOp = some op) : s.afterHost = { s with arb := { s.arb with port := .host op } } := by
  unfold State.afterHost
  rw [h]
  simp only [hg, hn]

/-- An access that is not granted, or needs no store access, leaves the port free. -/
theorem State.afterHost_of_held {s : State} {p : HostProg} (h : s.chip.ap.host = some p) (hg : p.granted = false) :
    s.afterHost = { s with arb := { s.arb with port := .idle } } := by
  unfold State.afterHost
  rw [h]
  simp only [hg]

/-- A free host access that waits for the store is granted next, and answered: the part with the access granted takes the
answer. -/
theorem State.HostNext.stored {s : State} {i : Instr} {P : State → Prop} (hs : s.HostNext) {p : HostProg} {op : StoreOp}
    (hi : exec i s = .next { s with chip := s.chip.withHost (some p) none }) (hg : p.granted = false) (hop : p.nextOp = some op)
    (hP : ∀ k, P (State.afterHost { s with
      mem := op.effect s.mem
      chip := (s.chip.withHost (some { p with granted := true }) none).hostAnswered (op.effect s.mem) true (op.data s.mem)
      arb := { s.arb with streak := k, port := .host op } })) : CompletesStored i s P := by
  have hw : (s.chip.withHost (some p) none).hostWaiting = some (p, op) := by
    simp [Chip.hostWaiting, hg, hop]
  obtain ⟨b, -, hgrant⟩ := State.grant_of_host (s := { s with chip := s.chip.withHost (some p) none }) hs.port hw hs.streak
  refine ⟨_, hi, _, exec_arbiterGrant { s with chip := s.chip.withHost (some p) none } hs.prompt, ?_⟩
  rw [hgrant]
  refine ⟨_, exec_storeAnswer (State.grantHost { s with chip := s.chip.withHost (some p) none } p op b) true hs.prompt, ?_⟩
  exact hP _

/-- The same for an access that the answer ends. -/
theorem State.HostNext.storedEnds {s : State} {i : Instr} {P : State → Prop} (hs : s.HostNext) {p : HostProg} {op : StoreOp}
    {d : Chip} (hi : exec i s = .next { s with chip := s.chip.withHost (some p) none }) (hg : p.granted = false)
    (hop : p.nextOp = some op)
    (hd : (s.chip.withHost (some { p with granted := true }) none).hostAnswered (op.effect s.mem) true (op.data s.mem) = d)
    (hend : d.ap.host = none)
    (hP : ∀ k, P { s with mem := op.effect s.mem, chip := d, arb := { s.arb with streak := k, port := .idle } }) :
    CompletesStored i s P := by
  refine hs.stored hi hg hop fun k => ?_
  rw [hd, State.afterHost_of_none hend]
  exact hP k

/-- What a free controller port does with an access. -/
theorem State.HostFree.exec_hostWrite {s : State} (hs : s.HostFree) (a : HostAccess) :
    exec (.hostWrite a) s = .next { s with chip := (s.chip.withHost none none).arrive s.mem a } := by
  rw [Machine.exec_hostWrite s a hs.prompt, Chip.hostAccess_of_free _ _ hs.host hs.released]

/-- The part answered is the part with AP's answer and no access in progress. -/
theorem Chip.answerHost_only (c : Chip) (okay : Bool) (data : List Word) : c.Only [.ap] (c.answerHost okay data) :=
  c.withHost_only _ _

/-- Settles O18: the cases of arrival, and the grant and answer of a read and of a write outside every window. -/
theorem hostAccesses : Obligations.HostAccesses := by
  refine ⟨fun s a hp hh => ?_, fun s a hp hh hheld => ?_, fun s addr ws hs hcross => ?_, fun s addr len hs => ?_,
    fun s addr ws hne hout => ⟨fun hs he => ?_, fun hs he => ?_⟩⟩
  · rw [exec_hostWrite s a hp, Chip.hostAccess_of_busy _ _ hh]
  · refine ⟨_, exec_hostWrite s a hp, ?_⟩
    rw [Chip.hostAccess_of_held _ _ hh hheld]
    exact ⟨⟨⟨rfl, rfl, rfl, rfl⟩, s.chip.withHost_only _ _⟩, _, rfl, rfl, rfl⟩
  · rw [hs.exec_hostWrite, Chip.arrive_crossing (s.chip.withHost none none) _ _ _ hcross, Chip.withHost_answerHost]
  · exact hs.storedEnds (hs.toHostFree.exec_hostWrite _) rfl rfl rfl rfl fun k =>
      ⟨rfl, rfl, rfl, rfl, s.chip.answerHost_only _ _⟩
  · have hall : ws.all (·.enables == 0) = true := by simpa using he
    rw [hs.exec_hostWrite, Chip.arrive_outside (s.chip.withHost none none) _ _ _ hne hout, hall, if_pos rfl, Chip.withHost_answerHost]
  · have hall : ws.all (·.enables == 0) = false := by simpa using he
    have hi := hs.toHostFree.exec_hostWrite (.write addr ws)
    rw [Chip.arrive_outside (s.chip.withHost none none) _ _ _ hne hout, hall, if_neg Bool.false_ne_true, Chip.withHost_setHost] at hi
    exact hs.storedEnds hi rfl rfl rfl rfl fun k => ⟨rfl, rfl, rfl, rfl, s.chip.answerHost_only _ _⟩

end Sys2Proof.Machine
end

section
/-! PROOF. Host writes inside a window, word by word (O26). -/

namespace Sys2Proof.Machine

/-! ### The operation of a hold leaves AP alone -/

@[simp] theorem Chip.serveStartSend_ap (c : Chip) : c.serveStartSend.ap = c.ap := by
  unfold Chip.serveStartSend
  split <;> simp

@[simp] theorem Chip.serveClearDay_ap (c : Chip) : c.serveClearDay.ap = c.ap := by
  unfold Chip.serveClearDay
  split
  · simp
  · simp only [Chip.writeAnchorOutside_ap, Chip.dayNotice_ap]
    rw [foldl_keeps Chip.ap _ (fun _ _ => Chip.drawerNotice_ap _ _), foldl_keeps Chip.ap _ (fun _ _ => Chip.judgeExcess_ap _ _ _)]
    simp

@[simp] theorem Chip.serveLinkReset_ap (c : Chip) : c.serveLinkReset.ap = c.ap := by
  unfold Chip.serveLinkReset
  simp only [Chip.requestDone_ap]
  split <;> simp

@[simp] theorem Chip.serveBare_ap (c : Chip) (r : Request) : (c.serveBare r).ap = c.ap := by
  cases r <;> simp [Chip.serveBare]

@[simp] theorem Chip.requestHeld_ap (c : Chip) (code : Word) : (c.requestHeld code).ap = c.ap := by
  unfold Chip.requestHeld
  dsimp only
  split
  · simp
  · split
    · simp
    · split <;> simp

@[simp] theorem Chip.commitHeld_ap (c : Chip) (x : Fin 13) : (c.commitHeld x).ap = c.ap := by
  unfold Chip.commitHeld
  dsimp only
  split <;> simp

@[simp] theorem Chip.readSubmission_ap (c : Chip) (n : Fin 4) (x : Fin 8) : (c.readSubmission n x).ap = c.ap := by
  simp [Chip.readSubmission]

@[simp] theorem Chip.submitHeld_ap (c : Chip) (n : Fin 4) (x : Fin 8) : (c.submitHeld n x).ap = c.ap := by
  unfold Chip.submitHeld
  dsimp only
  split <;> simp

/-- The operation of a hold starts without AP. -/
@[simp] theorem Chip.startHold_ap (c : Chip) (h : HoldOp) : (c.startHold h).ap = c.ap := by
  cases h <;> simp [Chip.startHold]

/-! ### A write word by word -/

/-- A partial write of a watched word reads the store's word first (R10). -/
theorem Chip.advance_partly (c : Chip) (m : List Host.Cell) (p : HostProg) (w : Window) (x : WriteWord) (more : List WriteWord)
    (hx : x.enables ≠ 0) (hw : watched w (p.addr - p.base) = true) (hp : x.enables ≠ allBytes) :
    c.advance m p w (x :: more) = c.setHost { p with rest := x :: more, phase := .waiting .merge } := by
  rw [Chip.advance, if_neg (by simpa using hx)]
  exact if_pos (by simp [hw, hp])

/-- The owner is asked about any other word with byte enables (R11). -/
theorem Chip.advance_asked (c : Chip) (m : List Host.Cell) (p : HostProg) (w : Window) (x : WriteWord) (more : List WriteWord)
    (hx : x.enables ≠ 0) (hp : watched w (p.addr - p.base) = true → x.enables = allBytes) :
    c.advance m p w (x :: more) = c.askOwner m { p with rest := x :: more } w x.enables x.value more.isEmpty := by
  rw [Chip.advance, if_neg (by simpa using hx)]
  refine if_neg fun h => ?_
  obtain ⟨hw, hne⟩ : watched w (p.addr - p.base) = true ∧ x.enables ≠ allBytes := by simpa using h
  exact hne (hp hw)

/-- A write whose words set no byte enable ends OKAY. -/
theorem Chip.advance_none (c : Chip) (m : List Host.Cell) (p : HostProg) (w : Window) (ws : List WriteWord)
    (h : ∀ z ∈ ws, z.enables = 0) : c.advance m p w ws = c.answerHost true [] := by
  induction ws generalizing p with
  | nil => rfl
  | cons x rest ih =>
    rw [Chip.advance, if_pos (by simpa using h x (by simp))]
    exact ih _ fun z hz => h z (by simp [hz])

/-- Words without byte enables are passed over (R11). -/
theorem Chip.advance_skip (c : Chip) (m : List Host.Cell) (p : HostProg) (w : Window) (skipped more : List WriteWord) (x : WriteWord)
    (a : Nat) (ha : p.addr = wrapAddr a) (h : ∀ z ∈ skipped, z.enables = 0) :
    c.advance m p w (skipped ++ x :: more) =
      c.advance m { p with addr := wrapAddr (a + 4 * skipped.length), rest := x :: more } w (x :: more) := by
  induction skipped generalizing p a with
  | nil =>
    rw [List.nil_append, Chip.advance, Chip.advance, ha]
    rfl
  | cons z rest ih =>
    rw [List.cons_append, Chip.advance, if_pos (by simpa using h z (by simp)),
      ih { p with addr := wrapAddr (p.addr + 4), rest := rest ++ x :: more } (a + 4)
        (by rw [ha]; simp [wrapAddr]) fun y hy => h y (by simp [hy])]
    have e : a + 4 + 4 * rest.length = a + 4 * (z :: rest).length := by rw [List.length_cons]; omega
    rw [e]

/-- What an owner's answer makes of the access: the word it goes to the store with, if it does. -/
def Answer.stored (a : Answer) (v : Word) (e : BitVec 4) : Option (Word × BitVec 4 × Bool) :=
  match a with
  | .pass => some (v, e, false)
  | .substitute u => some (u, allBytes, true)
  | _ => none

/-- A passed or substituted word goes to the store. -/
theorem Chip.carryOut_stored (c : Chip) (p : HostProg) (e f : BitVec 4) (v x : Word) (subst last : Bool) (a : Answer)
    (h : a.stored v e = some (x, f, subst)) : c.carryOut p e v last a = c.setHost { p with phase := .waiting (.word x f subst) } := by
  cases a with
  | pass => cases h; rfl
  | substitute u => cases h; rfl
  | refuse => cases h
  | hold _ => cases h

/-! ### One word from a free controller port -/

/-- Where the write of one word stands. -/
def Chip.wordProg (c : Chip) (w : Window) (addr v : Word) (e : BitVec 4) (granted : Bool) (phase : HostPhase) : HostProg :=
  ⟨.write addr [⟨v, e⟩], addr.toNat, [⟨v, e⟩], some w, c.windowBase w, granted, phase⟩

/-- The part a word's action is run on: the access in progress is the word's, and has been granted. -/
def Chip.storing (c : Chip) (w : Window) (addr v : Word) (e : BitVec 4) (n : HostNext) : Chip :=
  c.withHost (some (c.wordProg w addr v e true (.waiting n))) none

/-- A write of one word inside a window arrives. -/
theorem State.HostFree.exec_word {s : State} (hs : s.HostFree) {i : Instr} {w : Window} {addr v : Word} {e : BitVec 4}
    (hi : exec i s = .next (s.host fun m c => c.hostAccess m (.write addr [⟨v, e⟩])))
    (hw : s.chip.windowOf addr.toNat = some w) :
    exec i s = .next { s with
      chip := (s.chip.withHost none none).advance s.mem (s.chip.wordProg w addr v e false (.waiting .burst)) w [⟨v, e⟩] } := by
  have hall : ∀ k < [(⟨v, e⟩ : WriteWord)].length, (s.chip.withHost none none).windowOf (wrapAddr (addr.toNat + 4 * k)) = some w := by
    intro k hk
    obtain rfl : k = 0 := by simpa using hk
    simpa using hw
  rw [hi, State.host_of_not_prompt _ _ hs.prompt, Chip.hostAccess_of_free _ _ hs.host hs.released,
    Chip.arrive_window _ _ _ _ w (by simp) hall]
  rfl

/-- One without byte enables does nothing and has OKAY (R10). -/
theorem State.HostFree.exec_word_none {s : State} (hs : s.HostFree) {i : Instr} {w : Window} {addr v : Word}
    (hi : exec i s = .next (s.host fun m c => c.hostAccess m (.write addr [⟨v, 0⟩])))
    (hw : s.chip.windowOf addr.toNat = some w) : exec i s = .next { s with chip := s.chip.answerHost true [] } := by
  rw [hs.exec_word hi hw, Chip.advance_none _ _ _ _ _ (by simp), Chip.withHost_answerHost]

/-- The owner of a word that is not a partial write of a watched one is asked as it arrives. -/
theorem State.HostFree.exec_word_asked {s : State} (hs : s.HostFree) {i : Instr} {w : Window} {addr v : Word} {e : BitVec 4}
    (hi : exec i s = .next (s.host fun m c => c.hostAccess m (.write addr [⟨v, e⟩])))
    (hw : s.chip.windowOf addr.toNat = some w) (he : e ≠ 0)
    (hp : watched w (addr.toNat - s.chip.windowBase w) = true → e = allBytes) :
    exec i s = .next { s with
      chip := (s.chip.withHost none none).carryOut (s.chip.wordProg w addr v e false (.waiting .burst)) e v true
        (s.chip.ownerAnswer s.mem w (addr.toNat - s.chip.windowBase w) v) } := by
  rw [hs.exec_word hi hw, Chip.advance_asked _ _ _ _ _ _ he hp]
  rfl

/-- A refused word ends the access with ERROR (R8). -/
theorem State.HostFree.exec_word_refused {s : State} (hs : s.HostFree) {i : Instr} {w : Window} {addr v : Word} {e : BitVec 4}
    (hi : exec i s = .next (s.host fun m c => c.hostAccess m (.write addr [⟨v, e⟩])))
    (hw : s.chip.windowOf addr.toNat = some w) (he : e ≠ 0)
    (hp : watched w (addr.toNat - s.chip.windowBase w) = true → e = allBytes)
    (ha : s.chip.ownerAnswer s.mem w (addr.toNat - s.chip.windowBase w) v = .refuse) :
    exec i s = .next { s with chip := s.chip.answerHost false [] } := by
  rw [hs.exec_word_asked hi hw he hp, ha]
  rfl

/-- A word whose owner holds it: the access waits for the operation, which starts (R12). -/
theorem State.HostFree.exec_word_held {s : State} (hs : s.HostFree) {i : Instr} {w : Window} {addr v : Word} {e : BitVec 4} {h : HoldOp}
    (hi : exec i s = .next (s.host fun m c => c.hostAccess m (.write addr [⟨v, e⟩])))
    (hw : s.chip.windowOf addr.toNat = some w) (he : e ≠ 0)
    (hp : watched w (addr.toNat - s.chip.windowBase w) = true → e = allBytes)
    (ha : s.chip.ownerAnswer s.mem w (addr.toNat - s.chip.windowBase w) v = .hold h) :
    exec i s = .next { s with
      chip := (s.chip.withHost (some (s.chip.wordProg w addr v e false (.heldOwner h))) none).startHold h } := by
  rw [hs.exec_word_asked hi hw he hp, ha]
  rfl

/-- A passed or substituted word is stored, and its owner acts on it (R7, R9). -/
theorem State.HostNext.word_stored {s : State} (hs : s.HostNext) {i : Instr} {w : Window} {addr v x : Word} {e f : BitVec 4} {subst : Bool}
    {P : State → Prop}
    (hi : exec i s = .next (s.host fun m c => c.hostAccess m (.write addr [⟨v, e⟩])))
    (hw : s.chip.windowOf addr.toNat = some w) (he : e ≠ 0)
    (hp : watched w (addr.toNat - s.chip.windowBase w) = true → e = allBytes)
    (ha : (s.chip.ownerAnswer s.mem w (addr.toNat - s.chip.windowBase w) v).stored v e = some (x, f, subst))
    (hP : ∀ k, P { s with
      mem := writeWord s.mem addr.toNat ⟨x, f⟩
      chip := ((s.chip.storing w addr v e (.word x f subst)).ownerAction (writeWord s.mem addr.toNat ⟨x, f⟩) w
        (addr.toNat - s.chip.windowBase w) x subst).answerHost true []
      arb := { s.arb with streak := k, port := .idle } }) : CompletesStored i s P := by
  have hc := hs.toHostFree.exec_word_asked hi hw he hp
  rw [Chip.carryOut_stored _ _ _ _ _ _ _ _ _ ha] at hc
  exact hs.storedEnds hc rfl rfl rfl rfl hP

/-- A partial write of a watched word reads the store's word; the merged word is judged (R10). -/
theorem State.HostNext.word_merged {s : State} (hs : s.HostNext) {i : Instr} {w : Window} {addr v : Word} {e : BitVec 4}
    {P : State → Prop}
    (hi : exec i s = .next (s.host fun m c => c.hostAccess m (.write addr [⟨v, e⟩])))
    (hw : s.chip.windowOf addr.toNat = some w) (he : e ≠ 0)
    (hp : watched w (addr.toNat - s.chip.windowBase w) = true) (hne : e ≠ allBytes)
    (hP : ∀ k, P (State.afterHost { s with
      chip := (s.chip.storing w addr v e .merge).carryOut
        (s.chip.wordProg w addr v e true (.waiting .merge)) e
        (mergeWord (readWord s.mem addr.toNat) v e) true
        (s.chip.ownerAnswer s.mem w (addr.toNat - s.chip.windowBase w) (mergeWord (readWord s.mem addr.toNat) v e))
      arb := { s.arb with streak := k, port := .host (.read addr.toNat 4 1) } })) : CompletesStored i s P := by
  have hc := hs.toHostFree.exec_word hi hw
  rw [Chip.advance_partly _ _ _ _ _ _ he hp hne] at hc
  exact hs.stored hc rfl rfl hP

/-! ### What the owners answer -/

/-- Off the settings area no setting stands. -/
theorem settingAtOffset_eq_none {off : Nat} (h : off < 0x200 ∨ 0x5F8 < off) : settingAtOffset off = none := by
  unfold settingAtOffset
  rw [if_neg]
  simp only [Bool.and_eq_true, decide_eq_true_eq, beq_iff_eq]
  omega

/-- SU's answer to a word that is no setting's (Table 2-1, R31, R35). -/
theorem Chip.setupAnswer_of_none {c : Chip} {m : List Host.Cell} {off : Nat} {v : Word} (h : settingAtOffset off = none) :
    c.setupAnswer m off v = if off = 0x100 then .hold (.request v) else if off = 0x104 ∨ off = 0x108 then .pass
      else if off = 0x148 then passIf (v.toNat ≤ 63) else .refuse := by
  unfold Chip.setupAnswer
  rw [h]
  simp

/-- JU refuses past the slots, in REBUILDING and in a frozen day; else it passes but for word 11, which holds COMMIT (Table 4-2). -/
theorem Chip.journalAnswer_eq (c : Chip) (off : Nat) (v : Word) : c.journalAnswer off v =
    if 624 ≤ off ∨ c.su.unitState = .rebuilding ∨ c.cu.day.state.frozen = true then .refuse
    else if h : off % 48 = 44 ∧ off / 48 < 13 then (if v = outcomeCommit then .hold (.commit ⟨off / 48, h.2⟩) else .refuse)
    else .pass := by
  unfold Chip.journalAnswer finOf
  simp only [Bool.or_eq_true, decide_eq_true_eq, beq_iff_eq, or_assoc]
  by_cases hr : 624 ≤ off ∨ c.su.unitState = .rebuilding ∨ c.cu.day.state.frozen = true
  · rw [if_pos hr, if_pos hr]
  · rw [if_neg hr, if_neg hr]
    have hlt : off / 48 < 13 := by omega
    by_cases h44 : off % 48 = 44
    · rw [if_pos h44, dif_pos hlt, dif_pos ⟨h44, hlt⟩]
    · rw [if_neg h44, dif_neg fun h => h44 h.1]

/-- A frozen day is CLOSED, SENDING or SENT. -/
theorem DayState.frozen_iff (d : DayState) : d.frozen = true ↔ d = .closed ∨ d = .sending ∨ d = .sent := by
  cases d <;> simp [DayState.frozen]

/-- A locked slot is QUEUED or PRINTING. -/
theorem SlotStatus.locked_iff (x : SlotStatus) : x.locked = true ↔ x = .queued ∨ x = .printing := by
  cases x <;> simp [SlotStatus.locked]

/-- PRU passes what lies past the slots. -/
theorem Chip.printAnswer_past (c : Chip) {off : Nat} (v : Word) (h : 4096 ≤ off) : c.printAnswer off v = .pass := by
  unfold Chip.printAnswer finOf
  rw [dif_neg (by omega)]

/-- PRU refuses a locked slot; else it passes but for word 0, which takes IDLE and holds SUBMIT (R136). -/
theorem Chip.printAnswer_slot (c : Chip) (n : Fin 4) (x : Fin 8) (k : Fin 32) (v : Word) :
    c.printAnswer (1024 * n.val + 128 * x.val + 4 * k.val) v =
      if c.slotStatus n x = .queued ∨ c.slotStatus n x = .printing then .refuse
      else if k ≠ 0 ∨ v = 0 then .pass else if v = 1 then .hold (.submit n x) else .refuse := by
  have hn : (1024 * n.val + 128 * x.val + 4 * k.val) / 1024 = n.val := by omega
  have hx : (1024 * n.val + 128 * x.val + 4 * k.val) / 128 % 8 = x.val := by omega
  have hk : (1024 * n.val + 128 * x.val + 4 * k.val) % 128 = 4 * k.val := by omega
  have hk0 : (4 * k.val = 0) ↔ k = 0 := by rw [Fin.ext_iff, Fin.val_zero]; omega
  unfold Chip.printAnswer finOf
  simp only [hn, hx, hk, n.isLt, x.isLt, dif_pos, Fin.eta, SlotStatus.locked_iff, beq_iff_eq, hk0]
  by_cases hl : c.slotStatus n x = .queued ∨ c.slotStatus n x = .printing
  · rw [if_pos hl, if_pos hl]
  · rw [if_neg hl, if_neg hl]
    by_cases h0 : k = 0
    · simp [h0]
    · simp [h0]

/-- SCU's answer (Table 6-1, R129). -/
theorem screensAnswer_eq (off : Nat) (v : Word) : screensAnswer off v =
    if 49152 ≤ off ∨ off % 4096 < 3840 ∨ (off % 4096 = 4020 ∧ v.toNat ≤ 31) then .pass else .refuse := by
  unfold screensAnswer passIf
  have h12 : 12 ≤ off / 4096 ↔ 49152 ≤ off := by omega
  simp only [Bool.or_eq_true, decide_eq_true_eq, h12, beq_iff_eq]
  by_cases ha : 49152 ≤ off ∨ off % 4096 < 3840
  · rw [if_pos ha, if_pos (by tauto)]
  · rw [if_neg ha]
    by_cases hk : off % 4096 = 4020
    · rw [if_pos hk]
      exact if_congr (by tauto) rfl rfl
    · rw [if_neg hk, if_neg (by tauto)]

/-- The owners' answers and the watched words of the seven windows. -/
theorem owners_answer (c : Chip) (m : List Host.Cell) (off : Nat) (v : Word) (hoff : off % 4 = 0) :
    let answer (w : Window) := c.ownerAnswer m w off v
    let frozen := c.cu.day.state = .closed ∨ c.cu.day.state = .sending ∨ c.cu.day.state = .sent
    (off < 0x100 ∨ (0x10C ≤ off ∧ off < 0x148) ∨ (0x14C ≤ off ∧ off < 0x200) ∨ 0x5FC ≤ off → answer .setup = .refuse) ∧
    (off = 0x100 → answer .setup = .hold (.request v)) ∧ (off = 0x104 ∨ off = 0x108 → answer .setup = .pass) ∧
    (off = 0x148 → answer .setup = if v.toNat ≤ 63 then .pass else .refuse) ∧
    (624 ≤ off ∨ c.su.unitState = .rebuilding ∨ frozen → answer .journal = .refuse) ∧
    (off < 624 → c.su.unitState ≠ .rebuilding → ¬ frozen → (off % 48 ≠ 44 → answer .journal = .pass) ∧
      ∀ x : Fin 13, off = 48 * x.val + 44 → answer .journal = if v = 0x0F000000 then .hold (.commit x) else .refuse) ∧
    answer .totals = .refuse ∧ answer .report = .refuse ∧ answer .broadcast = .pass ∧
    answer .screens = (if 49152 ≤ off ∨ off % 4096 < 3840 ∨ (off % 4096 = 4020 ∧ v.toNat ≤ 31) then .pass else .refuse) ∧
    (4096 ≤ off → answer .print = .pass) ∧
    (∀ (n : Fin 4) (x : Fin 8) (k : Fin 32), off = 1024 * n.val + 128 * x.val + 4 * k.val → answer .print =
      if c.slotStatus n x = .queued ∨ c.slotStatus n x = .printing then .refuse
      else if k ≠ 0 ∨ v = 0 then .pass else if v = 1 then .hold (.submit n x) else .refuse) ∧
    (watched .setup off = true ↔ off = 0x100 ∨ off = 0x148 ∨ settingAtOffset off ≠ none) ∧
    (watched .journal off = true ↔ off < 624 ∧ off % 48 = 44) ∧ (watched .screens off = true ↔ off < 49152 ∧ off % 4096 = 4020) ∧
    (watched .print off = true ↔ off < 4096 ∧ off % 128 = 0) ∧
    watched .totals off = false ∧ watched .broadcast off = false ∧ watched .report off = false := by
  have setup : off < 0x200 ∨ 0x5F8 < off → c.ownerAnswer m .setup off v =
      if off = 0x100 then .hold (.request v) else if off = 0x104 ∨ off = 0x108 then .pass
      else if off = 0x148 then passIf (v.toNat ≤ 63) else .refuse :=
    fun h => Chip.setupAnswer_of_none (settingAtOffset_eq_none h)
  refine ⟨fun h => ?_, fun h => ?_, fun h => ?_, fun h => ?_, fun h => ?_, fun hlt hu hf => ⟨fun h44 => ?_, fun x hx => ?_⟩,
    rfl, rfl, rfl, screensAnswer_eq off v, c.printAnswer_past v, fun n x k h => ?_, ?_, ?_, ?_, ?_, rfl, rfl, rfl⟩
  · refine (setup (by omega)).trans ?_
    rw [if_neg (by omega), if_neg (by omega), if_neg (by omega)]
  · exact (setup (by omega)).trans (if_pos h)
  · refine (setup (by omega)).trans ?_
    rw [if_neg (by omega), if_pos h]
  · refine (setup (by omega)).trans ?_
    rw [if_neg (by omega), if_neg (by omega), if_pos h]
    simp [passIf]
  · exact (c.journalAnswer_eq off v).trans (if_pos (by rwa [DayState.frozen_iff]))
  · refine (c.journalAnswer_eq off v).trans ?_
    rw [if_neg (by rw [DayState.frozen_iff]; rintro (h | h | h); exacts [absurd h (by omega), hu h, hf h]), dif_neg fun h => h44 h.1]
  · refine (c.journalAnswer_eq off v).trans ?_
    have hd : off / 48 = x.val := by omega
    rw [if_neg (by rw [DayState.frozen_iff]; rintro (h | h | h); exacts [absurd h (by omega), hu h, hf h]),
      dif_pos ⟨by omega, by omega⟩]
    simp only [hd, Fin.eta]
    rfl
  · rw [h]
    exact c.printAnswer_slot n x k v
  · simp [watched, or_assoc, Option.isSome_iff_ne_none]
  · simp [watched]
  · have h12 : off / 4096 < 12 ↔ off < 49152 := by omega
    simp [watched, h12]
  · simp [watched]

/-! ### The statement -/

/-- The operation of a hold starts with the access waiting for it. -/
theorem Chip.startHold_holds (c : Chip) (p : HostProg) (h : HoldOp) :
    ((c.setHost { p with phase := .heldOwner h, granted := false }).startHold h).holds h :=
  ⟨_, by rw [Chip.startHold_ap]; rfl, rfl⟩

/-- A burst inside one window arrives. -/
theorem State.HostFree.exec_burst {s : State} (hs : s.HostFree) {w : Window} {addr : Word} {ws : List WriteWord} (hne : ws ≠ [])
    (hw : ∀ k < ws.length, s.chip.windowOf (wrapAddr (addr.toNat + 4 * k)) = some w) :
    exec (.hostWrite (.write addr ws)) s = .next { s with
      chip := (s.chip.withHost none none).advance s.mem
        ⟨.write addr ws, addr.toNat, ws, some w, s.chip.windowBase w, false, .waiting .burst⟩ w ws } := by
  rw [hs.exec_hostWrite, Chip.arrive_window (s.chip.withHost none none) _ _ _ w hne hw]
  rfl

/-- What a burst from a free port comes to, by the first word with byte enables. -/
theorem burst_judged (s : State) (w : Window) (addr : Word) (skipped more : List WriteWord) (x : WriteWord) (hs : s.HostFree)
    (hw : ∀ k < skipped.length + 1 + more.length, s.chip.windowOf (wrapAddr (addr.toNat + 4 * k)) = some w)
    (hskip : ∀ z ∈ skipped, z.enables = 0) :
    let c := s.chip
    let i : Instr := .hostWrite (.write addr (skipped ++ x :: more))
    let ends (okay : Bool) := exec i s = .next { s with chip := c.answerHost okay [] }
    let p : HostProg := ⟨.write addr (skipped ++ x :: more), wrapAddr (addr.toNat + 4 * skipped.length), x :: more, some w, c.windowBase w,
      false, .waiting .merge⟩
    let goesOn (next : HostNext) := Completes i s fun t => s.Only [.ap] t ∧ t.chip.ap.host = some { p with phase := .waiting next }
    let partly := watched w (p.addr - p.base) = true ∧ x.enables ≠ allBytes
    ((∀ z ∈ x :: more, z.enables = 0) → ends true) ∧
    (x.enables ≠ 0 → partly → goesOn .merge) ∧
    (x.enables ≠ 0 → ¬ partly → match c.ownerAnswer s.mem w (p.addr - p.base) x.value with
      | .refuse => ends false
      | .pass => goesOn (.word x.value x.enables false)
      | .substitute u => goesOn (.word u allBytes true)
      | .hold h => if more = [] then Completes i s fun t => t.chip.holds h else ends false) := by
  intro c i ends p goesOn partly
  have hi : exec i s = .next { s with
      chip := (c.withHost none none).advance s.mem
        ⟨.write addr (skipped ++ x :: more), addr.toNat, skipped ++ x :: more, some w, c.windowBase w, false, .waiting .burst⟩ w
        (skipped ++ x :: more) } :=
    hs.exec_burst (by simp) fun k hk => hw k (by simpa [Nat.add_assoc, Nat.add_comm, Nat.add_left_comm] using hk)
  have hfirst : exec i s = .next { s with
      chip := (c.withHost none none).advance s.mem { p with phase := .waiting .burst } w (x :: more) } := by
    rw [hi, Chip.advance_skip _ _ _ _ _ _ _ addr.toNat (wrapAddr_toNat addr).symm hskip]
  have waits : ∀ next, exec i s = .next { s with chip := c.withHost (some { p with phase := .waiting next }) none } → goesOn next :=
    fun next h => ⟨_, h, ⟨⟨rfl, rfl, rfl, rfl⟩, c.withHost_only _ _⟩, rfl⟩
  refine ⟨fun hz => ?_, fun hx hp => ?_, fun hx hp => ?_⟩
  · show exec i s = _
    rw [hi, Chip.advance_none _ _ _ _ _ (fun z hz' => (List.mem_append.mp hz').elim (hskip z) (hz z)), Chip.withHost_answerHost]
  · refine waits _ ?_
    rw [hfirst, Chip.advance_partly _ _ { p with phase := .waiting .burst } _ _ _ hx hp.1 hp.2]
    rfl
  · have hasked : exec i s = .next { s with
        chip := (c.withHost none none).carryOut { p with phase := .waiting .burst } x.enables x.value more.isEmpty
          (c.ownerAnswer s.mem w (p.addr - p.base) x.value) } := by
      rw [hfirst, Chip.advance_asked _ _ { p with phase := .waiting .burst } _ _ _ hx fun h => not_not.mp fun hne => hp ⟨h, hne⟩]
      rfl
    cases ha : c.ownerAnswer s.mem w (p.addr - p.base) x.value with
    | refuse => rw [ha] at hasked; exact hasked
    | pass => rw [ha] at hasked; exact waits _ hasked
    | substitute u => rw [ha] at hasked; exact waits _ hasked
    | hold h =>
      rw [ha] at hasked
      cases more with
      | nil => exact ⟨_, hasked, Chip.startHold_holds _ _ h⟩
      | cons y more => exact hasked

/-- What the answer to a stored word comes to, by the next word with byte enables. -/
theorem stored_word_answered (s : State) (p : HostProg) (op : StoreOp) (w : Window) (v : Word) (e : BitVec 4) (subst : Bool)
    (hs : s.prompt = false) (hport : s.arb.port = .host op) (hhost : s.chip.ap.host = some p) (hg : p.granted = true)
    (hwin : p.window = some w) (hphase : p.phase = .waiting (.word v e subst)) :
    let m := op.effect s.mem
    let c := s.chip.ownerAction m w (p.addr - p.base) v subst
    let ends (okay : Bool) := Completes (.storeAnswer true) s fun t => t.mem = m ∧ t.arb.port = .idle ∧ t.chip = c.answerHost okay []
    (Completes (.storeAnswer false) s fun t =>
      t.mem = s.mem ∧ t.arb.port = .idle ∧ t.chip = s.chip.answerHost false []) ∧
    ((∀ z ∈ p.rest.drop 1, z.enables = 0) → ends true) ∧
    ∀ (skipped more : List WriteWord) (x : WriteWord), p.rest.drop 1 = skipped ++ x :: more → (∀ z ∈ skipped, z.enables = 0) →
      x.enables ≠ 0 →
      let addr := wrapAddr (p.addr + 4 * (skipped.length + 1))
      let goesOn (next : HostNext) (op' : StoreOp) := Completes (.storeAnswer true) s fun t => t.mem = m ∧
        t.arb.port = .host op' ∧ t.chip = c.setHost { p with addr := addr, rest := x :: more, phase := .waiting next }
      if watched w (addr - p.base) = true ∧ x.enables ≠ allBytes then goesOn .merge (.read addr 4 1)
      else match c.ownerAnswer m w (addr - p.base) x.value with
        | .refuse => ends false
        | .pass => goesOn (.word x.value x.enables false) (.write addr [x])
        | .substitute u => goesOn (.word u allBytes true) (.write addr [⟨u, allBytes⟩])
        | .hold h => if more = [] then Completes (.storeAnswer true) s fun t => t.mem = m ∧ t.arb.port = .idle ∧ t.chip.holds h
          else ends false := by
  intro m c ends
  have hans : ∀ okay, exec (.storeAnswer okay) s = .next (State.afterHost { s with
      mem := op.answered s.mem okay
      chip := s.chip.hostAnswered (op.answered s.mem okay) okay (op.data s.mem) }) := fun okay => by
    rw [exec_storeAnswer s okay hs, State.answer_of_host hport]
  have herr : ∀ m' data, s.chip.hostAnswered m' false data = s.chip.answerHost false [] := fun m' data => by
    unfold Chip.hostAnswered
    simp [hhost, hphase]
  have hok : ∀ data, s.chip.hostAnswered m true data = c.advance m
      { p with addr := wrapAddr (p.addr + 4), rest := p.rest.drop 1 } w (p.rest.drop 1) := fun data => by
    unfold Chip.hostAnswered
    simp [hhost, hphase, hwin, c]
  have finishes : ∀ d : Chip, d.ap.host = none → s.chip.hostAnswered m true (op.data s.mem) = d →
      Completes (.storeAnswer true) s fun t => t.mem = m ∧ t.arb.port = .idle ∧ t.chip = d := fun d hd heq =>
    ⟨_, hans true, by rw [State.afterHost_of_none ((congrArg (fun d : Chip => d.ap.host) heq).trans hd)]; exact ⟨rfl, rfl, heq⟩⟩
  have hfail := herr (op.answered s.mem false) (op.data s.mem)
  refine ⟨⟨_, hans false, ?_⟩, fun hz => ?_, fun skipped more x hrest hskip hx => ?_⟩
  · rw [State.afterHost_of_none (congrArg (fun d : Chip => d.ap.host) hfail)]
    exact ⟨rfl, rfl, hfail⟩
  · exact finishes _ rfl ((hok _).trans (Chip.advance_none _ _ _ _ _ hz))
  · intro addr goesOn
    have haddr : wrapAddr (p.addr + 4 + 4 * skipped.length) = addr := congrArg wrapAddr (by omega)
    have hadv : s.chip.hostAnswered m true (op.data s.mem) = c.advance m { p with addr := addr, rest := x :: more } w (x :: more) := by
      rw [hok, hrest, Chip.advance_skip _ _ _ _ _ _ _ (p.addr + 4) rfl hskip, haddr]
    have goes : ∀ next op', HostProg.nextOp { p with addr := addr, rest := x :: more, phase := .waiting next } = some op' →
        s.chip.hostAnswered m true (op.data s.mem) =
          c.setHost { p with addr := addr, rest := x :: more, phase := .waiting next } → goesOn next op' := fun next op' hn heq => by
      refine ⟨_, hans true, ?_⟩
      rw [State.afterHost_of_next (p := { p with addr := addr, rest := x :: more, phase := .waiting next })
        (congrArg (fun d : Chip => d.ap.host) heq) hg hn]
      exact ⟨rfl, rfl, heq⟩
    split
    · next hp => exact goes _ _ rfl (hadv.trans (Chip.advance_partly _ _ _ _ _ _ hx hp.1 hp.2))
    · next hp =>
      have hasked := hadv.trans (Chip.advance_asked _ _ _ _ _ _ hx fun h => not_not.mp fun hne => hp ⟨h, hne⟩)
      unfold Chip.askOwner at hasked
      dsimp only at hasked
      cases ha : c.ownerAnswer m w (addr - p.base) x.value with
      | refuse => rw [ha] at hasked; exact finishes _ rfl hasked
      | pass => rw [ha] at hasked; exact goes _ _ rfl hasked
      | substitute u => rw [ha] at hasked; exact goes _ _ rfl hasked
      | hold h =>
        rw [ha] at hasked
        cases more with
        | nil =>
          refine ⟨_, hans true, ?_⟩
          have hheld := Chip.startHold_holds c { p with addr := addr, rest := [x] } h
          rw [State.afterHost_of_held (p := { p with addr := addr, rest := [x], phase := .heldOwner h, granted := false })
            (by show (s.chip.hostAnswered m true (op.data s.mem)).ap.host = _; rw [hasked]; exact congrArg ApState.host (Chip.startHold_ap _ _)) rfl]
          exact ⟨rfl, rfl, by show (s.chip.hostAnswered m true (op.data s.mem)).holds h; rw [hasked]; exact hheld⟩
        | cons y more => exact finishes _ rfl hasked

/-- HOST_WRITE is a host access. -/
theorem exec_hostWrite_is_host (s : State) (a : HostAccess) :
    exec (.hostWrite a) s = .next (s.host fun m c => c.hostAccess m a) := rfl

/-- What the partial write of a watched word comes to once the store's word has been read. -/
theorem merged_word_judged (s : State) (w : Window) (addr v : Word) (e : BitVec 4) (hs : s.HostNext)
    (hw : s.chip.windowOf addr.toNat = some w) :
    let off := addr.toNat - s.chip.windowBase w
    let merged := mergeWord (readWord s.mem addr.toNat) v e
    watched w off = true → e ≠ 0 → e ≠ allBytes → CompletesStored (.hostWrite (.write addr [⟨v, e⟩])) s fun t => t.mem = s.mem ∧
      match s.chip.ownerAnswer s.mem w off merged with
      | .refuse => s.chip.Only [.ap] t.chip ∧ t.chip.ap.answer = some ⟨false, []⟩ ∧ t.chip.ap.host = none ∧ t.arb.port = .idle
      | .pass => s.chip.Only [.ap] t.chip ∧ t.arb.port = .host (.write addr.toNat [⟨merged, e⟩])
      | .substitute u => s.chip.Only [.ap] t.chip ∧ t.arb.port = .host (.write addr.toNat [⟨u, allBytes⟩])
      | .hold h => t.chip.holds h ∧ t.arb.port = .idle := by
  intro off merged hp he hne
  refine hs.word_merged (exec_hostWrite_is_host s _) hw he hp hne fun k => ?_
  cases ha : s.chip.ownerAnswer s.mem w off merged with
  | refuse => exact ⟨rfl, s.chip.withHost_only _ _, rfl, rfl, rfl⟩
  | pass => exact ⟨rfl, s.chip.withHost_only _ _, rfl⟩
  | substitute u => exact ⟨rfl, s.chip.withHost_only _ _, rfl⟩
  | hold h =>
    let p := s.chip.wordProg w addr v e true (.waiting .merge)
    let d := ((s.chip.storing w addr v e .merge).setHost { p with phase := .heldOwner h, granted := false }).startHold h
    have hd : d.holds h := Chip.startHold_holds (s.chip.storing w addr v e .merge) p h
    have hhost : d.ap.host = some { p with phase := .heldOwner h, granted := false } :=
      congrArg ApState.host (Chip.startHold_ap _ h)
    have hafter := State.afterHost_of_held (s := { s with
      chip := d
      arb := { s.arb with streak := k, port := .host (.read addr.toNat 4 1) } }) hhost rfl
    exact hafter.symm ▸ ⟨rfl, hd, rfl⟩

/-- A word that its owner passes and does not act on: which they are. -/
def Chip.plainWord (c : Chip) (w : Window) (off : Nat) : Prop :=
  match w with
  | .setup => off = 0x104 ∨ off = 0x108
  | .journal => off < 624 ∧ off % 48 ≠ 44 ∧ c.su.unitState ≠ .rebuilding ∧ c.cu.day.state.frozen = false
  | .screens => 49152 ≤ off
  | .broadcast => 160 ≤ off
  | .print => 4096 ≤ off ∨ (off % 128 ≠ 0 ∧ ∀ (n : Fin 4) (x : Fin 8), n.val = off / 1024 → x.val = off / 128 % 8 →
      c.slotStatus n x ≠ .queued ∧ c.slotStatus n x ≠ .printing)
  | _ => False

/-- PRU does not act on a word but word 0 of a slot. -/
theorem Chip.printAction_plain (c : Chip) (m : List Host.Cell) {off : Nat} (v : Word) (subst : Bool)
    (h : 4096 ≤ off ∨ off % 128 ≠ 0) : c.ownerAction m .print off v subst = c := by
  unfold Chip.ownerAction
  dsimp only
  split
  · next n x hn hx =>
    have hlt : off < 4096 := by
      unfold finOf at hn
      split at hn
      · omega
      · cases hn
    rw [if_neg (by simpa using h.resolve_left (by omega))]
  · rfl

/-- A plain word is not watched, is passed, and is not acted on. -/
theorem Chip.plainWord_passed {c : Chip} {w : Window} {off : Nat} (h : c.plainWord w off) (hoff : off % 4 = 0) :
    watched w off = false ∧ (∀ m v, c.ownerAnswer m w off v = .pass) ∧
      ∀ (d : Chip) m v subst, d.ownerAction m w off v subst = d := by
  cases w with
  | setup =>
    have hset : settingAtOffset off = none := settingAtOffset_eq_none (by unfold Chip.plainWord at h; omega)
    obtain rfl | rfl : off = 0x104 ∨ off = 0x108 := h
    · exact ⟨rfl, fun m v => rfl, fun d m v subst => rfl⟩
    · exact ⟨rfl, fun m v => rfl, fun d m v subst => rfl⟩
  | journal =>
    obtain ⟨hlt, h44, hu, hf⟩ := h
    refine ⟨by simp [watched, h44], fun m v => (c.journalAnswer_eq off v).trans ?_, fun d m v subst => rfl⟩
    rw [if_neg (by rw [hf]; rintro (h | h | h); exacts [absurd h (by omega), hu h, absurd h (by decide)]), dif_neg fun h => h44 h.1]
  | totals => exact absurd h id
  | screens =>
    have h12 : ¬ off / 4096 < 12 := by unfold Chip.plainWord at h; omega
    refine ⟨by simp [watched, h12], fun m v => (screensAnswer_eq off v).trans (if_pos (.inl h)), fun d m v subst => ?_⟩
    unfold Chip.ownerAction finOf
    dsimp only
    rw [dif_neg h12]
  | broadcast =>
    have h160 : ¬ off < 160 := Nat.not_lt.mpr h
    exact ⟨rfl, fun m v => rfl, fun d m v subst => if_neg h160⟩
  | print =>
    obtain hpast | ⟨h128, hfree⟩ := h
    · have hlt : ¬ off < 4096 := Nat.not_lt.mpr hpast
      exact ⟨by simp [watched, hlt], fun m v => c.printAnswer_past v hpast, fun d m v subst => d.printAction_plain m v subst (.inl hpast)⟩
    · refine ⟨by simp [watched, h128], fun m v => ?_, fun d m v subst => d.printAction_plain m v subst (.inr h128)⟩
      obtain hlt | hpast := Nat.lt_or_ge off 4096
      · have hsum : off = 1024 * (⟨off / 1024, by omega⟩ : Fin 4).val + 128 * (⟨off / 128 % 8, by omega⟩ : Fin 8).val +
            4 * (⟨off % 128 / 4, by omega⟩ : Fin 32).val := by dsimp only; omega
        obtain ⟨hq, hpr⟩ := hfree ⟨off / 1024, by omega⟩ ⟨off / 128 % 8, by omega⟩ rfl rfl
        have hk : (⟨off % 128 / 4, by omega⟩ : Fin 32) ≠ 0 := fun hk => by
          have := congrArg Fin.val hk
          simp only [Fin.val_zero] at this
          omega
        have hans := c.printAnswer_slot ⟨off / 1024, by omega⟩ ⟨off / 128 % 8, by omega⟩ ⟨off % 128 / 4, by omega⟩ v
        rw [if_neg (by tauto), if_pos (.inl hk), ← hsum] at hans
        exact hans
      · exact c.printAnswer_past v hpast
  | report => exact absurd h id

/-- A plain word is stored under its byte enables, and nothing else changes. -/
theorem plain_word_stored {s : State} {w : Window} {addr v : Word} {e : BitVec 4} (hs : s.HostNext)
    (hw : s.chip.windowOf addr.toNat = some w) (hoff : (addr.toNat - s.chip.windowBase w) % 4 = 0)
    (h : s.chip.plainWord w (addr.toNat - s.chip.windowBase w)) (he : e ≠ 0) :
    CompletesStored (.hostWrite (.write addr [⟨v, e⟩])) s fun t =>
      t.mem = writeWord s.mem addr.toNat ⟨v, e⟩ ∧ t.chip.ap.answer = some ⟨true, []⟩ ∧ t.chip.ap.host = none ∧
      t.arb.port = .idle ∧ s.chip.Only [.ap] t.chip := by
  obtain ⟨hnw, hpass, hact⟩ := Chip.plainWord_passed h hoff
  refine hs.word_stored (exec_hostWrite_is_host s _) hw he (by simp [hnw]) (by rw [hpass]; rfl) fun k => ?_
  rw [hact]
  exact ⟨rfl, rfl, rfl, rfl, s.chip.withHost_only _ _⟩

/-- The base of a window is a page's first byte. -/
theorem Chip.windowBase_mod (c : Chip) (w : Window) : c.windowBase w % 4 = 0 := by
  have page : ∀ x : Nat, x * 4096 % 4 = 0 := fun x => by omega
  cases w <;> exact page _

/-- Settles O26: the owners' answers, a burst as it arrives and as it goes on, a merged word, and a plain word. -/
theorem hostWordsJudged : Obligations.HostWordsJudged := by
  refine ⟨owners_answer, burst_judged, stored_word_answered, merged_word_judged, fun s w addr v e hs hw ha => ?_⟩
  intro off plain h he
  have hbase := s.chip.windowBase_mod w
  exact plain_word_stored hs hw (by omega) (by unfold Chip.plainWord; exact h) he

end Sys2Proof.Machine
end

section
/-! PROOF. Host writes of single words with an action of their own (O25). -/

namespace Sys2Proof.Machine

/-! ### The word a command writes -/

/-- The base of a window of the table is its placement's (R2). -/
theorem Chip.windowBase_windowAt (c : Chip) : ∀ i : Fin 6, c.windowBase (windowAt i) = (c.placement i).base * 4096
  | 0 => rfl | 1 => rfl | 2 => rfl | 3 => rfl | 4 => rfl | 5 => rfl

/-- A word in a window stands at or past the window's base. -/
theorem Chip.windowBase_le {c : Chip} {a : Nat} {w : Window} (h : c.windowOf a = some w) : c.windowBase w ≤ wrapAddr a := by
  have hpage : pageOf a * 4096 ≤ wrapAddr a := Nat.div_mul_le_self _ _
  have hfrom : ∀ l, c.windowFrom (pageOf a) l = some w → c.windowBase w ≤ pageOf a * 4096 := by
    intro l
    induction l with
    | nil => intro h; cases h
    | cons i rest ih =>
      intro h
      unfold Chip.windowFrom at h
      split at h
      · next hc =>
        have hle : (c.placement i).base ≤ pageOf a := by
          simp only [Placement.covers, Bool.and_eq_true, decide_eq_true_eq] at hc
          exact hc.2.1
        cases h
        rw [c.windowBase_windowAt i]
        exact Nat.mul_le_mul_right _ hle
      · exact ih h
  unfold Chip.windowOf at h
  split at h
  · next hp =>
    have hp' : pageOf a = c.ap.setupPage := by simpa using hp
    cases h
    show c.ap.setupPage * 4096 ≤ _
    rw [← hp']
    exact hpage
  · exact le_trans (hfrom _ h) hpage

/-- The offset of a word of a window's layout that the host reaches (R4). -/
theorem Chip.offset_of_reaches {c : Chip} {w : Window} {off : Nat} (h : c.windowOf (wrapAddr (c.windowBase w + off)) = some w)
    (hoff : off < Config.wordModulus) : (wd (c.windowBase w + off)).toNat - c.windowBase w = off := by
  have hle := c.windowBase_le h
  rw [wrapAddr_wrapAddr] at hle
  rw [toNat_wd]
  unfold wrapAddr Config.wordModulus at *
  omega

/-- A command that writes one word of a window's layout which the host reaches. -/
theorem State.HostFree.exec_writeIn {s : State} (hs : s.HostFree) {i : Instr} {w : Window} {v : Word} {e : BitVec 4} {off : Nat}
    {addr : Chip → Nat} (hi : exec i s = .next (s.host fun m c => c.writeIn m w (addr c) v e))
    (ha : addr s.chip = s.chip.windowBase w + off) (hw : s.chip.windowOf (wrapAddr (addr s.chip)) = some w) :
    exec i s = .next (s.host fun m c => c.hostAccess m (.write (wd (s.chip.windowBase w + off)) [⟨v, e⟩])) := by
  rw [hi, State.host_of_not_prompt _ _ hs.prompt, State.host_of_not_prompt _ _ hs.prompt]
  unfold Chip.writeIn
  rw [if_pos (by simp [hw]), ha]

/-- A word of a window's layout that a command writes from a free port, the host reaching it. -/
structure State.Writes (s : State) (i : Instr) (w : Window) (off : Nat) (v : Word) (e : BitVec 4) : Prop where
  command : exec i s = .next (s.host fun m c => c.hostAccess m (.write (wd (s.chip.windowBase w + off)) [⟨v, e⟩]))
  window : s.chip.windowOf (wd (s.chip.windowBase w + off)).toNat = some w
  offset : (wd (s.chip.windowBase w + off)).toNat - s.chip.windowBase w = off

/-- A command of `writeIn` writes the word at its offset. -/
theorem State.HostFree.writes {s : State} (hs : s.HostFree) {i : Instr} {w : Window} {v : Word} {e : BitVec 4} {off : Nat}
    {addr : Chip → Nat} (hi : exec i s = .next (s.host fun m c => c.writeIn m w (addr c) v e))
    (ha : addr s.chip = s.chip.windowBase w + off) (hw : s.chip.windowOf (wrapAddr (addr s.chip)) = some w)
    (hoff : off < Config.wordModulus) : s.Writes i w off v e where
  command := hs.exec_writeIn hi ha hw
  window := by rw [toNat_wd, ← ha]; exact hw
  offset := Chip.offset_of_reaches (ha ▸ hw) hoff

/-- Written without byte enables, the word is left and the host has OKAY (R10). -/
theorem State.Writes.noEnables {s : State} {i : Instr} {w : Window} {off : Nat} {v : Word} (h : s.Writes i w off v 0) (hs : s.HostFree) :
    exec i s = .next { s with chip := s.chip.answerHost true [] } :=
  hs.exec_word_none h.command h.window

/-- Refused by its owner, it ends the access with ERROR (R8). -/
theorem State.Writes.refused {s : State} {i : Instr} {w : Window} {off : Nat} {v : Word} {e : BitVec 4} (h : s.Writes i w off v e)
    (hs : s.HostFree) (he : e ≠ 0) (hp : watched w off = true → e = allBytes) (ha : s.chip.ownerAnswer s.mem w off v = .refuse) :
    exec i s = .next { s with chip := s.chip.answerHost false [] } :=
  hs.exec_word_refused h.command h.window he (by rwa [h.offset]) (by rwa [h.offset])

/-- Held by its owner, it starts the operation (R12). -/
theorem State.Writes.held {s : State} {i : Instr} {w : Window} {off : Nat} {v : Word} {e : BitVec 4} {x : HoldOp} (h : s.Writes i w off v e)
    (hs : s.HostFree) (he : e ≠ 0) (hp : watched w off = true → e = allBytes) (ha : s.chip.ownerAnswer s.mem w off v = .hold x) :
    exec i s = .next { s with chip := (s.chip.withHost
      (some (s.chip.wordProg w (wd (s.chip.windowBase w + off)) v e false (.heldOwner x))) none).startHold x } :=
  hs.exec_word_held h.command h.window he (by rwa [h.offset]) (by rwa [h.offset])

/-- Passed or substituted, it is stored, and its owner acts on it (R7, R9): `d` is the part with the access in progress. -/
theorem State.Writes.stored {s : State} {i : Instr} {w : Window} {off : Nat} {v x : Word} {e f : BitVec 4} {subst : Bool} {P : State → Prop}
    (h : s.Writes i w off v e) (hs : s.HostNext) (he : e ≠ 0) (hp : watched w off = true → e = allBytes)
    (ha : (s.chip.ownerAnswer s.mem w off v).stored v e = some (x, f, subst))
    (hP : ∀ k p m, m = writeWord s.mem (wrapAddr (s.chip.windowBase w + off)) ⟨x, f⟩ → P { s with
      mem := m
      chip := ((s.chip.withHost (some p) none).ownerAction m w off x subst).answerHost true []
      arb := { s.arb with streak := k, port := .idle } }) : CompletesStored i s P := by
  refine hs.word_stored h.command h.window he (by rwa [h.offset]) (by rwa [h.offset]) fun k => ?_
  rw [h.offset]
  exact hP k _ _ (by rw [toNat_wd])

/-! ### What the owners do -/

/-- SU takes the read index and clears the overflow flag (R35). -/
theorem Chip.readIndexTaken_eq (c : Chip) (v : Nat) : c.readIndexTaken v = { c with
    su := { c.su with readIndex := v, overflow := false }
    own := if c.su.overflow = true then vupd c.own rSU (· ++ [⟨.write (c.setupAddr 0x144) [0], .silent, false⟩]) else c.own } := by
  unfold Chip.readIndexTaken
  by_cases h : c.su.overflow = true
  · rw [if_pos h]
    exact if_pos h
  · have hf : c.su.overflow = false := by simpa using h
    rw [if_neg h, ← hf]
    exact if_neg h

/-- Two changes of one entry are one. -/
theorem vupd_vupd {α : Type} {n : Nat} (v : Vector α n) (i : Fin n) (f g : α → α) :
    vupd (vupd v i f) i g = vupd v i fun x => g (f x) := by
  unfold vupd
  simp

/-- Changes that agree at the entry make the same vector. -/
theorem vupd_congr {α : Type} {n : Nat} (v : Vector α n) (i : Fin n) (f g : α → α) (h : f v[i.val] = g v[i.val]) :
    vupd v i f = vupd v i g := by
  unfold vupd
  rw [h]

/-- The controller takes a screen's key read index, clears the overflow flag, and writes the key write index word of a present
screen where the flag was set (R129). -/
theorem Chip.keyReadIndexTaken_eq (c : Chip) (p : Fin 12) (v : Nat) : c.keyReadIndexTaken p v = { c with
    slc := { c.slc with drops := vupd c.slc.drops p fun x => { x with readIndex := v, overflow := false } }
    own := if (c.drop p).overflow = true ∧ c.screenPresent p = true then
      vupd c.own (rSLC (lineOf p)) (· ++ [⟨.keyWord p (c.screenAddr p 4016), .plain, false⟩]) else c.own } := by
  unfold Chip.keyReadIndexTaken
  dsimp only
  rw [Chip.drop_onDrop_same]
  by_cases ho : (c.drop p).overflow = true
  · refine (if_pos ho).trans ?_
    have hd : ((c.onDrop p fun x => { x with readIndex := v }).onDrop p fun x => { x with overflow := false }) =
        c.onDrop p fun x => { x with readIndex := v, overflow := false } := by
      unfold Chip.onDrop
      rw [vupd_vupd]
    rw [hd]
    unfold Chip.writeKeyWord
    by_cases hs : c.screenPresent p = true
    · refine (if_pos hs).trans ?_
      rw [if_pos ⟨ho, hs⟩]
      rfl
    · refine (if_neg hs).trans ?_
      rw [if_neg fun h => hs h.2]
      rfl
  · refine (if_neg ho).trans ?_
    rw [if_neg fun h => ho h.1]
    unfold Chip.onDrop
    rw [vupd_congr c.slc.drops p _ (fun x => { x with readIndex := v, overflow := false })
      (by rw [← show (c.slc.drops[p.val]).overflow = false from Bool.eq_false_iff.mpr ho])]

/-- An entry of a vector made from a list. -/
theorem vofList_get {α : Type} (n : Nat) (d : α) (l : List α) (i : Nat) (h : i < n) : (vofList n d l)[i] = l.getD i d := by
  have hi : ((l ++ List.replicate n d).take n)[i]? = some (l.getD i d) := by
    rw [List.getElem?_take_of_lt h, List.getD_eq_getElem?_getD]
    obtain hl | hl := Nat.lt_or_ge i l.length
    · rw [List.getElem?_append_left hl, List.getElem?_eq_getElem hl]; rfl
    · rw [List.getElem?_append_right hl, List.getElem?_eq_none hl, List.getElem?_replicate_of_lt (by omega)]; rfl
  exact Option.some.inj ((List.getElem?_eq_getElem _).symm.trans hi)

/-- The rows, in order. -/
theorem rows_eq : rows = List.finRange 25 := by decide

/-- A row in a set given by a test. -/
@[simp] theorem hasRow_rowSet (f : Fin 25 → Bool) (r : Fin 25) : hasRow (rowSet f) r = f r := by
  rw [hasRow, rowSet, vofList_get, rows_eq]
  simp [List.getD_eq_getElem?_getD]

/-- Whether a write marks a row: not while it waits in the sweep set or is in flight unread (R99). -/
theorem Screen.marks_eq (s : Screen) (r : Fin 25) : s.marks r = !(hasRow s.sweep r || s.flight == some ⟨r, false⟩) := by
  unfold Screen.marks
  cases hf : s.flight with
  | none => simp
  | some f =>
    obtain ⟨row, begun⟩ := f
    have hrow : (some (⟨row, begun⟩ : InFlight) == some ⟨r, false⟩) = (row == r && !begun) := by
      rw [Bool.eq_iff_iff]
      simp
    rw [hrow]
    cases begun <;> simp [bne]

/-- A SETUP page word is written at its offset. -/
theorem Chip.setupAddr_eq (c : Chip) (off : Nat) : c.setupAddr off = c.windowBase .setup + off := rfl

/-- A screen's word is written at its offset in the window. -/
theorem Chip.screenAddr_eq (c : Chip) (p : Fin 12) (off : Nat) :
    c.screenAddr p off = c.windowBase .screens + (4096 * p.val + off) := Nat.add_assoc _ _ _

/-- A print slot's word is written at its offset in the window. -/
theorem Chip.printAddr_eq (c : Chip) (n : Fin 4) (x : Fin 8) (w : Nat) :
    c.printAddr n x w = c.windowBase .print + (1024 * n.val + 128 * x.val + 4 * w) := by
  unfold Chip.printAddr
  omega

/-- SCU's action on a word of a screen's page. -/
theorem Chip.screensAction_eq (c : Chip) (m : List Host.Cell) (p : Fin 12) (off : Nat) (v : Word) (subst : Bool) (hoff : off < 4096) :
    c.ownerAction m .screens (4096 * p.val + off) v subst =
      if off = 4020 then c.keyReadIndexTaken p v.toNat
      else if off < 3840 then c.markDirty p (Fin.ofNat 25 (off / 160)) else c := by
  have hd : (4096 * p.val + off) / 4096 = p.val := by omega
  have hm : (4096 * p.val + off) % 4096 = off := by omega
  unfold Chip.ownerAction finOf
  simp only [hd, hm, p.isLt, dif_pos, Fin.eta, beq_iff_eq]

/-- PRU's action on word 0 of a slot (R136). -/
theorem Chip.printAction_slot (c : Chip) (m : List Host.Cell) (n : Fin 4) (x : Fin 8) (v : Word) (subst : Bool) :
    c.ownerAction m .print (1024 * n.val + 128 * x.val + 4 * 0) v subst = c.setSlot n x .idle := by
  have hn : (1024 * n.val + 128 * x.val + 4 * 0) / 1024 = n.val := by omega
  have hx : (1024 * n.val + 128 * x.val + 4 * 0) / 128 % 8 = x.val := by omega
  have hz : (1024 * n.val + 128 * x.val + 4 * 0) % 128 = 0 := by omega
  unfold Chip.ownerAction finOf
  simp only [hn, hx, hz, n.isLt, x.isLt, dif_pos, Fin.eta, beq_self_eq_true, if_true]

/-! ### The statement -/

/-- A change of one entry leaves the others. -/
theorem sameBut_vupd {α : Type} {n : Nat} (v : Vector α n) (i : Fin n) (f : α → α) : SameBut i v (vupd v i f) :=
  fun j hj => vupd_get_ne v i j f hj

/-- The report read index (R35). -/
theorem reportReadIndex_taken (s : State) (v : Word) (hs : s.HostNext) (hw : s.chip.SetupWord 0x148) :
    (63 < v.toNat → exec (.reportReadIndexWrite v allBytes) s = .next { s with chip := s.chip.answerHost false [] }) ∧
    (v.toNat ≤ 63 → CompletesStored (.reportReadIndexWrite v allBytes) s fun t =>
      t.chip.su = { s.chip.su with readIndex := v.toNat, overflow := false } ∧ t.chip.ap.answer = some ⟨true, []⟩ ∧
      t.mem = writeWord s.mem (wrapAddr (s.chip.setupAddr 0x148)) (whole v) ∧
      t.chip.own = (if s.chip.su.overflow = true then
        vupd s.chip.own rSU (· ++ [⟨.write (s.chip.setupAddr 0x144) [0], .silent, false⟩]) else s.chip.own) ∧
      s.chip.Only [.ap, .su, .own] t.chip) := by
  have hwr : s.Writes (.reportReadIndexWrite v allBytes) .setup 0x148 v allBytes := hs.toHostFree.writes rfl rfl hw (by decide)
  have hans : s.chip.ownerAnswer s.mem .setup 0x148 v = passIf (v.toNat ≤ 63) := rfl
  refine ⟨fun h => hwr.refused hs.toHostFree (by decide) (fun _ => rfl) ?_,
    fun h => hwr.stored hs (by decide) (fun _ => rfl) (x := v) (f := allBytes) (subst := false) ?_ fun k p m hm => ?_⟩
  · rw [hans, passIf, decide_eq_false (Nat.not_le.mpr h)]; rfl
  · rw [hans, passIf, decide_eq_true h]; rfl
  · have hact : ((s.chip.withHost (some p) none).ownerAction m .setup 0x148 v false) =
        (s.chip.withHost (some p) none).readIndexTaken v.toNat := rfl
    rw [hact, Chip.readIndexTaken_eq]
    exact ⟨rfl, rfl, hm, rfl, by constructor <;> simp⟩

/-- A screen's key read index (R129). -/
theorem keyReadIndex_taken (s : State) (p : Fin 12) (v : Word) (hs : s.HostNext)
    (hw : s.chip.HostReaches .screens (s.chip.screenAddr p 4020)) :
    (31 < v.toNat → exec (.keyReadIndexWrite p v allBytes) s = .next { s with chip := s.chip.answerHost false [] }) ∧
    (v.toNat ≤ 31 → CompletesStored (.keyReadIndexWrite p v allBytes) s fun t =>
      t.chip.drop p = { s.chip.drop p with readIndex := v.toNat, overflow := false } ∧ t.chip.ap.answer = some ⟨true, []⟩ ∧
      t.mem = writeWord s.mem (wrapAddr (s.chip.screenAddr p 4020)) (whole v) ∧
      (t.chip.drop p).keyWord = wd (s.chip.drop p).writeIndex ∧
      ((s.chip.drop p).overflow = false → t.chip.own = s.chip.own) ∧
      ((s.chip.drop p).overflow = true → s.chip.screenPresent p = true → t.chip.own =
        vupd s.chip.own (rSLC (lineOf p)) (· ++ [⟨.keyWord p (s.chip.screenAddr p 4016), .plain, false⟩])) ∧
      SameBut p s.chip.slc.drops t.chip.slc.drops ∧ t.chip.slc.lines = s.chip.slc.lines ∧
      s.chip.Only [.ap, .slc, .own] t.chip) := by
  have hwr : s.Writes (.keyReadIndexWrite p v allBytes) .screens (4096 * p.val + 4020) v allBytes :=
    hs.toHostFree.writes rfl (s.chip.screenAddr_eq p 4020) hw (by unfold Config.wordModulus; omega)
  have hans : s.chip.ownerAnswer s.mem .screens (4096 * p.val + 4020) v = if v.toNat ≤ 31 then .pass else .refuse :=
    (screensAnswer_eq _ v).trans (if_congr (by omega) rfl rfl)
  refine ⟨fun h => hwr.refused hs.toHostFree (by decide) (fun _ => rfl) (hans.trans (if_neg (Nat.not_le.mpr h))),
    fun h => hwr.stored hs (by decide) (fun _ => rfl) (x := v) (f := allBytes) (subst := false)
      (by rw [hans, if_pos h]; rfl) fun k q m hm => ?_⟩
  rw [Chip.screensAction_eq _ _ _ _ _ _ (by omega), if_pos rfl, Chip.keyReadIndexTaken_eq]
  have hdrop : (vupd s.chip.slc.drops p fun x => { x with readIndex := v.toNat, overflow := false })[p.val] =
      { s.chip.drop p with readIndex := v.toNat, overflow := false } := vupd_get_same _ _ _
  refine ⟨hdrop, rfl, by rw [s.chip.screenAddr_eq]; exact hm, ?_, fun ho => if_neg fun h => ?_, fun ho hp => if_pos ⟨ho, hp⟩,
    sameBut_vupd _ _ _, rfl, by constructor <;> simp⟩
  · exact (congrArg Drop.keyWord hdrop).trans rfl
  · exact absurd (ho.symm.trans h.1) (by decide)

/-- A word of a row of a screen (R99). -/
theorem screenRow_taken (s : State) (p : Fin 12) (word : Fin 960) (v : Word) (e : BitVec 4) (hs : s.HostNext)
    (hw : s.chip.HostReaches .screens (s.chip.screenAddr p (4 * word.val))) :
    (e = 0 → exec (.screenRowWrite p word v e) s = .next { s with chip := s.chip.answerHost true [] }) ∧
    (e ≠ 0 → CompletesStored (.screenRowWrite p word v e) s fun t =>
      t.mem = writeWord s.mem (wrapAddr (s.chip.screenAddr p (4 * word.val))) ⟨v, e⟩ ∧
      (let a := s.chip.screen p
       let b := t.chip.screen p
       b = { a with dirty := b.dirty } ∧ ∀ r : Fin 25, hasRow b.dirty r = (hasRow a.dirty r || (r.val == word.val / 40 &&
         !(hasRow a.sweep r || a.flight == some ⟨r, false⟩)))) ∧
      SameBut p s.chip.scu.screens t.chip.scu.screens ∧ t.chip.ap.answer = some ⟨true, []⟩ ∧ s.chip.Only [.ap, .scu] t.chip) := by
  have hwr : s.Writes (.screenRowWrite p word v e) .screens (4096 * p.val + 4 * word.val) v e :=
    hs.toHostFree.writes rfl (s.chip.screenAddr_eq p (4 * word.val)) hw (by unfold Config.wordModulus; omega)
  refine ⟨fun he => by subst he; exact hwr.noEnables hs.toHostFree, fun he =>
    hwr.stored hs he (fun h => ?_) (x := v) (f := e) (subst := false) ?_ fun k q m hm => ?_⟩
  · obtain ⟨-, h20⟩ : (4096 * p.val + 4 * word.val) / 4096 < 12 ∧ (4096 * p.val + 4 * word.val) % 4096 = 4020 := by
      simpa only [watched, Bool.and_eq_true, decide_eq_true_eq, beq_iff_eq] using h
    omega
  · exact congrArg (Answer.stored · v e) ((screensAnswer_eq _ v).trans (if_pos (by omega)))
  · rw [Chip.screensAction_eq _ _ _ _ _ _ (by omega), if_neg (by omega), if_pos (by omega)]
    have hb : ((((s.chip.withHost (some q) none).markDirty p (Fin.ofNat 25 (4 * word.val / 160))).answerHost true []).screen p) =
        (s.chip.screen p).dirtyRows (· == Fin.ofNat 25 (4 * word.val / 160)) := vupd_get_same _ _ _
    refine ⟨by rw [s.chip.screenAddr_eq]; exact hm, ?_, sameBut_vupd _ _ _, rfl, by constructor <;> simp⟩
    dsimp only
    rw [hb]
    refine ⟨rfl, fun r => ?_⟩
    have hr : (r == Fin.ofNat 25 (4 * word.val / 160)) = (r.val == word.val / 40) := by
      rw [Bool.eq_iff_iff]
      simp only [beq_iff_eq, Fin.ext_iff, Fin.val_ofNat]
      omega
    rw [Screen.dirtyRows, hasRow_rowSet, hr, Screen.marks_eq]

/-- A word of the master row (R115). -/
theorem masterRow_taken (s : State) (word : Fin 40) (v : Word) (e : BitVec 4) (hs : s.HostNext)
    (hw : s.chip.HostReaches .broadcast (s.chip.windowBase .broadcast + 4 * word.val)) :
    (e = 0 → exec (.masterRowWrite word v e) s = .next { s with chip := s.chip.answerHost true [] }) ∧
    (e ≠ 0 → CompletesStored (.masterRowWrite word v e) s fun t =>
      t.mem = writeWord s.mem (wrapAddr (s.chip.windowBase .broadcast + 4 * word.val)) ⟨v, e⟩ ∧
      t.chip.scu = { s.chip.scu with fan := { s.chip.scu.fan with start := true } } ∧ t.chip.ap.answer = some ⟨true, []⟩ ∧
      s.chip.Only [.ap, .scu] t.chip) := by
  have hwr : s.Writes (.masterRowWrite word v e) .broadcast (4 * word.val) v e :=
    hs.toHostFree.writes rfl rfl hw (by unfold Config.wordModulus; omega)
  refine ⟨fun he => by subst he; exact hwr.noEnables hs.toHostFree, fun he =>
    hwr.stored hs he (fun h => by cases h) (x := v) (f := e) (subst := false) rfl fun k q m hm => ?_⟩
  have hact : (s.chip.withHost (some q) none).ownerAction m .broadcast (4 * word.val) v false =
      (s.chip.withHost (some q) none).onFan fun f => { f with start := true } := if_pos (by omega)
  rw [hact]
  exact ⟨hm, rfl, rfl, by constructor <;> simp⟩

/-- IDLE written to a print slot (R136). -/
theorem printSlotIdle_taken (s : State) (n : Fin 4) (x : Fin 8) (hs : s.HostNext)
    (hw : s.chip.HostReaches .print (s.chip.printAddr n x 0)) :
    ((s.chip.slotStatus n x = .queued ∨ s.chip.slotStatus n x = .printing) →
      exec (.printSlotIdleWrite n x) s = .next { s with chip := s.chip.answerHost false [] }) ∧
    (s.chip.slotStatus n x ≠ .queued → s.chip.slotStatus n x ≠ .printing →
      CompletesStored (.printSlotIdleWrite n x) s fun t => t.mem = writeWord s.mem (wrapAddr (s.chip.printAddr n x 0)) (whole 0) ∧
        t.chip.printer n = { s.chip.printer n with slots := vput (s.chip.printer n).slots x .idle } ∧
        SameBut n s.chip.pru.printers t.chip.pru.printers ∧ t.chip.ap.answer = some ⟨true, []⟩ ∧
        s.chip.Only [.ap, .pru] t.chip) := by
  have hwr : s.Writes (.printSlotIdleWrite n x) .print (1024 * n.val + 128 * x.val + 4 * 0) 0 allBytes :=
    hs.toHostFree.writes rfl (s.chip.printAddr_eq n x 0) hw (by unfold Config.wordModulus; omega)
  have hans := s.chip.printAnswer_slot n x 0 0
  refine ⟨fun h => hwr.refused hs.toHostFree (by decide) (fun _ => rfl) (hans.trans (if_pos h)), fun hq hp =>
    hwr.stored hs (by decide) (fun _ => rfl) (x := 0) (f := allBytes) (subst := false) ?_ fun k q m hm => ?_⟩
  · exact congrArg (Answer.stored · 0 allBytes) (hans.trans ((if_neg (not_or.mpr ⟨hq, hp⟩)).trans (if_pos (.inr rfl))))
  · rw [Chip.printAction_slot]
    refine ⟨by rw [s.chip.printAddr_eq]; exact hm, ?_, sameBut_vupd _ _ _, rfl, by constructor <;> simp⟩
    exact vupd_get_same _ _ _

/-- Settles O25: each word through its owner's answer and action. -/
theorem hostWordsTaken : Obligations.HostWordsTaken :=
  ⟨reportReadIndex_taken, keyReadIndex_taken, screenRow_taken, masterRow_taken, printSlotIdle_taken⟩

end Sys2Proof.Machine
end

section
/-! PROOF. The formats of the store and of the links: what is written reads back (O13). -/

namespace Sys2Proof.Machine

/-! ### Bursts -/

/-- The first word of a burst of at most eight: the words after it do not reach it. -/
theorem readWord_writeWords_before (m : List Host.Cell) (a : Nat) (ws : List WriteWord) (h : ws.length < 8) :
    readWord (writeWords m (a + 4) ws) a = readWord m a := by
  have away (i : Nat) (hi : i < 4) : readByte (writeWords m (a + 4) ws) (wrapAddr (a + i)) = readByte m (wrapAddr (a + i)) := by
    refine readByte_writeWords_ne _ _ _ _ fun k hk => ?_
    unfold wrapAddr Config.wordModulus
    omega
  have h0 : readByte (writeWords m (a + 4) ws) (wrapAddr a) = readByte m (wrapAddr a) := away 0 (by omega)
  rw [readWord, readWord, h0, away 1 (by omega), away 2 (by omega), away 3 (by omega)]

/-- A burst of words in ascending order, the first word apart. -/
theorem readWords_succ (m : List Host.Cell) (a n : Nat) :
    readWords m a 4 (n + 1) = readWord m a :: readWords m (a + 4) 4 n := by
  rw [readWords, List.range_succ_eq_map, List.map_cons, List.map_map, readWords]
  congr 1
  refine List.map_congr_left fun i _ => ?_
  rw [Function.comp_apply, Nat.succ_eq_add_one, show a + 4 * (i + 1) = a + 4 + 4 * i by omega]

/-- A burst of whole words reads back as written. -/
theorem readWords_writeWords (m : List Host.Cell) (a : Nat) (ws : List Word) (hm : memWf m = true) (hl : ws.length ≤ 8) :
    readWords (writeWords m a (ws.map whole)) a 4 ws.length = ws := by
  induction ws generalizing m a with
  | nil => rfl
  | cons w rest ih =>
    rw [List.length_cons] at hl ⊢
    rw [List.map_cons, writeWords, readWords_succ, ih _ _ (memWf_writeWord _ _ _ hm) (by omega),
      readWord_writeWords_before _ _ _ (by rw [List.length_map]; omega), readWord_writeWord_whole _ _ _ hm]

/-! ### Records -/

/-- Two sixteen-bit members of a word (R195). -/
theorem field_halves (a b : Nat) (ha : a < 2 ^ 16) (hb : b < 2 ^ 16) :
    field (wd (a % 65536 + 65536 * (b % 65536))) 0 16 = a ∧ field (wd (a % 65536 + 65536 * (b % 65536))) 16 16 = b := by
  simp only [field, wd, BitVec.toNat_ofNat]
  omega

/-- A 64-bit field reads back as its two words. -/
theorem nat64_words (n : Nat) (h : n < 2 ^ 64) : nat64 (wd n) (wd (n / Config.wordModulus)) = n := by
  simp only [nat64, wd, BitVec.toNat_ofNat, Config.wordModulus]
  omega

/-- Ten counts one by one. -/
theorem counts_ext {v w : Vector Nat 10} (h : ∀ d : Fin 10, countAt v d = countAt w d) : v = w :=
  Vector.ext fun i hi => h ⟨i, hi⟩

/-- Ten counts as a list. -/
theorem counts_toList (v : Vector Nat 10) :
    v.toList = [v[0], v[1], v[2], v[3], v[4], v[5], v[6], v[7], v[8], v[9]] := by
  obtain ⟨⟨l⟩, hl⟩ := v
  match l, hl with
  | [_, _, _, _, _, _, _, _, _, _], _ => rfl

/-- Packed counts read back (R195). -/
theorem vofList_unpackHalves (v : Vector Nat 10) (h : ∀ d : Fin 10, countAt v d < 2 ^ 16) :
    vofList 10 0 (unpackHalves (packHalves v.toList)) = v := by
  have hd (i : Nat) (hi : i < 10) : v[i] < 2 ^ 16 := h ⟨i, hi⟩
  have pair (i j : Nat) (hi : i < 10) (hj : j < 10) := field_halves v[i] v[j] (hd i hi) (hd j hj)
  have hu : unpackHalves (packHalves v.toList) = v.toList := by
    rw [counts_toList]
    simp [packHalves, unpackHalves, pair]
  rw [hu]
  exact counts_ext fun d => by
    rw [countAt, vofList_get _ _ _ _ d.isLt, List.getD_eq_getElem _ _ (by simp)]
    exact Vector.getElem_toList _

/-- The members of word 1 of a record (Table 12-6). -/
theorem record_word1 (code position target : Nat) (book : Bool) (hc : code < 2 ^ 8) (hp : position < 2 ^ 4) (ht : target < 2 ^ 16) :
    let w := wd (code % 256 + 256 * (position % 16) + 4096 * flagBit book + 65536 * (target % 65536))
    field w 0 8 = code ∧ field w 8 4 = position ∧ field w 16 16 = target ∧ flagAt w 12 = book := by
  cases book <;> simp only [field, flagAt, wd, flagBit, BitVec.toNat_ofNat, beq_iff_eq, beq_eq_false_iff_ne] <;> simp <;> omega

/-- A journal record read from the words it is written as is that record. -/
theorem recordOfWords_words (r : JRecord) (hs : r.seq < 2 ^ 32) (hc : r.code < 2 ^ 8) (hp : r.position < 2 ^ 4)
    (ht : r.target < 2 ^ 16) (ha : r.amount < 2 ^ 64) (hr : r.reference < 2 ^ 32) (hacc : r.account < 2 ^ 32)
    (hn : ∀ d : Fin 10, countAt r.counts d < 2 ^ 16) (ho : r.original = none) : recordOfWords r.words = r := by
  obtain ⟨h1, h2, h3, h4⟩ := record_word1 r.code r.position r.target r.book hc hp ht
  have hcounts : vofList 10 0 (unpackHalves (((r.words).drop 6).take 5)) = r.counts := by
    rw [← vofList_unpackHalves r.counts hn]
    congr 2
    rw [JRecord.words, counts_toList]
    rfl
  have hw (n : Nat) (h : n < 2 ^ 32) : (wd n).toNat = n := by rw [wd, BitVec.toNat_ofNat, Nat.mod_eq_of_lt h]
  show JRecord.mk (wd r.seq).toNat (field (wd _) 0 8) (field (wd _) 8 4) (field (wd _) 16 16) (flagAt (wd _) 12)
    (nat64 (wd r.amount) (wd (r.amount / Config.wordModulus))) (wd r.reference).toNat (wd r.account).toNat
    (vofList 10 0 (unpackHalves ((r.words.drop 6).take 5))) none = r
  rw [h1, h2, h3, h4, hcounts, hw _ hs, hw _ hr, hw _ hacc, nat64_words _ ha, ← ho]

/-! ### The head-office line -/

/-- An escape is undone with the byte after it (R198). -/
theorem unstuff_escape (e : Byte) (rest : List Byte) (he : e ≠ 0x7E) :
    unstuff (0x7D :: e :: rest) = (unstuff rest).map (fun t => (e ^^^ 0x20) :: t) := by
  rw [unstuff, if_pos (beq_self_eq_true _), if_neg (by simpa using he)]

/-- A byte that is no escape is read as it is (R198). -/
theorem unstuff_plain (b : Byte) (rest : List Byte) (hb : b ≠ 0x7D) : unstuff (b :: rest) = (unstuff rest).map (b :: ·) := by
  cases rest with
  | nil => exact (if_neg (by simpa using hb)).trans rfl
  | cons e rest => rw [unstuff, if_neg (by simpa using hb)]

/-- What follows an escape byte is no flag (R198). -/
theorem escaped_ne_flag : ∀ b : Byte, (b == 0x7E || b == 0x7D) = true → b ^^^ 0x20 ≠ 0x7E := by decide

/-- Escaped bytes read back as they were. -/
theorem unstuff_stuff (bytes : List Byte) : unstuff (stuff bytes) = some bytes := by
  induction bytes with
  | nil => rfl
  | cons b rest ih =>
    have hrest : stuff (b :: rest) = (if b == 0x7E || b == 0x7D then [0x7D, b ^^^ 0x20] else [b]) ++ stuff rest := rfl
    rw [hrest]
    split
    · next h =>
      have hback : (b ^^^ 0x20) ^^^ 0x20 = b := by rw [BitVec.xor_assoc, BitVec.xor_self, BitVec.xor_zero]
      rw [List.cons_append, List.cons_append, List.nil_append, unstuff_escape _ _ (escaped_ne_flag b h), ih, hback]
      rfl
    · next h =>
      rw [List.singleton_append, unstuff_plain _ _ (by simp at h; exact h.2), ih]
      rfl

/-- No escaped byte is a flag (R198). -/
theorem stuff_ne_flag (bytes : List Byte) : ∀ b ∈ stuff bytes, b ≠ 0x7E := by
  intro b hb
  obtain ⟨x, -, hx⟩ := List.mem_flatMap.mp hb
  split at hx
  · next h =>
    obtain rfl | rfl : b = 0x7D ∨ b = x ^^^ 0x20 := by simpa using hx
    · decide
    · exact escaped_ne_flag x h
  · next h =>
    obtain rfl : b = x := by simpa using hx
    rintro rfl
    exact h (by decide)

/-- The CRC of a frame is two bytes. -/
@[simp] theorem crcBytes_length (bytes : List Byte) : (crcBytes bytes).length = 2 := rfl

/-- A payload and the CRC after it, taken apart by their lengths. -/
theorem payload_crc (payload crc : List Byte) (h : crc.length = 2) :
    (payload ++ crc).take ((payload ++ crc).length - 2) = payload ∧ (payload ++ crc).drop ((payload ++ crc).length - 2) = crc := by
  rw [List.length_append, h, Nat.add_sub_cancel]
  exact ⟨List.take_left, List.drop_left⟩

/-- The number in a byte. -/
theorem toNat_byte (n : Nat) (h : n < 256) : (BitVec.ofNat 8 n).toNat = n := by
  rw [BitVec.toNat_ofNat, Nat.mod_eq_of_lt h]

/-- A frame escaped is read as the frame its kind, link number and payload make (R179, R198). -/
theorem readHoFrame_stuff (kind link : Nat) (payload : List Byte) (hk : kind < 256) (hl : link < 256) (hp : payload.length ≤ 240) :
    readHoFrame (stuff (hoFrame kind link none payload)) = hoFrameOf kind link payload := by
  obtain ⟨htake, hdrop⟩ := payload_crc payload
    (crcBytes ([BitVec.ofNat 8 kind, BitVec.ofNat 8 link] ++ [] ++ [BitVec.ofNat 8 payload.length] ++ payload)) rfl
  have hframe : hoFrame kind link none payload = BitVec.ofNat 8 kind :: BitVec.ofNat 8 link :: BitVec.ofNat 8 payload.length ::
      (payload ++ crcBytes ([BitVec.ofNat 8 kind, BitVec.ofNat 8 link] ++ [] ++ [BitVec.ofNat 8 payload.length] ++ payload)) := rfl
  rw [hframe]
  simp only [readHoFrame, unstuff_stuff]
  rw [htake, hdrop, if_pos, toNat_byte _ hk, toNat_byte _ hl]
  rw [toNat_byte _ (by omega), List.length_append, crcBytes_length, Bool.and_eq_true]
  exact ⟨beq_self_eq_true _, beq_self_eq_true _⟩

/-- Bytes with no flag among them are one frame (R198). -/
theorem cutFlags_of_no_flag (a : List Byte) (h : ∀ x ∈ a, x ≠ 0x7E) : cutFlags a = [a] := by
  induction a with
  | nil => rfl
  | cons b rest ih =>
    rw [cutFlags, if_neg (by simpa using h b List.mem_cons_self), ih fun x hx => h x (List.mem_cons_of_mem _ hx)]

/-- A flag closes the frame before it (R198). -/
theorem cutFlags_flag (a b : List Byte) (h : ∀ x ∈ a, x ≠ 0x7E) : cutFlags (a ++ 0x7E :: b) = a :: cutFlags b := by
  induction a with
  | nil => rfl
  | cons x rest ih =>
    rw [List.cons_append, cutFlags, if_neg (by simpa using h x List.mem_cons_self),
      ih fun x hx => h x (List.mem_cons_of_mem _ hx)]

/-! ### The screen lines -/

/-- An answer with a drop's address is read as its type and payload make it, one with another drop's is damaged (R118). -/
theorem readAnswer_lineBytes (d e : Fin 4) (type : Nat) (payload : List Byte) (ht : type < 256) (hp : payload.length < 256) :
    readAnswer d (lineBytes e.val type payload) = if d = e then answerOf type payload else .damaged := by
  let body := [BitVec.ofNat 8 e.val, BitVec.ofNat 8 type, BitVec.ofNat 8 payload.length] ++ payload
  obtain ⟨htake, hdrop⟩ := payload_crc payload (crcBytes body) rfl
  have hframe : lineBytes e.val type payload = 0xA5 :: BitVec.ofNat 8 e.val :: BitVec.ofNat 8 type ::
      BitVec.ofNat 8 payload.length :: (payload ++ crcBytes body) := rfl
  rw [hframe]
  simp only [readAnswer, htake, hdrop]
  rw [toNat_byte _ (by omega), toNat_byte _ hp, toNat_byte _ ht, List.length_append, crcBytes_length]
  by_cases hde : d = e
  · rw [if_pos hde, if_pos]
    subst hde
    simp [body]
  · rw [if_neg hde, if_neg]
    have : ¬ e.val = d.val := fun h => hde (Fin.ext h.symm)
    simp [this]

/-- Settles O13. -/
theorem formatsReadBack : Obligations.FormatsReadBack :=
  ⟨fun m a ws hm hl => ⟨readWords_writeWords m a ws hm hl, fun b hb =>
      readByte_writeWords_ne m a b _ (by rw [List.length_map]; exact hb)⟩,
    fun r hs hc hp ht ha hr hacc hn ho => ⟨by rw [JRecord.words, counts_toList]; rfl,
      recordOfWords_words r hs hc hp ht ha hr hacc hn ho⟩,
    fun kind link payload hk hl hp => ⟨readHoFrame_stuff kind link payload hk hl hp, stuff_ne_flag _⟩,
    fun a b h => ⟨cutFlags_of_no_flag a h, cutFlags_flag a b h⟩,
    readAnswer_lineBytes⟩

end Sys2Proof.Machine
end

section
/-! PROOF. The resolution of the posting slots, by JU and by CU (O41). -/

namespace Sys2Proof.Machine

/-! ### Answers to own accesses -/

/-- The state after the answer to an own access that ends no request. -/
def State.answered (s : State) (u : Fin 9) (op : StoreOp) (tag : Tag) (okay : Bool) : State :=
  { s with
    mem := op.answered s.mem okay
    chip := s.chip.ownAnswered (op.answered s.mem okay) u tag okay op.addr (op.data s.mem)
    arb := { s.arb with port := .idle } }

/-- The unit that made an own access acts on its answer (R17). -/
theorem State.completes_answer {s : State} {u : Fin 9} {op : StoreOp} {tag : Tag} {P : State → Prop} (hp : s.prompt = false)
    (h : s.arb.port = .own u op tag false) (okay : Bool) (hP : P (s.answered u op tag okay)) : Completes (.storeAnswer okay) s P :=
  ⟨_, exec_storeAnswer s okay hp, by rw [State.answer_of_own h]; exact hP⟩

/-- The word of a burst of ascending words. -/
@[simp] theorem wordAt_readWords (m : List Host.Cell) (a n i : Nat) (h : i < n) : wordAt (readWords m a 4 n) i = readWord m (a + 4 * i) := by
  rw [wordAt, readWords, List.getD_eq_getElem _ _ (by simpa using h), List.getElem_map, List.getElem_range]

/-- A word read alone. -/
theorem wordAt_read_one (m : List Host.Cell) (a : Nat) : wordAt (StoreOp.data m (.read a 4 1)) 0 = readWord m a :=
  wordAt_readWords m a 1 0 Nat.one_pos

/-- A push changes the waiting accesses alone. -/
theorem Chip.push_only (c : Chip) (u : Fin 9) (op : OwnOp) (tag : Tag) (fin : Bool) : c.Only [.own] (c.push u op tag fin) := by
  constructor <;> simp [Chip.push]

/-- A report made with fewer than 16 waiting joins the list and changes nothing else (R33). -/
theorem Chip.report_of_room (c : Chip) (k : ReportKind) (i d : Nat) (h : c.su.reports.length < 16) :
    c.report k i d = { c with su := { c.su with reports := c.su.reports ++ [⟨k, i, d, c.su.ms⟩] } } := if_pos h

/-! ### By JU -/

/-- While the journal is usable the resolution goes on with a slot up to the thirteenth. -/
theorem Chip.resolveFrom_of_usable (c : Chip) {k : Nat} (base : Nat) (hk : k < 13) (hj : c.ap.journalUsable = true) :
    c.resolveFrom k base = c.push rJU (.read (base + 48 * k + 44) 4 1) (.slotRead k base) :=
  if_pos (by simp [hk, hj])

/-- The resolution ends after the thirteenth slot; a waiting commit starts when no other resolution is under way (R57). -/
theorem Chip.resolveFrom_thirteen (c : Chip) (base : Nat) : c.resolveFrom 13 base =
    (let d := c.onJu fun j => { j with resolving := j.resolving - 1 }
     match c.ju.posting with
     | some po => if c.ju.resolving - 1 = 0 ∧ po.phase = .waiting then d.readSlot po.slot else d
     | none => d) := by
  show (match c.ju.posting with | some po => _ | none => _) = _
  cases c.ju.posting with
  | none => rfl
  | some po =>
    have hcond : ((c.ju.resolving - 1 == 0) && po.phase == .waiting) = true ↔ c.ju.resolving - 1 = 0 ∧ po.phase = .waiting := by simp
    exact if_congr hcond rfl rfl

/-- An outcome read is rewritten LOST when it is IN_POSTING, and otherwise the resolution goes on. -/
theorem Chip.slotReadAnswered_okay (c : Chip) (k base addr : Nat) (data : List Word) (hj : c.ap.journalUsable = true) :
    c.slotReadAnswered k base true addr data = if field (wordAt data 0) 24 8 = 1
      then c.push rJU (.write addr [outcomeLost (field (wordAt data 0) 0 24)]) (.slotLost k base) else c.resolveFrom (k + 1) base := by
  show (if (true && field (wordAt data 0) 24 8 == 1 && c.ap.journalUsable) = true then _ else _) = _
  exact if_congr (by simp [hj]) rfl rfl

/-- The slots resolved by JU (R57). -/
theorem slotsResolved_ju (s : State) (k base addr : Nat) (hp : s.prompt = false) (hj : s.chip.ap.journalUsable = true) :
    let c := s.chip
    let asks (o : OwnOp) (tag : Tag) : Vector (List OwnReq) 9 := vupd c.own rJU (· ++ [⟨o, tag, false⟩])
    let next : Vector (List OwnReq) 9 := asks (.read (base + 48 * (k + 1) + 44) 4 1) (.slotRead (k + 1) base)
    (s.arb.port = .own rJU (.read addr 4 1) (.slotRead k base) false →
      let w := readWord s.mem addr
      (field w 24 8 = 1 → Completes (.storeAnswer true) s fun t => s.chip.Only [.own] t.chip ∧
        t.chip.own = asks (.write addr [outcomeLost (field w 0 24)]) (.slotLost k base)) ∧
      (field w 24 8 ≠ 1 → k < 12 → Completes (.storeAnswer true) s fun t => s.chip.Only [.own] t.chip ∧ t.chip.own = next) ∧
      (k < 12 → c.su.reports.length < 16 → Completes (.storeAnswer false) s fun t => t.mem = s.mem ∧ t.chip.own = next)) ∧
    ∀ op, s.arb.port = .own rJU op (.slotLost k base) false →
      (k < 12 → Completes (.storeAnswer true) s fun t => s.chip.Only [.own] t.chip ∧ t.chip.own = next) ∧
      (k = 12 → Completes (.storeAnswer true) s fun t => t.chip.ju.resolving = c.ju.resolving - 1 ∧
        ((∀ po, c.ju.posting = some po → po.phase ≠ .waiting) → t.chip.own = c.own) ∧
        ∀ po, c.ju.posting = some po → po.phase = .waiting → c.ju.resolving = 1 →
          t.chip.ju.posting = some { po with phase := .running } ∧
          t.chip.own = asks (.read (c.slotAddr po.slot.val 0) 4 8) (.post .readA)) := by
  intro c asks next
  have goesOn (hk : k < 12) : c.resolveFrom (k + 1) base = c.push rJU (.read (base + 48 * (k + 1) + 44) 4 1) (.slotRead (k + 1) base) :=
    c.resolveFrom_of_usable base (by omega) hj
  refine ⟨fun h => ⟨fun hw => ?_, fun hw hk => ?_, fun hk hr => ?_⟩, fun op h => ⟨fun hk => ?_, fun hk => ?_⟩⟩
  · have ht : (s.answered rJU (.read addr 4 1) (.slotRead k base) true).chip = _ :=
      (c.slotReadAnswered_okay k base addr _ hj).trans (if_pos (by rwa [wordAt_read_one]))
    refine State.completes_answer hp h true ?_
    rw [ht]
    exact ⟨c.push_only _ _ _ _, by rw [wordAt_read_one]; rfl⟩
  · have ht : (s.answered rJU (.read addr 4 1) (.slotRead k base) true).chip = _ :=
      (c.slotReadAnswered_okay k base addr _ hj).trans ((if_neg (by rwa [wordAt_read_one])).trans (goesOn hk))
    refine State.completes_answer hp h true ?_
    rw [ht]
    exact ⟨c.push_only _ _ _ _, rfl⟩
  · have ht : (s.answered rJU (.read addr 4 1) (.slotRead k base) false).chip = (c.reportStore rJU addr).resolveFrom (k + 1) base := rfl
    rw [Chip.reportStore, Chip.report_of_room _ _ _ _ hr, Chip.resolveFrom_of_usable _ base (by omega : k + 1 < 13) (by exact hj)] at ht
    exact State.completes_answer hp h false ⟨rfl, by rw [ht]; rfl⟩
  · refine State.completes_answer hp h true ?_
    have ht : (s.answered rJU op (.slotLost k base) true).chip = _ := goesOn hk
    rw [ht]
    exact ⟨c.push_only _ _ _ _, rfl⟩
  · subst hk
    refine State.completes_answer hp h true ?_
    have ht : (s.answered rJU op (.slotLost 12 base) true).chip = _ := c.resolveFrom_thirteen base
    rw [ht]
    cases hpo : c.ju.posting with
    | none => exact ⟨rfl, fun _ => rfl, fun _ h => nomatch h⟩
    | some po =>
      dsimp only
      by_cases hcond : c.ju.resolving - 1 = 0 ∧ po.phase = .waiting
      · rw [if_pos hcond]
        refine ⟨rfl, fun hno => absurd hcond.2 (hno po rfl), fun _ heq _ _ => ?_⟩
        cases heq
        exact ⟨by show c.ju.posting.map _ = _; rw [hpo]; rfl, rfl⟩
      · rw [if_neg hcond]
        refine ⟨rfl, fun _ => rfl, fun _ heq hw hone => ?_⟩
        cases heq
        exact absurd ⟨by rw [hone], hw⟩ hcond

/-! ### By CU -/

/-- Going on by the distance to a number arrives at it (R69). -/
theorem seqPlus_seqDistance {first x : Nat} (hf : 0 < first) (hf' : first ≤ 4294967295) (hx : x ≠ 0) (hx' : x ≤ 4294967295) :
    seqPlus first (seqDistance first x) = x := by
  unfold seqPlus seqDistance Config.lastSeq Config.wordModulus
  split <;> omega

/-- The distance to the number `k` steps on is `k` (R69). -/
theorem seqDistance_seqPlus {first k : Nat} (hf : 0 < first) (hf' : first ≤ 4294967295) (hk : k ≤ 65536) :
    seqDistance first (seqPlus first k) = k := by
  unfold seqPlus seqDistance Config.lastSeq Config.wordModulus
  split <;> omega

/-- A number gone on to is one that can be given (R69). -/
theorem seqPlus_range (first k : Nat) : seqPlus first k ≠ 0 ∧ seqPlus first k ≤ 4294967295 := by
  unfold seqPlus Config.lastSeq
  omega

/-- Going on by less than 65,536 passes the last number at most once (R69). -/
theorem seqPlus_eq {first k : Nat} (hf : 0 < first) (hf' : first ≤ 4294967295) (hk : k < 65536) :
    seqPlus first k = if first + k ≤ 4294967295 then first + k else first + k - 4294967295 := by
  unfold seqPlus Config.lastSeq
  split <;> omega

/-- Two numbers of a day of at most 65,536 records with the same last 24 bits are the same. -/
theorem seqPlus_mod_injective {first j k : Nat} (hf : 0 < first) (hf' : first ≤ 4294967295) (hj : j < 65536) (hk : k < 65536)
    (h : seqPlus first j % 16777216 = seqPlus first k % 16777216) : j = k := by
  rw [seqPlus_eq hf hf' hj, seqPlus_eq hf hf' hk] at h
  split at h <;> split at h <;> omega

/-- Whether a number is one of the day's whose least significant 24 bits are `v`. -/
def Chip.Names (c : Chip) (v x : Nat) : Prop :=
  x ≠ 0 ∧ x ≤ 4294967295 ∧ seqDistance c.cu.day.first x < seqDistance c.cu.day.first c.cu.day.next ∧ x % 16777216 = v

/-- The number CU looks for is the one the slot names. -/
theorem Chip.dayNumber24_of_names {c : Chip} {v x : Nat} (hf : 0 < c.cu.day.first) (hf' : c.cu.day.first ≤ 4294967295)
    (hd : seqDistance c.cu.day.first c.cu.day.next ≤ 65536) (hx : c.Names v x) : c.dayNumber24 v = some x := by
  obtain ⟨h0, hmax, hin, hmod⟩ := hx
  have hplus := seqPlus_seqDistance hf hf' h0 hmax
  have hfind : (List.range (seqDistance c.cu.day.first c.cu.day.next)).find? (fun k => seqPlus c.cu.day.first k % 0x1000000 == v)
      = some (seqDistance c.cu.day.first x) := by
    rw [List.find?_range_eq_some]
    refine ⟨by simpa [hplus] using hmod, List.mem_range.mpr hin, fun j hj => ?_⟩
    rw [Bool.not_eq_true', beq_eq_false_iff_ne]
    intro hjv
    have := seqPlus_mod_injective hf hf' (by omega : j < 65536) (by omega : seqDistance c.cu.day.first x < 65536) (by rw [hplus, hmod]; exact hjv)
    omega
  rw [Chip.dayNumber24, hfind, Option.map_some, hplus]

/-- With no number named by the slot, CU finds none. -/
theorem Chip.dayNumber24_eq_none {c : Chip} {v : Nat} (hf : 0 < c.cu.day.first) (hf' : c.cu.day.first ≤ 4294967295)
    (hd : seqDistance c.cu.day.first c.cu.day.next ≤ 65536) (hx : ∀ x, ¬ c.Names v x) : c.dayNumber24 v = none := by
  rw [Chip.dayNumber24, Option.map_eq_none_iff, List.find?_eq_none]
  intro k hk hv
  have hk := List.mem_range.mp hk
  obtain ⟨h0, hmax⟩ := seqPlus_range c.cu.day.first k
  exact hx _ ⟨h0, hmax, by rwa [seqDistance_seqPlus hf hf' (by omega)], by simpa using hv⟩

/-- While the journal is usable the resolution goes on with a slot up to the thirteenth (R96). -/
theorem Chip.rebuildSlot_of_usable (c : Chip) {k : Nat} (hk : k < 13) (hj : c.ap.journalUsable = true) :
    c.rebuildSlot k = c.push rCU (.read (c.slotAddr k 11) 4 1) (.rebSlot k) :=
  if_pos (by simp [hk, hj])

/-- In a rebuild that is finishing, an access of the resolution answered OKAY is acted on. -/
theorem Chip.rebuildSlotAnswered_okay {c : Chip} {w : Walk} (tag : Tag) (addr : Nat) (data : List Word) (hw : c.cu.walk = some w)
    (hf : w.phase = .finishing) : c.rebuildSlotAnswered tag true addr data = c.rebuildSlotNext tag true addr data :=
  if_pos (by rw [CuState.walkIn, if_pos rfl, hw, Option.filter_some, if_pos (by rw [hf]; rfl)]; rfl)

/-- In a rebuild that is finishing, an ERROR is reported and the resolution goes on (R96). -/
theorem Chip.rebuildSlotAnswered_error {c : Chip} {w : Walk} (tag : Tag) (addr : Nat) (data : List Word) (hw : c.cu.walk = some w)
    (hf : w.phase = .finishing) (hr : c.su.reports.length < 16) :
    c.rebuildSlotAnswered tag false addr data = Chip.rebuildSlotNext
      { c with su := { c.su with reports := c.su.reports ++ [⟨.storeError, rCU.val, pageOf addr, c.su.ms⟩] } } tag false addr data := by
  show (if (Chip.cu (c.reportStore rCU addr)).walkIn .finishing |>.isSome then _ else _) = _
  rw [Chip.reportStore, Chip.report_of_room _ _ _ _ hr]
  exact if_pos (by show (c.cu.walk.filter _).isSome = true; rw [hw, Option.filter_some, if_pos (by rw [hf]; rfl)]; rfl)

/-- A slot read OKAY: one that is not IN_POSTING stands. -/
theorem Chip.rebSlot_stands {c : Chip} {k addr : Nat} {data : List Word} (h : field (wordAt data 0) 24 8 ≠ 1) :
    c.rebuildSlotNext (.rebSlot k) true addr data = c.rebuildSlot (k + 1) :=
  if_neg (by simpa using h)

/-- A slot read OKAY and IN_POSTING: CU looks for the record it names, or writes LOST (R96). -/
theorem Chip.rebSlot_inPosting {c : Chip} {k addr : Nat} {data : List Word} (h : field (wordAt data 0) 24 8 = 1) :
    c.rebuildSlotNext (.rebSlot k) true addr data = match c.dayNumber24 (field (wordAt data 0) 0 24) with
      | some x => c.push rCU (.read (c.ringAddr x 0) 4 2) (.rebFind k x)
      | none => c.push rCU (.write addr [outcomeLost (field (wordAt data 0) 0 24)]) (.rebOutcome k) :=
  if_pos (by rw [h]; rfl)

/-- The candidate record read: the slot's when its position is the slot's, and otherwise the outcome is LOST (R96). -/
theorem Chip.rebFind_okay (c : Chip) (k x addr : Nat) (data : List Word) :
    c.rebuildSlotNext (.rebFind k x) true addr data = if field (wordAt data 1) 8 4 = k
      then c.push rCU (.write (c.slotAddr k 0) [wd x]) (.rebWord0 k x)
      else c.push rCU (.write (c.slotAddr k 11) [outcomeLost x]) (.rebOutcome k) :=
  if_congr beq_iff_eq rfl rfl

/-- An ERROR leaves the slot as it is, whatever the access. -/
theorem Chip.rebuildSlotNext_error {c : Chip} {k x addr : Nat} {tag : Tag} {data : List Word}
    (ht : tag ∈ [.rebSlot k, .rebFind k x, .rebWord0 k x, .rebOutcome k]) :
    c.rebuildSlotNext tag false addr data = c.rebuildSlot (k + 1) := by
  obtain rfl | rfl | rfl | rfl : tag = .rebSlot k ∨ tag = .rebFind k x ∨ tag = .rebWord0 k x ∨ tag = .rebOutcome k := by
    simpa using ht
  all_goals rfl

/-- An answer to CU's resolution is CU's to act on. -/
theorem Chip.ownAnswered_resolution {c : Chip} {m : List Host.Cell} {k x addr : Nat} {tag : Tag} {okay : Bool} {data : List Word}
    (ht : tag ∈ [.rebSlot k, .rebFind k x, .rebWord0 k x, .rebOutcome k]) :
    c.ownAnswered m rCU tag okay addr data = c.rebuildSlotAnswered tag okay addr data := by
  obtain rfl | rfl | rfl | rfl : tag = .rebSlot k ∨ tag = .rebFind k x ∨ tag = .rebWord0 k x ∨ tag = .rebOutcome k := by
    simpa using ht
  all_goals rfl

/-- The slots resolved by CU at the end of rebuild (R96). -/
theorem slotsResolved_cu (s : State) (w : Walk) (k addr : Nat) (hp : s.prompt = false) (hw : s.chip.cu.walk = some w)
    (hph : w.phase = .finishing) (hj : s.chip.ap.journalUsable = true) :
    let c := s.chip
    let first := c.cu.day.first
    let asks (o : OwnOp) (tag : Tag) : Vector (List OwnReq) 9 := vupd c.own rCU (· ++ [⟨o, tag, false⟩])
    let next : Vector (List OwnReq) 9 := asks (.read (c.slotAddr (k + 1) 11) 4 1) (.rebSlot (k + 1))
    (s.arb.port = .own rCU (.read addr 4 1) (.rebSlot k) false →
      let v := readWord s.mem addr
      let names (x : Nat) := x ≠ 0 ∧ x ≤ 4294967295 ∧ seqDistance first x < seqDistance first c.cu.day.next ∧
        x % 16777216 = field v 0 24
      (field v 24 8 ≠ 1 → k < 12 → Completes (.storeAnswer true) s fun t => t.chip.own = next) ∧
      (∀ x, field v 24 8 = 1 → 0 < first → first ≤ 4294967295 → seqDistance first c.cu.day.next ≤ 65536 → names x →
        Completes (.storeAnswer true) s fun t => t.chip.own = asks (.read (c.ringAddr x 0) 4 2) (.rebFind k x)) ∧
      (field v 24 8 = 1 → 0 < first → first ≤ 4294967295 → seqDistance first c.cu.day.next ≤ 65536 → (∀ x, ¬ names x) →
        Completes (.storeAnswer true) s fun t => t.chip.own = asks (.write addr [outcomeLost (field v 0 24)]) (.rebOutcome k))) ∧
    (∀ x, s.arb.port = .own rCU (.read addr 4 2) (.rebFind k x) false → Completes (.storeAnswer true) s fun t =>
      t.chip.own = if field (readWord s.mem (addr + 4)) 8 4 = k then asks (.write (c.slotAddr k 0) [wd x]) (.rebWord0 k x)
        else asks (.write (c.slotAddr k 11) [outcomeLost x]) (.rebOutcome k)) ∧
    (∀ x op, s.arb.port = .own rCU op (.rebWord0 k x) false → Completes (.storeAnswer true) s fun t =>
      t.chip.own = asks (.write (c.slotAddr k 11) [outcomePosted x]) (.rebOutcome k)) ∧
    (∀ op, s.arb.port = .own rCU op (.rebOutcome k) false → k < 12 → Completes (.storeAnswer true) s fun t =>
      t.chip.own = next) ∧
    ∀ x op tag, s.arb.port = .own rCU op tag false → tag ∈ [.rebSlot k, .rebFind k x, .rebWord0 k x, .rebOutcome k] → k < 12 →
      c.su.reports.length < 16 → Completes (.storeAnswer false) s fun t => t.mem = s.mem ∧ t.chip.own = next := by
  intro c first asks next
  have goesOn (hk : k < 12) : (c.rebuildSlot (k + 1)).own = next := by
    rw [c.rebuildSlot_of_usable (by omega) hj]
    rfl
  -- an answer OKAY to an access of the resolution
  have okay {op : StoreOp} {tag : Tag} {own : Vector (List OwnReq) 9} (x : Nat) (h : s.arb.port = .own rCU op tag false)
      (ht : tag ∈ [.rebSlot k, .rebFind k x, .rebWord0 k x, .rebOutcome k])
      (hown : (c.rebuildSlotNext tag true op.addr (op.data s.mem)).own = own) :
      Completes (.storeAnswer true) s fun t => t.chip.own = own := by
    refine State.completes_answer hp h true ?_
    show (s.chip.ownAnswered _ rCU tag true op.addr (op.data s.mem)).own = own
    rw [Chip.ownAnswered_resolution ht, Chip.rebuildSlotAnswered_okay _ _ _ hw hph, hown]
  refine ⟨fun h => ⟨fun hv hk => ?_, fun x hv h0 h1 hd hx => ?_, fun hv h0 h1 hd hx => ?_⟩, fun x h => ?_, fun x op h => ?_,
    fun op h hk => ?_, fun x op tag h ht hk hr => ?_⟩
  · exact okay 0 h (by simp) (by rw [Chip.rebSlot_stands (by rwa [wordAt_read_one]), goesOn hk])
  · exact okay 0 h (by simp) (by
      rw [Chip.rebSlot_inPosting (by rwa [wordAt_read_one]), wordAt_read_one, Chip.dayNumber24_of_names h0 h1 hd hx]
      rfl)
  · exact okay 0 h (by simp) (by
      rw [Chip.rebSlot_inPosting (by rwa [wordAt_read_one]), wordAt_read_one, Chip.dayNumber24_eq_none h0 h1 hd hx]
      rfl)
  · refine okay x h (by simp) ?_
    rw [Chip.rebFind_okay, show wordAt (StoreOp.data s.mem (.read addr 4 2)) 1 = readWord s.mem (addr + 4) from
      wordAt_readWords s.mem addr 2 1 (by omega)]
    split <;> rfl
  · exact okay x h (by simp) rfl
  · exact okay 0 h (by simp) (goesOn hk)
  · refine State.completes_answer hp h false ⟨rfl, ?_⟩
    show (s.chip.ownAnswered _ rCU tag false op.addr (op.data s.mem)).own = next
    rw [Chip.ownAnswered_resolution ht, Chip.rebuildSlotAnswered_error _ _ _ hw hph hr, Chip.rebuildSlotNext_error ht,
      Chip.rebuildSlot_of_usable _ (by omega : k + 1 < 13) (by exact hj)]
    rfl

/-- Settles O41. -/
theorem slotsResolved : Obligations.SlotsResolved := ⟨slotsResolved_ju, slotsResolved_cu⟩

end Sys2Proof.Machine
end

section
/-! PROOF. COMMIT and SUBMIT held, and a submission from its first read to its end (O27). -/

namespace Sys2Proof.Machine

/-! ### Held writes -/

/-- The posting a COMMIT begins, before its first read. -/
def Chip.withPosting (c : Chip) (x : Fin 13) : Chip :=
  c.onJu fun j => { j with posting := some { slot := x, phase := .waiting, words := [], orig := [], record := .blank } }

/-- With no resolution under way, a COMMIT held reads its slot (R56). -/
theorem Chip.commitHeld_reads {c : Chip} (h : c.ju.resolving = 0) (x : Fin 13) : c.commitHeld x = (c.withPosting x).readSlot x :=
  if_pos (beq_iff_eq.mpr h)

/-- A COMMIT held waits for a resolution under way (R57). -/
theorem Chip.commitHeld_waits {c : Chip} (h : c.ju.resolving ≠ 0) (x : Fin 13) : c.commitHeld x = c.withPosting x :=
  if_neg (mt beq_iff_eq.mp h)

/-- The submission a SUBMIT begins, before its first read. -/
def Chip.withSubmission (c : Chip) (n : Fin 4) (x : Fin 8) : Chip :=
  { c with pru := { c.pru with submission := some ⟨n, x, true, entryOf x []⟩ } }

/-- With no resolution under way, a SUBMIT held reads its slot (R137). -/
theorem Chip.submitHeld_reads {c : Chip} (h : c.pru.scanning = 0) (n : Fin 4) (x : Fin 8) :
    c.submitHeld n x = (c.withSubmission n x).readSubmission n x := if_pos (beq_iff_eq.mpr h)

/-- A SUBMIT held waits for a resolution under way (R150). -/
theorem Chip.submitHeld_waits {c : Chip} (h : c.pru.scanning ≠ 0) (n : Fin 4) (x : Fin 8) :
    c.submitHeld n x = c.withSubmission n x := if_neg (mt beq_iff_eq.mp h)

/-- COMMIT written to a slot that the host reaches (R55, R56). -/
theorem commit_held (s : State) (x : Fin 13) (hs : s.HostFree) (hw : s.chip.HostReaches .journal (s.chip.slotAddr x.val 11)) :
    (s.chip.su.unitState = .rebuilding ∨ s.chip.cu.day.state.frozen = true →
      exec (.commit x) s = .next { s with chip := s.chip.answerHost false [] }) ∧
    (s.chip.su.unitState ≠ .rebuilding → s.chip.cu.day.state.frozen = false → Completes (.commit x) s fun t =>
      s.Only [.ap, .ju, .own] t ∧ (∃ p, t.chip.ap.host = some p ∧ p.phase = .heldOwner (.commit x)) ∧
      (∃ po, t.chip.ju.posting = some po ∧ po.slot = x ∧ po.phase = if s.chip.ju.resolving = 0 then .running else .waiting) ∧
      t.chip.own = (if s.chip.ju.resolving = 0 then
        vupd s.chip.own rJU (· ++ [⟨.read (s.chip.slotAddr x.val 0) 4 8, .post .readA, false⟩]) else s.chip.own)) := by
  have hwr : s.Writes (.commit x) .journal (48 * x.val + 4 * 11) outcomeCommit allBytes :=
    hs.writes rfl rfl hw (by unfold Config.wordModulus; omega)
  have hans := s.chip.journalAnswer_eq (48 * x.val + 4 * 11) outcomeCommit
  have hoff : ¬ 624 ≤ 48 * x.val + 4 * 11 := by omega
  refine ⟨fun h => hwr.refused hs (by decide) (fun _ => rfl) (hans.trans (if_pos (.inr h))), fun hr hf => ?_⟩
  have h44 : (48 * x.val + 4 * 11) % 48 = 44 ∧ (48 * x.val + 4 * 11) / 48 < 13 := by omega
  have hx : (⟨(48 * x.val + 4 * 11) / 48, h44.2⟩ : Fin 13) = x := Fin.ext (by simp only; omega)
  have hhold : s.chip.journalAnswer (48 * x.val + 4 * 11) outcomeCommit = .hold (.commit x) := by
    rw [hans, if_neg (by simp [hoff, hr, hf]), dif_pos h44, if_pos rfl, hx]
  have ht := hwr.held hs (by decide) (fun _ => rfl) hhold
  by_cases h0 : s.chip.ju.resolving = 0
  · rw [Chip.startHold, Chip.commitHeld_reads (by exact h0)] at ht
    simp only [if_pos h0]
    exact ⟨_, ht, ⟨⟨rfl, rfl, rfl, rfl⟩, by constructor <;> simp <;> rfl⟩, ⟨_, rfl, rfl⟩, ⟨_, rfl, rfl, rfl⟩, rfl⟩
  · rw [Chip.startHold, Chip.commitHeld_waits (by exact h0)] at ht
    simp only [if_neg h0]
    exact ⟨_, ht, ⟨⟨rfl, rfl, rfl, rfl⟩, by constructor <;> simp <;> rfl⟩, ⟨_, rfl, rfl⟩, ⟨_, rfl, rfl, rfl⟩, rfl⟩

/-- SUBMIT written to a slot that the host reaches (R136, R137). -/
theorem submit_held (s : State) (n : Fin 4) (x : Fin 8) (hs : s.HostFree) (hw : s.chip.HostReaches .print (s.chip.printAddr n x 0)) :
    ((s.chip.slotStatus n x = .queued ∨ s.chip.slotStatus n x = .printing) →
      exec (.submit n x) s = .next { s with chip := s.chip.answerHost false [] }) ∧
    (s.chip.slotStatus n x ≠ .queued → s.chip.slotStatus n x ≠ .printing → Completes (.submit n x) s fun t =>
      s.Only [.ap, .pru, .own] t ∧ (∃ p, t.chip.ap.host = some p ∧ p.phase = .heldOwner (.submit n x)) ∧
      (∃ b, t.chip.pru.submission = some b ∧ b.printer = n ∧ b.slot = x ∧ b.waiting = decide (s.chip.pru.scanning ≠ 0)) ∧
      t.chip.pru.printers = s.chip.pru.printers ∧
      t.chip.own = (if s.chip.pru.scanning = 0 then
        vupd s.chip.own rPRU (· ++ [⟨.read (s.chip.printAddr n x 1) 4 2, .subRead, false⟩]) else s.chip.own)) := by
  have hwr : s.Writes (.submit n x) .print (1024 * n.val + 128 * x.val + 4 * 0) 1 allBytes :=
    hs.writes rfl (s.chip.printAddr_eq n x 0) hw (by unfold Config.wordModulus; omega)
  have hans := s.chip.printAnswer_slot n x 0 1
  refine ⟨fun h => hwr.refused hs (by decide) (fun _ => rfl) (hans.trans (if_pos h)), fun hq hp => ?_⟩
  have hhold : s.chip.printAnswer (1024 * n.val + 128 * x.val + 4 * 0) 1 = .hold (.submit n x) :=
    hans.trans ((if_neg (not_or.mpr ⟨hq, hp⟩)).trans ((if_neg (by simp)).trans (if_pos rfl)))
  have ht := hwr.held hs (by decide) (fun _ => rfl) hhold
  by_cases h0 : s.chip.pru.scanning = 0
  · rw [Chip.startHold, Chip.submitHeld_reads (by exact h0)] at ht
    simp only [if_pos h0]
    exact ⟨_, ht, ⟨⟨rfl, rfl, rfl, rfl⟩, by constructor <;> simp <;> rfl⟩, ⟨_, rfl, rfl⟩, ⟨_, rfl, rfl, rfl, by simp [h0]⟩, rfl, rfl⟩
  · rw [Chip.startHold, Chip.submitHeld_waits (by exact h0)] at ht
    simp only [if_neg h0]
    exact ⟨_, ht, ⟨⟨rfl, rfl, rfl, rfl⟩, by constructor <;> simp <;> rfl⟩, ⟨_, rfl, rfl⟩, ⟨_, rfl, rfl, rfl, by simp [h0]⟩, rfl, rfl⟩

/-! ### The checks of a submission -/

/-- The numbers of the pending print requests are those found pending (R137). -/
theorem Chip.printPending_iff (c : Chip) (seq : Nat) : c.printPending seq = true ↔ seq ∈ c.pendingSeqs := by
  have hp (p : Printer) : (p.queue.any (·.seq == seq) || (match p.service with | some v => v.entry.seq == seq | none => false)) = true ↔
      seq ∈ p.queue.map (·.seq) ++ (p.service.map (·.entry.seq)).toList := by
    cases p.service <;> simp [eq_comm (a := seq)]
  have hall : printers = List.finRange 4 := by decide
  rw [Chip.printPending, List.any_eq_true, Chip.pendingSeqs, List.mem_flatMap, hall]
  constructor
  · rintro ⟨n, -, h⟩
    exact ⟨c.pru.printers[n.val], by simp, (hp _).mp h⟩
  · rintro ⟨p, hmem, h⟩
    obtain ⟨n, hn, rfl⟩ := List.mem_iff_getElem.mp hmem
    exact ⟨⟨n, by simpa using hn⟩, List.mem_finRange _, (hp _).mpr (by simpa using h)⟩

/-- The outcome of a submission: the status in PRU's record and its write asked for, no other printer touched (R138). -/
def Chip.Outcome (c d : Chip) (b : Submission) (st : SlotStatus) (tag : Tag) : Prop :=
  d.slotStatus b.printer b.slot = st ∧ SameBut b.printer c.pru.printers d.pru.printers ∧
    d.own = vupd c.own rPRU (· ++ [⟨.write (c.printAddr b.printer b.slot 0) [st.word], tag, false⟩])

/-- A refusal's outcome. -/
def Chip.Refused (c d : Chip) (b : Submission) (r : Reason) : Prop := c.Outcome d b (.refused r.code) .subRefused

/-- A slot's status written is that outcome. -/
theorem Chip.writeSlot_outcome (c : Chip) (b : Submission) (st : SlotStatus) (tag : Tag) :
    c.Outcome (c.writeSlot b.printer b.slot st tag) b st tag := by
  refine ⟨?_, sameBut_vupd _ _ _, rfl⟩
  show (vupd c.pru.printers b.printer fun p => { p with slots := vput p.slots b.slot st })[b.printer.val].slots[b.slot.val] = st
  rw [vupd_get_same]
  exact vput_get_same _ _ _

/-- A refusal writes REFUSED with its reason. -/
theorem Chip.refuseSubmission_refused (c : Chip) (b : Submission) (r : Reason) : c.Refused (c.refuseSubmission b r) b r :=
  c.writeSlot_outcome b _ _

/-- What a record read that failed ends in (R137). -/
def Chip.Failed (c d : Chip) (b : Submission) : Prop :=
  if b.entry.seq ∈ c.pendingSeqs then c.Refused d b .duplicate else c.Refused d b .storeError

/-- What the record read ends in, by checks 6 to 9 (R73, R137). -/
def Chip.Judged (c d : Chip) (b : Submission) (seq code : Nat) (stamp : Word) : Prop :=
  if stampPrint stamp = .notBook then c.Refused d b .notBook
  else if stampStatus stamp = .voided ∨ seq ∈ c.ju.unstamped ∨ (c.ju.overflowMark = true ∧ 3 ≤ code ∧ code ≤ 7) then c.Refused d b .voided
  else if (stampPrint stamp = .printed ∨ stampPrint stamp = .doubtful) ∧ b.entry.reprint = false then c.Refused d b .alreadyPrinted
  else if b.entry.seq ∈ c.pendingSeqs then c.Refused d b .duplicate else c.Outcome d b .queued .subQueued

/-- JU's failure fails the submission. -/
theorem Chip.submissionAnswered_failed {c : Chip} {b : Submission} (hb : c.pru.submission = some b) :
    c.Failed (c.submissionAnswered .storeError) b := by
  unfold Chip.submissionAnswered Chip.recordRefusal Chip.Failed
  rw [hb]
  simp only [c.printPending_iff]
  split
  · exact c.refuseSubmission_refused b _
  · exact c.refuseSubmission_refused b _

/-- The kinds that may be voided are those of codes 3 to 7 (R71). -/
theorem voidable_iff (code : Nat) :
    (match recordKindOfCode code with | some k => k.voidable | none => false) = true ↔ 3 ≤ code ∧ code ≤ 7 := by
  by_cases h : code < 13
  · interval_cases code <;> simp [recordKindOfCode, RecordKind.voidable]
  · obtain ⟨n, rfl⟩ := Nat.exists_eq_add_of_le' (not_lt.mp h)
    have hk : recordKindOfCode (n + 13) = none := rfl
    rw [hk]
    exact iff_of_false Bool.false_ne_true (by omega)

/-- The status JU answers a submission with is VOIDED by the stamp, the unstamped list or the overflow mark (R73, R74). -/
theorem Chip.statusOf_submission (c : Chip) (seq code : Nat) (stamp : Word) :
    c.statusOf .submission seq code stamp = .voided ↔
      stampStatus stamp = .voided ∨ seq ∈ c.ju.unstamped ∨ (c.ju.overflowMark = true ∧ 3 ≤ code ∧ code ≤ 7) := by
  have hcond : (c.ju.unstamped.contains seq || ((ReadFor.submission == .submission) && c.ju.overflowMark &&
      (match recordKindOfCode code with | some k => k.voidable | none => false))) = true ↔
      seq ∈ c.ju.unstamped ∨ (c.ju.overflowMark = true ∧ 3 ≤ code ∧ code ≤ 7) := by
    rw [Bool.or_eq_true, Bool.and_eq_true, Bool.and_eq_true, voidable_iff, List.contains_iff_mem]
    simp
  unfold Chip.statusOf
  by_cases h : seq ∈ c.ju.unstamped ∨ (c.ju.overflowMark = true ∧ 3 ≤ code ∧ code ≤ 7)
  · exact iff_of_true (if_pos (hcond.mpr h)) (.inr h)
  · exact Iff.trans (iff_of_eq (congrArg (· = StampStatus.voided) (if_neg (mt hcond.mp h)))) (or_iff_left h).symm

/-- JU's record decides checks 6 to 9. -/
theorem Chip.submissionAnswered_judged {c : Chip} {b : Submission} (hb : c.pru.submission = some b) (r : JRecord) (seq code : Nat)
    (stamp : Word) :
    c.Judged (c.submissionAnswered (.record r (c.statusOf .submission seq code stamp) (stampPrint stamp))) b seq code stamp := by
  unfold Chip.submissionAnswered Chip.recordRefusal Chip.Judged
  rw [hb]
  simp only [beq_iff_eq, c.statusOf_submission, Bool.and_eq_true, Bool.or_eq_true, Bool.not_eq_true', c.printPending_iff]
  split_ifs
  · exact c.refuseSubmission_refused b _
  · exact c.refuseSubmission_refused b _
  · exact c.refuseSubmission_refused b _
  · exact c.refuseSubmission_refused b _
  · exact c.writeSlot_outcome b _ _

/-! ### The reads of a submission -/

/-- An access asked for. -/
def Chip.Asks (c d : Chip) (u : Fin 9) (o : OwnOp) (tag : Tag) : Prop := d.own = vupd c.own u (· ++ [⟨o, tag, false⟩])

/-- The second burst of the record has been read: FREE or another record fails, a VOID's original is read, and any other record
is judged (R74, logs 38 and 39). -/
theorem Chip.recordB_answered {c : Chip} {b : Submission} (hb : c.pru.submission = some b) (seq addr : Nat) (front data : List Word) :
    let ws := front ++ data
    let r := recordOfWords ws
    let d := passRecord (c.recordAnswered (.recordB .submission seq front) true addr data)
    if r.seq ≠ seq ∨ stampStatus (wordAt ws 11) = .free then c.Failed d b
    else if r.code = 8 then c.Asks d rJU (.read (c.ringAddr r.reference 0) 4 8) (.originalA .submission ws r.reference)
    else c.Judged d b seq r.code (wordAt ws 11) := by
  intro ws r d
  have hfree : (r.seq != seq || stampStatus (wordAt ws 11) == .free) = true ↔ r.seq ≠ seq ∨ stampStatus (wordAt ws 11) = .free := by
    simp
  have hvoid : (r.code == RecordKind.void.code) = true ↔ r.code = 8 := beq_iff_eq
  have hd : d = passRecord (c.recordJudge .submission seq ws) := rfl
  split_ifs with h1 h2
  · rw [hd, Chip.recordJudge, if_pos (hfree.mpr h1)]
    exact c.submissionAnswered_failed hb
  · rw [hd, Chip.recordJudge, if_neg (mt hfree.mp h1), if_pos (hvoid.mpr h2)]
    rfl
  · rw [hd, Chip.recordJudge, if_neg (mt hfree.mp h1), if_neg (mt hvoid.mp h2)]
    exact c.submissionAnswered_judged hb _ _ _ _

/-- The second burst of a VOID's original has been read (R74, logs 38 and 39). -/
theorem Chip.originalB_answered {c : Chip} {b : Submission} (hb : c.pru.submission = some b) (ref addr : Nat)
    (vws front data : List Word) :
    let ws := front ++ data
    let d := passRecord (c.recordAnswered (.originalB .submission vws ref front) true addr data)
    if (recordOfWords ws).seq ≠ ref ∨ stampStatus (wordAt ws 11) = .free then c.Failed d b
    else c.Judged d b (recordOfWords vws).seq (recordOfWords vws).code (wordAt vws 11) := by
  intro ws d
  have hfree : ((recordOfWords ws).seq != ref || stampStatus (wordAt ws 11) == .free) = true ↔
      (recordOfWords ws).seq ≠ ref ∨ stampStatus (wordAt ws 11) = .free := by simp
  have hd : d = passRecord (c, c.originalJudge .submission vws ref ws) := rfl
  split_ifs with h
  · rw [hd, Chip.originalJudge, if_pos (hfree.mpr h)]
    exact c.submissionAnswered_failed hb
  · rw [hd, Chip.originalJudge, if_neg (mt hfree.mp h)]
    exact c.submissionAnswered_judged hb _ _ _ _

/-- Words 1 and 2 of the slot have been read: checks 1 to 5 of Table 8-3, then the record's read (R137, log 16). -/
theorem Chip.subRead_answered {c : Chip} {b : Submission} (hb : c.pru.submission = some b) (m : List Host.Cell) (addr : Nat) :
    let n := (readWord m addr).toNat
    let w := readWord m (addr + 4)
    let line := field w 0 8
    let page := field w 8 8
    let d := c.submissionRead true (readWords m addr 4 2)
    d.pru.submission = some { b with entry := ⟨b.slot, n, line, page, flagAt w 16, flagAt w 17⟩ } ∧
      if c.su.unitState = .rebuilding then c.Refused d b .notReady
      else if c.cu.day.state ≠ .dayOpen then c.Refused d b .dayState
      else if c.prn b.printer .present ≠ 1 then c.Refused d b .noPrinter
      else if line = 0 ∨ c.prn b.printer .linesPerPage < line ∨ page = 0 then c.Refused d b .lineRange
      else if n = 0 ∨ seqDistance c.cu.day.first c.ju.nextSeq ≤ seqDistance c.cu.day.first n then c.Refused d b .notInDay
      else d.pru.printers = c.pru.printers ∧ c.Asks d rJU (.read (c.ringAddr n 0) 4 8) (.recordA .submission n) := by
  intro n w line page d
  let e : Submission := { b with entry := ⟨b.slot, n, line, page, flagAt w 16, flagAt w 17⟩ }
  let c' := c.onSubmission fun _ => e
  have hsub : c'.pru.submission = some e := by show c.pru.submission.map _ = _; rw [hb]; rfl
  have refused (r : Reason) : c.Refused (c'.refuseSubmission e r) b r := c'.refuseSubmission_refused e r
  have hcheck : c'.submitChecks e = if c.su.unitState = .rebuilding then some .notReady
      else if c.cu.day.state ≠ .dayOpen then some .dayState
      else if c.prn b.printer .present ≠ 1 then some .noPrinter
      else if line = 0 ∨ c.prn b.printer .linesPerPage < line ∨ page = 0 then some .lineRange else none := by
    have hprn : (!c'.prnOn e.printer .present) = true ↔ c.prn b.printer .present ≠ 1 := by
      rw [Bool.not_eq_true', Chip.prnOn, beq_eq_false_iff_ne]
      rfl
    have hline : (e.entry.line == 0 || decide (c'.prn e.printer .linesPerPage < e.entry.line) || e.entry.page == 0) = true ↔
        line = 0 ∨ c.prn b.printer .linesPerPage < line ∨ page = 0 := by
      rw [Bool.or_eq_true, Bool.or_eq_true, beq_iff_eq, beq_iff_eq, decide_eq_true_eq, or_assoc]
      rfl
    exact if_congr beq_iff_eq rfl (if_congr bne_iff_ne rfl (if_congr hprn rfl (if_congr hline rfl rfl)))
  have hd : d = match c'.submitChecks e with
      | some r => c'.refuseSubmission e r
      | none => passRecord (c'.recordRead .submission n) := by
    show c.submissionRead true _ = _
    rw [Chip.submissionRead, hb]
    rfl
  rw [hcheck] at hd
  split_ifs at hd ⊢ with h1 h2 h3 h4 h5
  · exact hd ▸ ⟨hsub, refused _⟩
  · exact hd ▸ ⟨hsub, refused _⟩
  · exact hd ▸ ⟨hsub, refused _⟩
  · exact hd ▸ ⟨hsub, refused _⟩
  · have hin : ¬ c'.inDay n = true := by
      rw [Chip.inDay, seqInDay, Bool.and_eq_true, bne_iff_ne, decide_eq_true_eq]
      rintro ⟨h0, hlt⟩
      exact h5.elim h0 (not_le.mpr hlt)
    have hd : d = c'.submissionAnswered .notInDay := by rw [hd]; simp only [Chip.recordRead, if_neg hin]; rfl
    have hr : d = c'.refuseSubmission e .notInDay := by rw [hd, Chip.submissionAnswered, hsub]; rfl
    exact hr ▸ ⟨hsub, refused _⟩
  · have hin : c'.inDay n = true := by
      rw [Chip.inDay, seqInDay, Bool.and_eq_true, bne_iff_ne, decide_eq_true_eq]
      exact ⟨fun h => h5 (.inl h), not_le.mp fun h => h5 (.inr h)⟩
    have hd : d = c'.push rJU (.read (c'.ringAddr n 0) 4 8) (.recordA .submission n) := by
      rw [hd]; simp only [Chip.recordRead, if_pos hin]; rfl
    exact hd ▸ ⟨hsub, rfl, rfl⟩

/-! ### The answers of a submission -/

/-- A state in which the submission has had its outcome, the store as it was. -/
def State.OutcomeIn (s : State) (b : Submission) (st : SlotStatus) (tag : Tag) (t : State) : Prop :=
  t.mem = s.mem ∧ s.chip.Outcome t.chip b st tag

/-- A state in which the submission has been refused. -/
def State.RefusedIn (s : State) (b : Submission) (r : Reason) : State → Prop := s.OutcomeIn b (.refused r.code) .subRefused

/-- A state in which the record read of the submission has failed. -/
def State.FailedIn (s : State) (b : Submission) : State → Prop :=
  if b.entry.seq ∈ s.chip.pendingSeqs then s.RefusedIn b .duplicate else s.RefusedIn b .storeError

/-- A state in which the record read has been judged by checks 6 to 9. -/
def State.JudgedIn (s : State) (b : Submission) (seq code : Nat) (stamp : Word) : State → Prop :=
  if stampPrint stamp = .notBook then s.RefusedIn b .notBook
  else if stampStatus stamp = .voided ∨ seq ∈ s.chip.ju.unstamped ∨ (s.chip.ju.overflowMark = true ∧ 3 ≤ code ∧ code ≤ 7)
    then s.RefusedIn b .voided
  else if (stampPrint stamp = .printed ∨ stampPrint stamp = .doubtful) ∧ b.entry.reprint = false then s.RefusedIn b .alreadyPrinted
  else if b.entry.seq ∈ s.chip.pendingSeqs then s.RefusedIn b .duplicate else s.OutcomeIn b .queued .subQueued

/-- A state in which an access has been asked for. -/
def State.AsksIn (s : State) (u : Fin 9) (o : OwnOp) (tag : Tag) (t : State) : Prop :=
  t.chip.own = vupd s.chip.own u (· ++ [⟨o, tag, false⟩])

/-- A part that has failed the submission, with the store as it was. -/
theorem State.failedIn_of {s t : State} {b : Submission} (hm : t.mem = s.mem) (h : s.chip.Failed t.chip b) : s.FailedIn b t := by
  unfold Chip.Failed at h
  unfold State.FailedIn
  split_ifs at h ⊢ <;> exact ⟨hm, h⟩

/-- A part that has judged the record, with the store as it was. -/
theorem State.judgedIn_of {s t : State} {b : Submission} {seq code : Nat} {stamp : Word} (hm : t.mem = s.mem)
    (h : s.chip.Judged t.chip b seq code stamp) : s.JudgedIn b seq code stamp t := by
  unfold Chip.Judged at h
  unfold State.JudgedIn
  split_ifs at h ⊢ <;> exact ⟨hm, h⟩

/-- The reads of a submission answered (R137, R74). -/
theorem submission_read (s : State) (b : Submission) (addr : Nat) (op : StoreOp) (seq ref : Nat) (front vws : List Word)
    (hp : s.prompt = false) (hb : s.chip.pru.submission = some b) :
    let c := s.chip
    let ws := front ++ readWords s.mem addr 4 4
    let r := recordOfWords ws
    (s.arb.port = .own rPRU op .subRead false → Completes (.storeAnswer false) s (s.RefusedIn b .storeError)) ∧
    (s.arb.port = .own rPRU (.read addr 4 2) .subRead false → Completes (.storeAnswer true) s fun t =>
      let n := (readWord s.mem addr).toNat
      let w := readWord s.mem (addr + 4)
      let line := field w 0 8
      let page := field w 8 8
      t.chip.pru.submission = some { b with entry := ⟨b.slot, n, line, page, flagAt w 16, flagAt w 17⟩ } ∧
      if c.su.unitState = .rebuilding then s.RefusedIn b .notReady t
      else if c.cu.day.state ≠ .dayOpen then s.RefusedIn b .dayState t
      else if c.prn b.printer .present ≠ 1 then s.RefusedIn b .noPrinter t
      else if line = 0 ∨ c.prn b.printer .linesPerPage < line ∨ page = 0 then s.RefusedIn b .lineRange t
      else if n = 0 ∨ seqDistance c.cu.day.first c.ju.nextSeq ≤ seqDistance c.cu.day.first n then s.RefusedIn b .notInDay t
      else t.chip.pru.printers = c.pru.printers ∧ s.AsksIn rJU (.read (c.ringAddr n 0) 4 8) (.recordA .submission n) t) ∧
    (∀ tag, s.arb.port = .own rJU op tag false → tag ∈ [.recordA .submission seq, .recordB .submission seq front,
      .originalA .submission vws ref, .originalB .submission vws ref front] → Completes (.storeAnswer false) s (s.FailedIn b)) ∧
    (s.arb.port = .own rJU (.read addr 4 8) (.recordA .submission seq) false → Completes (.storeAnswer true) s
      (s.AsksIn rJU (.read (addr + 32) 4 4) (.recordB .submission seq (readWords s.mem addr 4 8)))) ∧
    (s.arb.port = .own rJU (.read addr 4 8) (.originalA .submission vws ref) false → Completes (.storeAnswer true) s
      (s.AsksIn rJU (.read (addr + 32) 4 4) (.originalB .submission vws ref (readWords s.mem addr 4 8)))) ∧
    (s.arb.port = .own rJU (.read addr 4 4) (.recordB .submission seq front) false → Completes (.storeAnswer true) s
      (if r.seq ≠ seq ∨ stampStatus (wordAt ws 11) = .free then s.FailedIn b
      else if r.code = 8 then s.AsksIn rJU (.read (c.ringAddr r.reference 0) 4 8) (.originalA .submission ws r.reference)
      else s.JudgedIn b seq r.code (wordAt ws 11))) ∧
    (s.arb.port = .own rJU (.read addr 4 4) (.originalB .submission vws ref front) false → Completes (.storeAnswer true) s
      (if r.seq ≠ ref ∨ stampStatus (wordAt ws 11) = .free then s.FailedIn b
      else s.JudgedIn b (recordOfWords vws).seq (recordOfWords vws).code (wordAt vws 11))) := by
  intro c ws r
  refine ⟨fun h => State.completes_answer hp h false ⟨rfl, ?_⟩, fun h => State.completes_answer hp h true ?_,
    fun tag h ht => State.completes_answer hp h false (State.failedIn_of rfl ?_), fun h => State.completes_answer hp h true rfl,
    fun h => State.completes_answer hp h true rfl, fun h => State.completes_answer hp h true ?_,
    fun h => State.completes_answer hp h true ?_⟩
  · have hd : (s.answered rPRU op .subRead false).chip = c.refuseSubmission b .storeError := by
      show c.submissionRead false _ = _
      rw [Chip.submissionRead, hb]
      rfl
    rw [hd]
    exact c.refuseSubmission_refused b _
  · obtain ⟨hsub, h⟩ := Chip.subRead_answered hb s.mem addr
    refine ⟨hsub, ?_⟩
    split_ifs at h ⊢
    · exact ⟨rfl, h⟩
    · exact ⟨rfl, h⟩
    · exact ⟨rfl, h⟩
    · exact ⟨rfl, h⟩
    · exact ⟨rfl, h⟩
    · exact h
  · have hd : (s.answered rJU op tag false).chip = c.submissionAnswered .storeError := by
      obtain rfl | rfl | rfl | rfl : tag = .recordA .submission seq ∨ tag = .recordB .submission seq front ∨
        tag = .originalA .submission vws ref ∨ tag = .originalB .submission vws ref front := by simpa using ht
      all_goals rfl
    rw [hd]
    exact c.submissionAnswered_failed hb
  · have h := Chip.recordB_answered hb seq addr front (readWords s.mem addr 4 4)
    dsimp only at h
    split_ifs at h ⊢
    · exact State.failedIn_of rfl h
    · exact h
    · exact State.judgedIn_of rfl h
  · have h := Chip.originalB_answered hb ref addr vws front (readWords s.mem addr 4 4)
    dsimp only at h
    split_ifs at h ⊢
    · exact State.failedIn_of rfl h
    · exact State.judgedIn_of rfl h

/-- The outcome write answered ends the submission (R138). -/
theorem submission_ended (s : State) (b : Submission) (op : StoreOp) (okay : Bool) (hp : s.prompt = false)
    (hb : s.chip.pru.submission = some b) :
    let ended (t : State) (accepted : Bool) : Prop := t.chip.pru.submission = none ∧ t.chip.ap.host = none ∧
      t.chip.ap.answer = some ⟨accepted, []⟩ ∧ (okay = true → t.chip.su = s.chip.su) ∧
      (okay = false → s.chip.su.reports.length < 16 → t.chip.su = { s.chip.su with
        reports := s.chip.su.reports ++ [⟨.storeError, rPRU.val, pageOf op.addr, s.chip.su.ms⟩] })
    (s.arb.port = .own rPRU op .subQueued false → Completes (.storeAnswer okay) s fun t => ended t true ∧
      t.chip.printer b.printer = { s.chip.printer b.printer with queue := (s.chip.printer b.printer).queue ++ [b.entry] } ∧
      SameBut b.printer s.chip.pru.printers t.chip.pru.printers) ∧
    (s.arb.port = .own rPRU op .subRefused false → Completes (.storeAnswer okay) s fun t => ended t false ∧
      t.chip.pru.printers = s.chip.pru.printers) := by
  intro ended
  let c := s.chip.pruReport okay op.addr
  have hpru : c.pru = s.chip.pru := by
    show (if okay then s.chip else s.chip.reportStore rPRU op.addr).pru = _
    split
    · rfl
    · exact Chip.report_pru _ _ _ _
  have hsu : (okay = true → c.su = s.chip.su) ∧ (okay = false → s.chip.su.reports.length < 16 → c.su = { s.chip.su with
      reports := s.chip.su.reports ++ [⟨.storeError, rPRU.val, pageOf op.addr, s.chip.su.ms⟩] }) := by
    refine ⟨fun h => ?_, fun h hr => ?_⟩
    · subst h; rfl
    · subst h; exact congrArg Chip.su (s.chip.report_of_room _ _ _ hr)
  have hwritten (queued : Bool) : s.chip.submissionWritten queued okay op.addr =
      if queued then (c.enqueue b).submissionEnds true else c.submissionEnds false := by
    show (match c.pru.submission with | some _ => _ | none => _) = _
    rw [hpru, hb]
  have hended {t : State} {accepted : Bool} {d : Chip} (ht : t.chip = d.submissionEnds accepted) (hd : d.su = c.su) : ended t accepted := by
    have htsu : t.chip.su = c.su := by rw [ht, ← hd]; rfl
    exact ⟨by rw [ht]; rfl, by rw [ht]; rfl, by rw [ht]; rfl, by rw [htsu]; exact hsu⟩
  refine ⟨fun h => State.completes_answer hp h okay ?_, fun h => State.completes_answer hp h okay ?_⟩
  · have hd : (s.answered rPRU op .subQueued okay).chip = (c.enqueue b).submissionEnds true := hwritten true
    refine ⟨hended hd rfl, ?_⟩
    rw [hd]
    have hprinters : ((c.enqueue b).submissionEnds true).pru.printers =
        vupd s.chip.pru.printers b.printer fun p => { p with queue := p.queue ++ [b.entry] } := by
      rw [← hpru]
      rfl
    rw [hprinters]
    refine ⟨?_, sameBut_vupd _ _ _⟩
    show ((c.enqueue b).submissionEnds true).pru.printers[b.printer.val] = _
    simp only [hprinters]
    exact vupd_get_same _ _ _
  · have hd : (s.answered rPRU op .subRefused okay).chip = c.submissionEnds false := hwritten false
    refine ⟨hended hd rfl, ?_⟩
    rw [hd]
    show c.pru.printers = _
    rw [hpru]

/-- Settles O27. -/
theorem commitAndSubmitHeld : Obligations.CommitAndSubmitHeld := ⟨commit_held, submit_held, submission_read, submission_ended⟩

end Sys2Proof.Machine
end

section
/-! PROOF. The gist of the part: what the invariant of one hold at a time and the settings are about, and that most
operations keep it. -/

namespace Sys2Proof.Machine

/-! ### The gist -/

/-- What the end of LOADING and a request's operands are told by. -/
def Tag.loud : Tag → Bool
  | .loadingState => true
  | .operands _ => true
  | _ => false

/-- What an accepted setting asks for. -/
def OwnOp.loud : OwnOp → Bool
  | .settingsCrc => true
  | .settingWords _ _ => true
  | _ => false

/-- The loud tags of the accesses that wait, for each requester. -/
def loudOf (own : Vector (List OwnReq) 9) : Vector (List Tag) 9 := vmap (fun q => (q.map (·.tag)).filter Tag.loud) own

/-- SU's own accesses that an accepted setting asks for. -/
def settingsAsked (own : Vector (List OwnReq) 9) : List OwnReq := (own[rSU.val] : List OwnReq).filter (·.op.loud)

/-- What few operations change: AP, the settings, the unit, day and ring states, what is in progress, and the loud accesses. -/
structure Gist where
  ap : ApState
  image : Vector Word 255
  unit : UnitState
  request : Option Nat
  readIndex : Nat
  writeIndex : Nat
  posting : Bool
  submission : Bool
  walk : Bool
  day : DayState
  send : Bool
  loud : Vector (List Tag) 9
  asked : List OwnReq

/-- The gist of the part. -/
def Chip.gist (c : Chip) : Gist :=
  ⟨c.ap, c.su.image, c.su.unitState, c.su.request, c.su.readIndex, c.su.writeIndex, c.ju.posting.isSome, c.pru.submission.isSome,
    c.cu.walk.isSome, c.cu.day.state, c.hlc.send.isSome, loudOf c.own, settingsAsked c.own⟩

/-! ### Own accesses -/

/-- Accesses with quiet tags added to a requester's list leave the loud tags. -/
theorem loudOf_append (own : Vector (List OwnReq) 9) (u : Fin 9) {rs : List OwnReq} (h : ∀ r ∈ rs, r.tag.loud = false) :
    loudOf (vupd own u (· ++ rs)) = loudOf own := by
  have hrs : (rs.map (·.tag)).filter Tag.loud = [] := by
    rw [List.filter_eq_nil_iff]
    rintro tag htag
    obtain ⟨r, hr, rfl⟩ := List.mem_map.mp htag
    simp [h r hr]
  apply Vector.ext
  intro i hi
  simp only [loudOf, vmap_get, vupd_get]
  split
  · next hu => subst hu; rw [List.map_append, List.filter_append, hrs, List.append_nil]
  · rfl

/-- A requester's list put in place of one with the same loud tags leaves the loud tags. -/
theorem loudOf_put (own : Vector (List OwnReq) 9) (u : Fin 9) {q : List OwnReq}
    (h : (q.map (·.tag)).filter Tag.loud = ((own[u.val] : List OwnReq).map (·.tag)).filter Tag.loud) :
    loudOf (vput own u q) = loudOf own := by
  apply Vector.ext
  intro i hi
  simp only [loudOf, vmap_get, vput_get]
  split
  · next hu => subst hu; exact h
  · rfl

/-- A filter that keeps the accesses with loud tags leaves the loud tags. -/
theorem filter_loud {q : List OwnReq} {f : OwnReq → Bool} (h : ∀ r, r.tag.loud = true → f r = true) :
    ((q.filter f).map (·.tag)).filter Tag.loud = (q.map (·.tag)).filter Tag.loud := by
  induction q with
  | nil => rfl
  | cons r rest ih =>
    cases hf : f r with
    | true => simp [List.filter_cons, hf, ih]
    | false =>
      have hl : r.tag.loud = false := by
        by_contra hl
        rw [h r (by simpa using hl)] at hf
        cases hf
      simp [hf, hl, ih]

/-- Accesses that no setting asks for leave those that settings ask for. -/
theorem settingsAsked_append (own : Vector (List OwnReq) 9) (u : Fin 9) {rs : List OwnReq} (h : ∀ r ∈ rs, r.op.loud = false) :
    settingsAsked (vupd own u (· ++ rs)) = settingsAsked own := by
  unfold settingsAsked
  rw [vupd_get]
  split
  · next hu =>
    obtain rfl : u = rSU := Fin.ext hu
    have hrs : rs.filter (·.op.loud) = [] := List.filter_eq_nil_iff.mpr fun r hr => by rw [h r hr]; exact Bool.false_ne_true
    rw [List.filter_append, hrs, List.append_nil]
  · rfl

/-- Another requester's list is not SU's. -/
theorem settingsAsked_put (own : Vector (List OwnReq) 9) {u : Fin 9} (q : List OwnReq) (h : u ≠ rSU) :
    settingsAsked (vput own u q) = settingsAsked own := by
  unfold settingsAsked
  rw [vput_get_ne _ _ _ _ h.symm]

/-- The gist with the accesses that wait replaced by others of the same kind. -/
theorem Chip.own_gist (c : Chip) {own : Vector (List OwnReq) 9} (hl : loudOf own = loudOf c.own)
    (ha : settingsAsked own = settingsAsked c.own) : ({ c with own := own } : Chip).gist = c.gist := by
  show Gist.mk _ _ _ _ _ _ _ _ _ _ _ (loudOf own) (settingsAsked own) = Gist.mk ..
  rw [hl, ha]

/-- A requester's accesses, filtered but for the loud ones. -/
theorem Chip.filter_gist (c : Chip) {u : Fin 9} (hu : u ≠ rSU) {f : OwnReq → Bool} (h : ∀ r, r.tag.loud = true → f r = true) :
    ({ c with own := vput c.own u ((c.own[u.val] : List OwnReq).filter f) } : Chip).gist = c.gist :=
  c.own_gist (loudOf_put _ _ (filter_loud h)) (settingsAsked_put _ _ hu)

/-! ### Updates -/

/-- A tag is quiet when it is neither of the loud ones. -/
theorem Tag.loud_eq_false {tag : Tag} (h : tag ≠ .loadingState) (h' : ∀ code, tag ≠ .operands code) : tag.loud = false := by
  cases tag with
  | loadingState => exact absurd rfl h
  | operands code => exact absurd rfl (h' code)
  | _ => rfl

/-- An access is none that a setting asks for when it is neither of those. -/
theorem OwnOp.loud_eq_false {op : OwnOp} (h : op ≠ .settingsCrc) (h' : ∀ i n, op ≠ .settingWords i n) : op.loud = false := by
  cases op with
  | settingsCrc => exact absurd rfl h
  | settingWords i n => exact absurd rfl (h' i n)
  | _ => rfl

@[simp] theorem Chip.pushAll_gist (c : Chip) (u : Fin 9) (rs : List OwnReq) (hl : ∀ r ∈ rs, r.tag ≠ .loadingState)
    (hr : ∀ r ∈ rs, ∀ code, r.tag ≠ .operands code) (hc : ∀ r ∈ rs, r.op ≠ .settingsCrc)
    (hw : ∀ r ∈ rs, ∀ i n, r.op ≠ .settingWords i n) : (c.pushAll u rs).gist = c.gist :=
  c.own_gist (loudOf_append _ _ fun r h => Tag.loud_eq_false (hl r h) (hr r h))
    (settingsAsked_append _ _ fun r h => OwnOp.loud_eq_false (hc r h) (hw r h))

@[simp] theorem Chip.push_gist (c : Chip) (u : Fin 9) (op : OwnOp) (tag : Tag) (fin : Bool) (hl : tag ≠ .loadingState)
    (hr : ∀ code, tag ≠ .operands code) (hc : op ≠ .settingsCrc) (hw : ∀ i n, op ≠ .settingWords i n) :
    (c.push u op tag fin).gist = c.gist :=
  c.pushAll_gist u [⟨op, tag, fin⟩] (by simpa using hl) (by simpa using hr) (by simpa using hc) (by simpa using hw)

@[simp] theorem Chip.onSu_gist (c : Chip) (f : SuState → SuState) (hi : (f c.su).image = c.su.image)
    (hu : (f c.su).unitState = c.su.unitState) (hr : (f c.su).request = c.su.request) (hx : (f c.su).readIndex = c.su.readIndex)
    (hw : (f c.su).writeIndex = c.su.writeIndex) : (c.onSu f).gist = c.gist := by
  show Gist.mk _ (f c.su).image (f c.su).unitState (f c.su).request (f c.su).readIndex (f c.su).writeIndex _ _ _ _ _ _ _ = Gist.mk ..
  rw [hi, hu, hr, hx, hw]
  rfl

@[simp] theorem Chip.onJu_gist (c : Chip) (f : JuState → JuState) (h : (f c.ju).posting.isSome = c.ju.posting.isSome) :
    (c.onJu f).gist = c.gist := by
  show Gist.mk _ _ _ _ _ _ (f c.ju).posting.isSome _ _ _ _ _ _ = Gist.mk ..
  rw [h]
  rfl

@[simp] theorem Chip.onPosting_gist (c : Chip) (f : Posting → Posting) : (c.onPosting f).gist = c.gist :=
  c.onJu_gist _ (Option.isSome_map ..)

@[simp] theorem Chip.onCu_gist (c : Chip) (f : CuState → CuState) (hd : (f c.cu).day.state = c.cu.day.state)
    (hw : (f c.cu).walk.isSome = c.cu.walk.isSome) : (c.onCu f).gist = c.gist := by
  show Gist.mk _ _ _ _ _ _ _ _ (f c.cu).walk.isSome (f c.cu).day.state _ _ _ = Gist.mk ..
  rw [hd, hw]
  rfl

@[simp] theorem Chip.onHlc_gist (c : Chip) (f : HlcState → HlcState) (h : (f c.hlc).send.isSome = c.hlc.send.isSome) :
    (c.onHlc f).gist = c.gist := by
  show Gist.mk _ _ _ _ _ _ _ _ _ _ (f c.hlc).send.isSome _ _ = Gist.mk ..
  rw [h]
  rfl

@[simp] theorem Chip.onSend_gist (c : Chip) (f : Send → Send) : (c.onSend f).gist = c.gist := c.onHlc_gist _ (Option.isSome_map ..)

@[simp] theorem Chip.onSubmission_gist (c : Chip) (f : Submission → Submission) : (c.onSubmission f).gist = c.gist := by
  show Gist.mk _ _ _ _ _ _ _ (c.pru.submission.map f).isSome _ _ _ _ _ = Gist.mk ..
  rw [Option.isSome_map]
  rfl

@[simp] theorem Chip.onScreen_gist (c : Chip) (p : Fin 12) (f : Screen → Screen) : (c.onScreen p f).gist = c.gist := rfl
@[simp] theorem Chip.onFan_gist (c : Chip) (f : FanOut → FanOut) : (c.onFan f).gist = c.gist := rfl
@[simp] theorem Chip.onDrop_gist (c : Chip) (p : Fin 12) (f : Drop → Drop) : (c.onDrop p f).gist = c.gist := rfl
@[simp] theorem Chip.onLine_gist (c : Chip) (l : Fin 3) (f : Line → Line) : (c.onLine l f).gist = c.gist := rfl
@[simp] theorem Chip.onFeed_gist (c : Chip) (n : Fin 4) (f : Feed → Feed) : (c.onFeed n f).gist = c.gist := rfl
@[simp] theorem Chip.onPrinter_gist (c : Chip) (n : Fin 4) (f : Printer → Printer) : (c.onPrinter n f).gist = c.gist := rfl
@[simp] theorem Chip.setMode_gist (c : Chip) (n : Fin 4) (m : BridgeMode) : (c.setMode n m).gist = c.gist := rfl
@[simp] theorem Chip.scuBegin_gist (c : Chip) (e : ScuWork) (rest : List ScuWork) : (c.scuBegin e rest).gist = c.gist := rfl
@[simp] theorem Chip.setSlot_gist (c : Chip) (n : Fin 4) (x : Fin 8) (st : SlotStatus) : (c.setSlot n x st).gist = c.gist := rfl
@[simp] theorem Chip.transmit_gist (c : Chip) (x : HoTx) (b : List Byte) : (c.transmit x b).gist = c.gist := rfl

/-- Steps of a list that keep the gist keep it together. -/
theorem foldl_gist {α : Type} {f : Chip → α → Chip} (h : ∀ c x, (f c x).gist = c.gist) (l : List α) (c : Chip) :
    (l.foldl f c).gist = c.gist := foldl_keeps Chip.gist f h l c

end Sys2Proof.Machine
end

section
/-! PROOF. Which operations keep the gist, in the order of their definitions: each in terms of those it calls. -/

namespace Sys2Proof.Machine

@[simp] theorem Chip.setOverflow_gist (c : Chip) : c.setOverflow.gist = c.gist := by
  unfold Chip.setOverflow
  split
  · exact (Chip.push_gist _ _ _ _ _ (by simp) (by simp) (by simp) (by simp)).trans (c.onSu_gist (fun u => { u with overflow := true }) rfl rfl rfl rfl rfl)
  · rfl

@[simp] theorem Chip.report_gist (c : Chip) (k : ReportKind) (index detail : Nat) : (c.report k index detail).gist = c.gist := by
  unfold Chip.report
  split
  · exact c.onSu_gist (fun u => { u with reports := u.reports ++ [⟨k, index, detail, u.ms⟩] }) rfl rfl rfl rfl rfl
  · exact c.setOverflow_gist

@[simp] theorem Chip.reportStore_gist (c : Chip) (u : Fin 9) (addr : Nat) : (c.reportStore u addr).gist = c.gist :=
  by simp [Chip.reportStore]

@[simp] theorem Chip.finishRequest_gist (c : Chip) (reason : Option Reason) (detail : Nat) :
    (c.finishRequest reason detail).gist = c.gist := by
  unfold Chip.finishRequest
  (repeat' split) <;> simp

@[simp] theorem Chip.requestDone_gist (c : Chip) : c.requestDone.gist = c.gist := by simp [Chip.requestDone]

@[simp] theorem Chip.requestRefused_gist (c : Chip) (r : Reason) (detail : Nat) : (c.requestRefused r detail).gist = c.gist :=
  by simp [Chip.requestRefused]

@[simp] theorem Chip.writeStatus_gist (c : Chip) (off : Nat) (w : Word) : (c.writeStatus off w).gist = c.gist :=
  by simp [Chip.writeStatus]

@[simp] theorem Chip.askDayCrc_gist (c : Chip) (k : After) : (c.askDayCrc k).gist = c.gist := by simp [Chip.askDayCrc]

@[simp] theorem Chip.withdraw_gist (c : Chip) (p : Fin 12) : (c.withdraw p).gist = c.gist := by simp [Chip.withdraw]

@[simp] theorem Chip.markDirty_gist (c : Chip) (p : Fin 12) (r : Fin 25) : (c.markDirty p r).gist = c.gist :=
  by simp [Chip.markDirty]

@[simp] theorem Chip.markAll_gist (c : Chip) (p : Fin 12) : (c.markAll p).gist = c.gist := by simp [Chip.markAll]

/-- Bursts of a row are quiet when their tags are. -/
@[simp] theorem Chip.pushRow_gist (c : Chip) (u : Fin 9) (addr : Nat) (ws : List Word) (tag : Nat → Tag) (hl : ∀ j, tag j ≠ .loadingState)
    (hr : ∀ j code, tag j ≠ .operands code) : (c.pushAll u (rowBursts addr ws tag)).gist = c.gist := by
  refine c.pushAll_gist u _ ?_ ?_ ?_ ?_ <;> intro r hr' <;> obtain ⟨j, -, rfl⟩ := List.mem_map.mp hr'
  · exact hl j
  · exact hr j
  · simp
  · simp

@[simp] theorem Chip.fanWriteTo_gist (c : Chip) (q : Fin 12) : (c.fanWriteTo q).gist = c.gist :=
  c.pushRow_gist _ _ _ _ (by simp) (by simp)

@[simp] theorem Chip.scuTake_gist (c : Chip) (work : List ScuWork) : (c.scuTake work).gist = c.gist := by
  induction work generalizing c with
  | nil => rfl
  | cons e rest ih =>
    cases e with
    | status p => rfl
    | count p => unfold Chip.scuTake; split <;> simp [ih]
    | mode p fin => unfold Chip.scuTake; (repeat' split) <;> simp [ih]
    | fanRead => unfold Chip.scuTake; simp
    | fanWrite p => unfold Chip.scuTake; split <;> simp [ih]

@[simp] theorem Chip.scuPump_gist (c : Chip) : c.scuPump.gist = c.gist := by
  unfold Chip.scuPump
  (repeat' split) <;> simp

@[simp] theorem Chip.addWork_gist (c : Chip) (e : ScuWork) : (c.addWork e).gist = c.gist := (Chip.scuPump_gist _).trans rfl

@[simp] theorem Chip.scuServed_gist (c : Chip) : c.scuServed.gist = c.gist := (Chip.scuPump_gist _).trans rfl

@[simp] theorem Chip.judgeFlash_gist (c : Chip) (p : Fin 12) : (c.judgeFlash p).gist = c.gist := by
  unfold Chip.judgeFlash
  dsimp only
  (repeat' split) <;> simp

@[simp] theorem Chip.statusEvent_gist (c : Chip) (p : Fin 12) : (c.statusEvent p).gist = c.gist := by
  unfold Chip.statusEvent
  dsimp only
  (repeat' split) <;> simp

@[simp] theorem Chip.statusEventAll_gist (c : Chip) : c.statusEventAll.gist = c.gist :=
  foldl_gist (fun c p => c.statusEvent_gist p) _ _

@[simp] theorem Chip.statusRowRender_gist (c : Chip) : c.statusRowRender.gist = c.gist := by
  unfold Chip.statusRowRender
  split
  · split
    · dsimp only
      split
      · exact (Chip.scuPump_gist _).trans rfl
      · exact (Chip.pushRow_gist _ _ _ _ _ (by simp) (by simp)).trans rfl
    · exact (Chip.scuPump_gist _).trans rfl
  · rfl

@[simp] theorem Chip.statusAnswered_gist (c : Chip) (p : Fin 12) (burst addr : Nat) (okay : Bool) :
    (c.statusAnswered p burst addr okay).gist = c.gist := by
  unfold Chip.statusAnswered
  (repeat' split) <;> simp

@[simp] theorem Chip.scuWordAnswered_gist (c : Chip) (addr : Nat) (okay : Bool) : (c.scuWordAnswered addr okay).gist = c.gist := by
  unfold Chip.scuWordAnswered
  (repeat' split) <;> simp

@[simp] theorem Chip.flashToggle_gist (c : Chip) (p : Fin 12) : (c.flashToggle p).gist = c.gist := by
  unfold Chip.flashToggle
  (repeat' split) <;> simp

@[simp] theorem Chip.sweepStart_gist (c : Chip) (p : Fin 12) : (c.sweepStart p).gist = c.gist := by
  unfold Chip.sweepStart
  (repeat' split) <;> simp

@[simp] theorem Chip.sweepCheck_gist (c : Chip) (p : Fin 12) : (c.sweepCheck p).gist = c.gist := by
  unfold Chip.sweepCheck
  dsimp only
  (repeat' split) <;> simp

@[simp] theorem Chip.takeRow_gist (c : Chip) (p : Fin 12) (r : Fin 25) : (c.takeRow p r).gist = c.gist := by simp [Chip.takeRow]

@[simp] theorem Chip.readBegun_gist (c : Chip) (p : Fin 12) : (c.readBegun p).gist = c.gist := by simp [Chip.readBegun]

@[simp] theorem Chip.rowEnds_gist (c : Chip) (p : Fin 12) (delivered : Bool) : (c.rowEnds p delivered).gist = c.gist :=
  by simp [Chip.rowEnds]

@[simp] theorem Chip.abandonSweep_gist (c : Chip) (p : Fin 12) : (c.abandonSweep p).gist = c.gist := by simp [Chip.abandonSweep]

@[simp] theorem Chip.writeMode_gist (c : Chip) (p : Fin 12) (fin : Bool) : (c.writeMode p fin).gist = c.gist :=
  by simp [Chip.writeMode]

@[simp] theorem Chip.modeChanged_gist (c : Chip) (p : Fin 12) (old : Mode) (fin : Bool) :
    (c.modeChanged p old fin).gist = c.gist := by
  unfold Chip.modeChanged
  dsimp only
  (repeat' split) <;> simp

@[simp] theorem Chip.decidePlain_gist (c : Chip) (p : Fin 12) : (c.decidePlain p).gist = c.gist := by
  unfold Chip.decidePlain
  dsimp only
  (repeat' split) <;> simp

@[simp] theorem Chip.serveScreenMode_gist (c : Chip) (p : Fin 12) (m : Mode) (plain : Bool) :
    (c.serveScreenMode p m plain).gist = c.gist := by
  unfold Chip.serveScreenMode
  dsimp only
  (repeat' split) <;> simp

@[simp] theorem Chip.serveScreenRefresh_gist (c : Chip) (p : Fin 12) : (c.serveScreenRefresh p).gist = c.gist :=
  by simp [Chip.serveScreenRefresh]

@[simp] theorem Chip.restartIdle_gist (c : Chip) (p : Fin 12) : (c.restartIdle p).gist = c.gist := by simp [Chip.restartIdle]

@[simp] theorem Chip.idleTimerExpiry_gist (c : Chip) (p : Fin 12) : (c.idleTimerExpiry p).gist = c.gist := by
  unfold Chip.idleTimerExpiry
  dsimp only
  (repeat' split) <;> simp

@[simp] theorem Chip.scuAttached_gist (c : Chip) (p : Fin 12) : (c.scuAttached p).gist = c.gist := by simp [Chip.scuAttached]

@[simp] theorem Chip.scuLineReset_gist (c : Chip) (p : Fin 12) : (c.scuLineReset p).gist = c.gist := by simp [Chip.scuLineReset]

@[simp] theorem Chip.fanNext_gist (c : Chip) : c.fanNext.gist = c.gist := by
  unfold Chip.fanNext
  (repeat' split) <;> simp

@[simp] theorem Chip.fanOutStart_gist (c : Chip) : c.fanOutStart.gist = c.gist := by
  unfold Chip.fanOutStart
  (repeat' split) <;> simp

@[simp] theorem Chip.fanReadAnswered_gist (c : Chip) (burst addr : Nat) (okay : Bool) (data : List Word) :
    (c.fanReadAnswered burst addr okay data).gist = c.gist := by
  unfold Chip.fanReadAnswered
  dsimp only
  (repeat' split) <;> simp

@[simp] theorem Chip.fanWritten_gist (c : Chip) : c.fanWritten.gist = c.gist := by
  unfold Chip.fanWritten
  dsimp only
  (repeat' split) <;> simp

@[simp] theorem Chip.fanWriteAnswered_gist (c : Chip) (p : Fin 12) (burst addr : Nat) (okay : Bool) :
    (c.fanWriteAnswered p burst addr okay).gist = c.gist := by
  unfold Chip.fanWriteAnswered
  (repeat' split) <;> simp

@[simp] theorem Chip.dropFanWrites_gist (c : Chip) : c.dropFanWrites.gist = c.gist := by
  unfold Chip.dropFanWrites
  dsimp only
  split
  · refine (Chip.fanWritten_gist _).trans (c.filter_gist (u := rSCU) (by decide) fun r hr => ?_)
    unfold Chip.fanWriteAbsent
    split
    · next h => rw [h] at hr; cases hr
    · rfl
  · rfl

@[simp] theorem Chip.scuLoaded_gist (c : Chip) : c.scuLoaded.gist = c.gist := by
  refine (Chip.statusEventAll_gist _).trans (foldl_gist (fun c p => ?_) _ _)
  split <;> simp

@[simp] theorem Chip.scuMoved_gist (c : Chip) : c.scuMoved.gist = c.gist := by
  refine (Chip.statusEventAll_gist _).trans ((foldl_gist (fun c p => ?_) _ _).trans c.dropFanWrites_gist)
  simp

/-- The bursts of a mirror are quiet. -/
@[simp] theorem Chip.pushMirrors_gist (c d : Chip) (rs : List OwnReq) (h : ∀ r ∈ rs, ∃ i k, r ∈ d.mirrorReqs i k) :
    (c.pushAll rCU rs).gist = c.gist := by
  have hform (r : OwnReq) (hr : r ∈ rs) : ∃ off ws i j k, r = ⟨.totals off ws, .mirror i j k, false⟩ := by
    obtain ⟨i, k, hik⟩ := h r hr
    obtain ⟨j, -, rfl⟩ := List.mem_map.mp hik
    exact ⟨_, _, _, _, _, rfl⟩
  refine c.pushAll_gist _ _ ?_ ?_ ?_ ?_ <;> intro r hr <;> obtain ⟨off, ws, i, j, k, rfl⟩ := hform r hr <;> simp

@[simp] theorem Chip.writeMirrors_gist (c : Chip) (is : List (Fin 13)) (k : After) : (c.writeMirrors is k).gist = c.gist := by
  unfold Chip.writeMirrors
  split
  · split
    · rfl
    · refine (Chip.pushMirrors_gist _ c _ fun r hr => ⟨_, _, hr⟩).trans (Chip.pushMirrors_gist _ c _ fun r hr => ?_)
      obtain ⟨i, -, hi⟩ := List.mem_flatMap.mp hr
      exact ⟨_, _, hi⟩
  · rfl

@[simp] theorem Chip.writeRunning_gist (c : Chip) (k : After) : (c.writeRunning k).gist = c.gist := by simp [Chip.writeRunning]

@[simp] theorem Chip.writeAnchor_gist (c : Chip) (k : After) : (c.writeAnchor k).gist = c.gist := by simp [Chip.writeAnchor]

@[simp] theorem Chip.writeAnchorOutside_gist (c : Chip) (k : After) : (c.writeAnchorOutside k).gist = c.gist :=
  by simp [Chip.writeAnchorOutside]

@[simp] theorem Chip.mirrorAnswered_gist (c : Chip) (i : Fin 13) (burst addr : Nat) (okay : Bool) :
    (c.mirrorAnswered i burst addr okay).gist = c.gist := by
  unfold Chip.mirrorAnswered
  (repeat' split) <;> simp

@[simp] theorem Chip.runningAnswered_gist (c : Chip) (burst addr : Nat) (okay : Bool) :
    (c.runningAnswered burst addr okay).gist = c.gist := by
  unfold Chip.runningAnswered
  (repeat' split) <;> simp

@[simp] theorem Chip.anchorBurst_gist (c : Chip) (burst addr : Nat) (okay : Bool) :
    (c.anchorBurst burst addr okay).gist = c.gist := by
  unfold Chip.anchorBurst
  (repeat' split) <;> simp

@[simp] theorem Chip.drawerNotice_gist (c : Chip) (i : Nat) : (c.drawerNotice i).gist = c.gist := by
  unfold Chip.drawerNotice
  (repeat' split) <;> simp

@[simp] theorem Chip.tellChanged_gist (c : Chip) (before : Vector Drawer 13) : (c.tellChanged before).gist = c.gist := by
  refine foldl_gist (fun c i => ?_) _ _
  split
  · rfl
  · exact c.drawerNotice_gist _

@[simp] theorem Chip.dayNotice_gist (c : Chip) : c.dayNotice.gist = c.gist := by
  refine (Chip.statusEventAll_gist _).trans ?_
  split
  · rfl
  · exact foldl_gist (fun c p => c.withdraw_gist p) _ _

@[simp] theorem Chip.ring_gist (c : Chip) (p : Fin 12) : (c.ring p).gist = c.gist := by simp [Chip.ring]

/-- A drawer record changed leaves the day and the walk. -/
theorem CuState.onDrawer_day (cu : CuState) (i : Nat) (f : Drawer → Drawer) : (cu.onDrawer i f).day = cu.day := by
  unfold CuState.onDrawer
  split <;> rfl

@[simp] theorem CuState.onDrawer_walk (cu : CuState) (i : Nat) (f : Drawer → Drawer) : (cu.onDrawer i f).walk = cu.walk := by
  unfold CuState.onDrawer
  split <;> rfl

/-- A drawer record changed is no matter of the gist. -/
@[simp] theorem Chip.onDrawer_gist (c : Chip) (i : Nat) (f : Drawer → Drawer) : (c.onCu (·.onDrawer i f)).gist = c.gist :=
  c.onCu_gist _ (by rw [CuState.onDrawer_day]) (by rw [CuState.onDrawer_walk])

@[simp] theorem Chip.judgeExcess_gist (c : Chip) (p : Fin 12) (detail : Nat) : (c.judgeExcess p detail).gist = c.gist := by
  unfold Chip.judgeExcess
  dsimp only
  (repeat' split) <;> simp only [Chip.ring_gist, Chip.report_gist, Chip.onDrawer_gist]

@[simp] theorem Chip.judgeQuietly_gist (c : Chip) (p : Fin 12) : (c.judgeQuietly p).gist = c.gist := c.onDrawer_gist _ _

@[simp] theorem Chip.judgeAllQuietly_gist (c : Chip) : c.judgeAllQuietly.gist = c.gist :=
  foldl_gist (fun c p => c.judgeQuietly_gist p) _ _

@[simp] theorem Chip.ceilingChanged_gist (c : Chip) (p : Fin 12) : (c.ceilingChanged p).gist = c.gist := by
  unfold Chip.ceilingChanged
  dsimp only
  (repeat' split) <;> simp

@[simp] theorem Chip.kindReports_gist (c : Chip) (k : RecordKind) (r : JRecord) : (c.kindReports k r).gist = c.gist := by
  unfold Chip.kindReports
  (repeat' split) <;> simp

@[simp] theorem Chip.applyWrites_gist (c : Chip) (k : RecordKind) (r : JRecord) : (c.applyWrites k r).gist = c.gist := by
  unfold Chip.applyWrites
  (repeat' split) <;> simp

@[simp] theorem Chip.askDamage_gist (c : Chip) (detail : Nat) : (c.askDamage detail).gist = c.gist := by simp [Chip.askDamage]

@[simp] theorem Chip.markDamaged_gist (c : Chip) : c.markDamaged.gist = c.gist := by
  unfold Chip.markDamaged
  split
  · rfl
  · next detail rest h =>
    dsimp only
    have h1 : (c.onCu fun cu => { cu with damage := rest }).gist = c.gist := c.onCu_gist _ rfl rfl
    split
    · exact h1
    · have h2 : (((c.onCu fun cu => { cu with damage := rest }).onCu (·.onDay fun d => { d with damaged := true })).report
          .dayDamaged 0 detail).gist = c.gist := (Chip.report_gist _ _ _ _).trans ((Chip.onCu_gist _ _ rfl rfl).trans h1)
      split
      · next w hw => exact (Chip.onCu_gist _ _ rfl (by rw [hw]; rfl)).trans h2
      · exact (Chip.writeAnchorOutside_gist _ _).trans h2

@[simp] theorem Chip.takeDamage_gist (c : Chip) : c.takeDamage.gist = c.gist := foldl_gist (fun c _ => c.markDamaged_gist) _ _

@[simp] theorem Chip.clearStore_gist (c : Chip) : c.clearStore.gist = c.gist := by
  unfold Chip.clearStore
  (repeat' split) <;> simp

@[simp] theorem Chip.cuLoadedNoDay_gist (c : Chip) (defaulted : Bool) : (c.cuLoadedNoDay defaulted).gist = c.gist := by
  unfold Chip.cuLoadedNoDay
  (repeat' split) <;> simp

/-- A walk put in a walk's place. -/
theorem Chip.onWalk_gist (c : Chip) (w : Walk) (h : c.gist.walk = true) : (c.onCu fun cu => { cu with walk := some w }).gist = c.gist :=
  c.onCu_gist _ rfl h.symm

/-- A walk goes on being one. -/
theorem Chip.walkEnds_gist (c : Chip) (w : Walk) (h : c.cu.walk.isSome = true) : (c.walkEnds w).gist = c.gist :=
  c.onWalk_gist _ h

/-- A walk goes on being one. -/
theorem Chip.walkDamaged_gist (c : Chip) (w : Walk) (h : c.cu.walk.isSome = true) : (c.walkDamaged w).gist = c.gist := by
  unfold Chip.walkDamaged
  dsimp only
  rw [Chip.walkEnds_gist _ _ (by rw [Chip.report_cu]; exact h), Chip.report_gist]
  exact c.onCu_gist _ rfl rfl

@[simp] theorem Chip.rebuildWalkStep_gist (c : Chip) : c.rebuildWalkStep.gist = c.gist := by
  unfold Chip.rebuildWalkStep
  split
  · next w hw =>
    have hs : c.cu.walk.isSome = true := by rw [hw]; rfl
    (repeat' split)
    · exact c.walkEnds_gist w hs
    · exact (Chip.push_gist _ _ _ _ _ (by simp) (by simp) (by simp) (by simp)).trans (c.onCu_gist _ rfl hs.symm)
    · rfl
  · rfl

/-- A record's effect leaves the day's state. -/
@[simp] theorem CuState.applyRecord_state (cu : CuState) (faces : Vector Nat 10) (k : RecordKind) (r : JRecord) :
    (cu.applyRecord faces k r).day.state = cu.day.state := by
  have hvoid : (cu.applyVoid r).day.state = cu.day.state := by
    unfold CuState.applyVoid
    split <;> simp [CuState.onDay, CuState.onDrawer_day]
  have hkind : (cu.applyKind faces k r).day.state = cu.day.state := by
    unfold CuState.applyKind
    split <;> simp [CuState.onDay, CuState.onDrawer_day, hvoid]
  show (CuState.onDrawer _ _ _).day.state = _
  rw [CuState.onDrawer_day, hkind]

/-- A record's effect leaves the walk. -/
@[simp] theorem CuState.applyRecord_walk (cu : CuState) (faces : Vector Nat 10) (k : RecordKind) (r : JRecord) :
    (cu.applyRecord faces k r).walk = cu.walk := by
  have hvoid : (cu.applyVoid r).walk = cu.walk := by
    unfold CuState.applyVoid
    split <;> simp [CuState.onDay]
  have hkind : (cu.applyKind faces k r).walk = cu.walk := by
    unfold CuState.applyKind
    split <;> simp [CuState.onDay, hvoid]
  show (CuState.onDrawer _ _ _).walk = _
  rw [CuState.onDrawer_walk, hkind]

@[simp] theorem Chip.judgeWalked_gist (c : Chip) (is : List Nat) : (c.judgeWalked is).gist = c.gist := by
  refine foldl_gist (fun c i => ?_) _ _
  split
  · exact c.judgeQuietly_gist _
  · rfl

/-- A walk goes on being one. -/
theorem Chip.walkApply_gist (c : Chip) (w : Walk) (k : RecordKind) (r : JRecord) (h : c.cu.walk.isSome = true) :
    (c.walkApply w k r).gist = c.gist := by
  have h1 : ((c.onCu (·.applyRecord c.faces k r)).judgeWalked (countsChanged k r)).gist = c.gist :=
    (Chip.judgeWalked_gist _ _).trans (c.onCu_gist _ (CuState.applyRecord_state ..) (by rw [CuState.applyRecord_walk]))
  exact (Chip.onWalk_gist _ _ ((congrArg Gist.walk h1).trans h)).trans h1

/-- A walk goes on being one. -/
theorem Chip.walkJudge_gist (c : Chip) (w : Walk) (ws : List Word) (h : c.cu.walk.isSome = true) :
    (c.walkJudge w ws).gist = c.gist := by
  unfold Chip.walkJudge
  dsimp only
  (repeat' split) <;> simp [Chip.walkEnds_gist, Chip.walkDamaged_gist, Chip.walkApply_gist, h]

/-- A walk goes on being one. -/
theorem Chip.walkVoid_gist (c : Chip) (w : Walk) (ws orig : List Word) (h : c.cu.walk.isSome = true) :
    (c.walkVoid w ws orig).gist = c.gist := by
  unfold Chip.walkVoid
  dsimp only
  split
  · exact c.walkDamaged_gist w h
  · split
    · exact c.walkDamaged_gist w h
    · split
      · exact c.walkDamaged_gist w h
      · split
        · refine (Chip.push_gist _ _ _ _ _ (by simp) (by simp) (by simp) (by simp)).trans ?_
          have h1 := c.walkApply_gist w .void { recordOfWords ws with original := some ‹RecordKind› } h
          exact (Chip.onWalk_gist _ _ ((congrArg Gist.walk h1).trans h)).trans h1
        · exact c.walkApply_gist w _ _ h

@[simp] theorem Chip.addUnstamped_gist (c : Chip) (r : Nat) : (c.addUnstamped r).gist = c.gist := by
  unfold Chip.addUnstamped
  split
  · exact c.onJu_gist (fun j => { j with unstamped := j.unstamped ++ [r] }) rfl
  · exact (Chip.askDamage_gist _ _).trans (c.onJu_gist (fun j => { j with overflowMark := true }) rfl)

/-- A walk that stands at a phase is a walk. -/
theorem CuState.walk_of_walkIn {cu : CuState} {ph : WalkPhase} (h : (cu.walkIn ph).isSome = true) : cu.walk.isSome = true := by
  unfold CuState.walkIn at h
  cases hw : cu.walk with
  | none => rw [hw] at h; cases h
  | some w => rfl

@[simp] theorem Chip.walkAnswered_gist (c : Chip) (tag : Tag) (okay : Bool) (addr : Nat) (data : List Word) :
    (c.walkAnswered tag okay addr data).gist = c.gist := by
  unfold Chip.walkAnswered
  split
  · rfl
  · next w hw =>
    have h : c.cu.walk.isSome = true := CuState.walk_of_walkIn (ph := .reading) (by rw [hw]; rfl)
    split
    · split <;> simp [Chip.walkDamaged_gist, h]
    · split <;> simp [Chip.walkDamaged_gist, Chip.walkJudge_gist, h]
    · split <;> simp [Chip.walkDamaged_gist, h]
    · split <;> simp [Chip.walkDamaged_gist, Chip.walkVoid_gist, h]
    · next r =>
      have h1 : (if okay then c else (c.reportStore rCU addr).addUnstamped r).gist = c.gist := by
        split <;> simp
      exact (Chip.onWalk_gist _ _ ((congrArg Gist.walk h1).trans h)).trans h1
    · rfl

@[simp] theorem Chip.confirmClosed_gist (c : Chip) (w : Walk) : (c.confirmClosed w).gist = c.gist := by
  unfold Chip.confirmClosed
  split
  · rfl
  · refine (Chip.tellChanged_gist _ _).trans ((Chip.onCu_gist _ _ rfl (Option.isSome_map ..)).trans ((Chip.onDrawer_gist _ _ _).trans
      ((Chip.onCu_gist _ _ rfl rfl).trans ((Chip.report_gist _ _ _ _).trans (c.onCu_gist _ rfl rfl)))))

@[simp] theorem Chip.post_gist (c : Chip) (op : OwnOp) (st : PostStep) (hc : op ≠ .settingsCrc) (hw : ∀ i n, op ≠ .settingWords i n) :
    (c.post op st).gist = c.gist := c.push_gist _ _ _ _ (by simp) (by simp) hc hw

@[simp] theorem Chip.refusePosting_gist (c : Chip) (slot : Fin 13) (r : Reason) (detail : Nat) :
    (c.refusePosting slot r detail).gist = c.gist :=
  by simp [Chip.refusePosting]

@[simp] theorem Chip.readSlot_gist (c : Chip) (slot : Fin 13) : (c.readSlot slot).gist = c.gist := by simp [Chip.readSlot]

@[simp] theorem Chip.stepThree_gist (c : Chip) (po : Posting) : (c.stepThree po).gist = c.gist := by simp [Chip.stepThree]

/-- A posting goes on being one. -/
theorem Chip.acceptPosting_gist (c : Chip) (po : Posting) (k : RecordKind) (r : JRecord) (h : c.ju.posting.isSome = true) :
    (c.acceptPosting po k r).gist = c.gist := by
  have h1 : (c.onJu fun j => { j with posting := some { po with record := fillRecord k po.slot c.ju.nextSeq r } }).gist = c.gist :=
    c.onJu_gist _ h.symm
  unfold Chip.acceptPosting
  dsimp only
  split
  · exact (Chip.post_gist _ _ _ (by simp) (by simp)).trans h1
  · exact (Chip.stepThree_gist _ _).trans h1

/-- A posting goes on being one. -/
theorem Chip.validate_gist (c : Chip) (po : Posting) (h : c.ju.posting.isSome = true) : (c.validate po).gist = c.gist := by
  unfold Chip.validate
  dsimp only
  (repeat' split) <;> simp [Chip.acceptPosting_gist, h]

/-- A posting goes on being one. -/
theorem Chip.validateVoid_gist (c : Chip) (po : Posting) (h : c.ju.posting.isSome = true) : (c.validateVoid po).gist = c.gist := by
  unfold Chip.validateVoid
  dsimp only
  (repeat' split) <;> simp [Chip.acceptPosting_gist, h]

@[simp] theorem Chip.handOver_gist (c : Chip) : c.handOver.gist = c.gist := by simp [Chip.handOver]

@[simp] theorem Chip.judgeNearFull_gist (c : Chip) (seq : Nat) : (c.judgeNearFull seq).gist = c.gist := by
  unfold Chip.judgeNearFull
  (repeat' split) <;> simp

@[simp] theorem Chip.postingApplied_gist (c : Chip) : c.postingApplied.gist = c.gist := by
  unfold Chip.postingApplied
  (repeat' split) <;> simp

@[simp] theorem Chip.juReport_gist (c : Chip) (okay : Bool) (addr : Nat) : (c.juReport okay addr).gist = c.gist := by
  unfold Chip.juReport
  (repeat' split) <;> simp

@[simp] theorem Chip.resolveFrom_gist (c : Chip) (k base : Nat) : (c.resolveFrom k base).gist = c.gist := by
  unfold Chip.resolveFrom
  dsimp only
  (repeat' split) <;> simp

@[simp] theorem Chip.resolveSlots_gist (c : Chip) : c.resolveSlots.gist = c.gist := by simp [Chip.resolveSlots]

@[simp] theorem Chip.slotReadAnswered_gist (c : Chip) (k base : Nat) (okay : Bool) (addr : Nat) (data : List Word) :
    (c.slotReadAnswered k base okay addr data).gist = c.gist := by
  unfold Chip.slotReadAnswered
  dsimp only
  (repeat' split) <;> simp

@[simp] theorem Chip.slotLostAnswered_gist (c : Chip) (k base : Nat) (okay : Bool) (addr : Nat) :
    (c.slotLostAnswered k base okay addr).gist = c.gist :=
  by simp [Chip.slotLostAnswered]

@[simp] theorem Chip.stopResolving_gist (c : Chip) : c.stopResolving.gist = c.gist := by
  refine (Chip.onJu_gist _ _ rfl).trans (c.filter_gist (u := rJU) (by decide) fun r hr => ?_)
  cases h : r.tag with
  | loadingState => rfl
  | operands code => rfl
  | _ => rw [h] at hr; cases hr

@[simp] theorem Chip.juLoadedNoDay_gist (c : Chip) : c.juLoadedNoDay.gist = c.gist := by
  unfold Chip.juLoadedNoDay
  dsimp only
  (repeat' split) <;> simp

@[simp] theorem Chip.clearSlots_gist (c : Chip) : c.clearSlots.gist = c.gist := by
  unfold Chip.clearSlots
  (repeat' split) <;> simp

@[simp] theorem Chip.slotEmptyAnswered_gist (c : Chip) (last : Bool) (okay : Bool) (addr : Nat) :
    (c.slotEmptyAnswered last okay addr).gist = c.gist := by
  unfold Chip.slotEmptyAnswered
  (repeat' split) <;> simp

@[simp] theorem Chip.recordRead_gist (c : Chip) (who : ReadFor) (s : Nat) : (c.recordRead who s).1.gist = c.gist := by
  unfold Chip.recordRead
  (repeat' split) <;> simp

@[simp] theorem Chip.recordJudge_gist (c : Chip) (who : ReadFor) (s : Nat) (ws : List Word) :
    (c.recordJudge who s ws).1.gist = c.gist := by
  unfold Chip.recordJudge
  dsimp only
  (repeat' split) <;> simp

@[simp] theorem Chip.recordAnswered_gist (c : Chip) (tag : Tag) (okay : Bool) (addr : Nat) (data : List Word) :
    (c.recordAnswered tag okay addr data).1.gist = c.gist := by
  unfold Chip.recordAnswered
  (repeat' split) <;> simp

@[simp] theorem Chip.askStamp_gist (c : Chip) (n : Fin 4) (seq : Nat) (ps : PrintState) : (c.askStamp n seq ps).gist = c.gist :=
  by simp [Chip.askStamp]

@[simp] theorem Chip.printStateStamp_gist (c : Chip) : c.printStateStamp.gist = c.gist := by
  unfold Chip.printStateStamp
  (repeat' split) <;> simp

@[simp] theorem Chip.stampEnds_gist (c : Chip) (r : StampReq) (stamped : Bool) : (c.stampEnds r stamped).1.gist = c.gist :=
  by simp [Chip.stampEnds]

@[simp] theorem Chip.stampAnswered_gist (c : Chip) (tag : Tag) (okay : Bool) (addr : Nat) (data : List Word) :
    (c.stampAnswered tag okay addr data).1.gist = c.gist := by
  unfold Chip.stampAnswered
  dsimp only
  (repeat' split) <;> simp

@[simp] theorem Chip.writeControl_gist (c : Chip) (p : Fin 12) (off : Nat) (w : Word) : (c.writeControl p off w).gist = c.gist := by
  unfold Chip.writeControl
  (repeat' split) <;> simp

@[simp] theorem Chip.writeTerminal_gist (c : Chip) (p : Fin 12) : (c.writeTerminal p).gist = c.gist :=
  by simp [Chip.writeTerminal]

@[simp] theorem Chip.writeKeyWord_gist (c : Chip) (p : Fin 12) : (c.writeKeyWord p).gist = c.gist := by
  unfold Chip.writeKeyWord
  (repeat' split) <;> simp

@[simp] theorem Chip.takeLine_gist (c : Chip) (l : Fin 3) (d : Fin 4) (f : LineFrame) : (c.takeLine l d f).gist = c.gist :=
  by simp [Chip.takeLine]

@[simp] theorem Chip.readRowBurst_gist (c : Chip) (p : Fin 12) (r : Fin 25) (burst : Nat) (w : List Word) :
    (c.readRowBurst p r burst w).gist = c.gist :=
  by simp [Chip.readRowBurst]

@[simp] theorem Chip.serveTurn_gist (c : Chip) (l : Fin 3) (d : Fin 4) (t : TurnChoice) : (c.serveTurn l d t).gist = c.gist := by
  unfold Chip.serveTurn
  (repeat' split) <;> simp

@[simp] theorem Chip.lineTurn_gist (c : Chip) (l : Fin 3) : (c.lineTurn l).gist = c.gist := by
  unfold Chip.lineTurn
  (repeat' split) <;> simp

@[simp] theorem Chip.rowReadAnswered_gist (c : Chip) (p : Fin 12) (burst epoch : Nat) (w : List Word) (okay : Bool) (addr : Nat) (data : List Word) :
    (c.rowReadAnswered p burst epoch w okay addr data).gist = c.gist := by
  unfold Chip.rowReadAnswered
  dsimp only
  (repeat' split) <;> simp

@[simp] theorem Chip.lineGapExpiry_gist (c : Chip) (l : Fin 3) : (c.lineGapExpiry l).gist = c.gist := by
  unfold Chip.lineGapExpiry
  dsimp only
  (repeat' split) <;> simp

@[simp] theorem Chip.frameSent_gist (c : Chip) (l : Fin 3) : (c.frameSent l).gist = c.gist := by
  unfold Chip.frameSent
  (repeat' split) <;> simp

@[simp] theorem Chip.setAttention_gist (c : Chip) (p : Fin 12) (on : Bool) : (c.setAttention p on).gist = c.gist :=
  by simp [Chip.setAttention]

@[simp] theorem Chip.setSensor_gist (c : Chip) (p : Fin 12) (s : Sensor) : (c.setSensor p s).gist = c.gist := by
  unfold Chip.setSensor
  dsimp only
  (repeat' split) <;> simp

@[simp] theorem Chip.openLongExpiry_gist (c : Chip) (p : Fin 12) : (c.openLongExpiry p).gist = c.gist := by
  unfold Chip.openLongExpiry
  (repeat' split) <;> simp

@[simp] theorem Chip.pulse_gist (c : Chip) (p : Fin 12) : (c.pulse p).gist = c.gist := by simp [Chip.pulse]

@[simp] theorem Chip.serveDrawerRelease_gist (c : Chip) (p : Fin 12) : (c.serveDrawerRelease p).gist = c.gist := by
  unfold Chip.serveDrawerRelease
  (repeat' split) <;> simp

@[simp] theorem Chip.releasePulseEnd_gist (c : Chip) (p : Fin 12) : (c.releasePulseEnd p).gist = c.gist := by
  unfold Chip.releasePulseEnd
  (repeat' split) <;> simp

@[simp] theorem Chip.placeFrom_gist (c : Chip) (l : Fin 3) (keys : List KeyJob) : (c.placeFrom l keys).gist = c.gist := by
  induction keys generalizing c with
  | nil => rfl
  | cons j rest ih =>
    unfold Chip.placeFrom
    dsimp only
    (repeat' split) <;> simp [ih]

@[simp] theorem Chip.placeNext_gist (c : Chip) (l : Fin 3) : (c.placeNext l).gist = c.gist := by
  unfold Chip.placeNext
  split
  · rfl
  · exact c.placeFrom_gist _ _

@[simp] theorem Chip.placed_gist (c : Chip) (l : Fin 3) : (c.placed l).gist = c.gist := by simp [Chip.placed]

@[simp] theorem Chip.keyEntryAnswered_gist (c : Chip) (p : Fin 12) (epoch : Nat) (okay : Bool) (addr : Nat) :
    (c.keyEntryAnswered p epoch okay addr).gist = c.gist := by
  unfold Chip.keyEntryAnswered
  (repeat' split) <;> simp

@[simp] theorem Chip.keyIndexAnswered_gist (c : Chip) (p : Fin 12) (epoch : Nat) (okay : Bool) (addr : Nat) :
    (c.keyIndexAnswered p epoch okay addr).gist = c.gist := by
  unfold Chip.keyIndexAnswered
  (repeat' split) <;> simp

@[simp] theorem Chip.scuKey_gist (c : Chip) (p : Fin 12) : (c.scuKey p).2.gist = c.gist := by
  unfold Chip.scuKey
  dsimp only
  split
  · exact (Chip.modeChanged_gist _ _ _ _).trans (c.restartIdle_gist p)
  · exact c.restartIdle_gist p

@[simp] theorem Chip.takeKey_gist (c : Chip) (p : Fin 12) (stamp : Nat) (key : BitVec 16) :
    (c.takeKey p stamp key).gist = c.gist := by
  have h := c.scuKey_gist p
  unfold Chip.takeKey
  split
  · next d hd => rw [hd] at h; exact h
  · next d hd =>
    rw [hd] at h
    rw [← h]
    (repeat' split) <;> simp

@[simp] theorem Chip.keyReadIndexTaken_gist (c : Chip) (p : Fin 12) (v : Nat) : (c.keyReadIndexTaken p v).gist = c.gist := by
  unfold Chip.keyReadIndexTaken
  dsimp only
  (repeat' split) <;> simp

@[simp] theorem Chip.exchangeEnds_gist (c : Chip) (l : Fin 3) (d : Fin 4) : (c.exchangeEnds l d).gist = c.gist :=
  by simp [Chip.exchangeEnds]

@[simp] theorem Chip.byteSeen_gist (c : Chip) (l : Fin 3) : (c.byteSeen l).gist = c.gist := by simp [Chip.byteSeen]

@[simp] theorem Chip.undelivered_gist (c : Chip) (p : Fin 12) (f : LineFrame) : (c.undelivered p f).gist = c.gist := by
  unfold Chip.undelivered
  (repeat' split) <;> simp

@[simp] theorem Chip.terminalLost_gist (c : Chip) (p : Fin 12) : (c.terminalLost p).gist = c.gist := by simp [Chip.terminalLost]

@[simp] theorem Chip.attachFails_gist (c : Chip) (p : Fin 12) : (c.attachFails p).gist = c.gist := by simp [Chip.attachFails]

@[simp] theorem Chip.miss_gist (c : Chip) (l : Fin 3) (d : Fin 4) (f : LineFrame) : (c.miss l d f).gist = c.gist := by
  unfold Chip.miss
  dsimp only
  (repeat' split) <;> simp

@[simp] theorem Chip.readSensor_gist (c : Chip) (p : Fin 12) (x : Option Bool) : (c.readSensor p x).gist = c.gist := by
  unfold Chip.readSensor
  (repeat' split) <;> simp

@[simp] theorem Chip.acked_gist (c : Chip) (l : Fin 3) (d : Fin 4) (f : LineFrame) (sensor : Option Bool) (keys : List (BitVec 16)) :
    (c.acked l d f sensor keys).gist = c.gist := by
  refine (Chip.placeNext_gist _ _).trans ((foldl_gist (fun c k => c.takeKey_gist _ _ k) _ _).trans ?_)
  rw [Chip.readSensor_gist]
  split <;> simp

@[simp] theorem Chip.naked_gist (c : Chip) (l : Fin 3) (d : Fin 4) (f : LineFrame) : (c.naked l d f).gist = c.gist :=
  by simp [Chip.naked]

@[simp] theorem Chip.idented_gist (c : Chip) (l : Fin 3) (d : Fin 4) (colour : Option Bool) (keyboard revision : Byte) :
    (c.idented l d colour keyboard revision).gist = c.gist :=
  by simp [Chip.idented]

@[simp] theorem Chip.takeAck_gist (c : Chip) (l : Fin 3) (sensor : Option Bool) (keys : List (BitVec 16)) :
    (c.takeAck l sensor keys).gist = c.gist := by
  unfold Chip.takeAck
  (repeat' split) <;> simp

@[simp] theorem Chip.terminalAck_gist (c : Chip) (l : Fin 3) (sensorOpen : Bool) (keys : List (BitVec 16)) :
    (c.terminalAck l sensorOpen keys).gist = c.gist :=
  by simp [Chip.terminalAck]

@[simp] theorem Chip.terminalNak_gist (c : Chip) (l : Fin 3) : (c.terminalNak l).gist = c.gist := by
  unfold Chip.terminalNak
  (repeat' split) <;> simp

@[simp] theorem Chip.takeIdent_gist (c : Chip) (l : Fin 3) (colour : Option Bool) (keyboard revision : Byte) :
    (c.takeIdent l colour keyboard revision).gist = c.gist := by
  unfold Chip.takeIdent
  (repeat' split) <;> simp

@[simp] theorem Chip.terminalIdent_gist (c : Chip) (l : Fin 3) (colour : Bool) (keyboard revision : Byte) :
    (c.terminalIdent l colour keyboard revision).gist = c.gist :=
  by simp [Chip.terminalIdent]

@[simp] theorem Chip.damagedAnswer_gist (c : Chip) (l : Fin 3) (bytes : List Byte) : (c.damagedAnswer l bytes).gist = c.gist := by
  unfold Chip.damagedAnswer
  (repeat' split) <;> simp

@[simp] theorem Chip.answerPauseTimeout_gist (c : Chip) (l : Fin 3) : (c.answerPauseTimeout l).gist = c.gist := by
  unfold Chip.answerPauseTimeout
  (repeat' split) <;> simp

@[simp] theorem Chip.replyTimeout_gist (c : Chip) (l : Fin 3) : (c.replyTimeout l).gist = c.gist := by
  unfold Chip.replyTimeout
  (repeat' split) <;> simp

@[simp] theorem Chip.pollIntervalExpiry_gist (c : Chip) (p : Fin 12) : (c.pollIntervalExpiry p).gist = c.gist := by
  unfold Chip.pollIntervalExpiry
  (repeat' split) <;> simp

@[simp] theorem Chip.attachAttemptDue_gist (c : Chip) (p : Fin 12) : (c.attachAttemptDue p).gist = c.gist := by
  unfold Chip.attachAttemptDue
  (repeat' split) <;> simp

/-- A line's requester is not SU. -/
theorem rSLC_ne_rSU : ∀ l : Fin 3, rSLC l ≠ rSU := by decide

@[simp] theorem Chip.stopRowRead_gist (c : Chip) (l : Fin 3) : (c.stopRowRead l).gist = c.gist := by
  refine (Chip.onLine_gist _ _ _).trans (c.filter_gist (u := rSLC l) (rSLC_ne_rSU l) fun r hr => ?_)
  cases h : r.tag with
  | loadingState => rfl
  | operands code => rfl
  | _ => rw [h] at hr; cases hr

@[simp] theorem Chip.dropRestart_gist (c : Chip) (p : Fin 12) : (c.dropRestart p).gist = c.gist := by simp [Chip.dropRestart]

@[simp] theorem Chip.lineRestart_gist (c : Chip) (l : Fin 3) : (c.lineRestart l).gist = c.gist :=
  (foldl_gist (fun c _ => c.dropRestart_gist _) _ _).trans ((Chip.onLine_gist _ _ _).trans (c.stopRowRead_gist l))

/-- The last access a unit other than SU asked for ends the request. -/
theorem Chip.finishWithLast_gist (c : Chip) (u : Fin 9) (before : Nat) (hu : u ≠ rSU) :
    (c.finishWithLast u before).gist = c.gist := by
  unfold Chip.finishWithLast
  dsimp only
  split
  · exact c.requestDone_gist
  · split
    · exact c.requestDone_gist
    · next r front h =>
      have hq : (c.own[u.val] : List OwnReq) = front.reverse ++ [r] := by
        rw [← List.reverse_reverse (c.own[u.val] : List OwnReq), h, List.reverse_cons]
      exact c.own_gist (loudOf_put _ _ (by rw [hq]; simp)) (settingsAsked_put _ _ hu)

@[simp] theorem Chip.serveLineReset_gist (c : Chip) (l : Fin 3) : (c.serveLineReset l).gist = c.gist := by
  unfold Chip.serveLineReset
  dsimp only
  rw [Chip.finishWithLast_gist _ _ _ (rSLC_ne_rSU l), Chip.lineRestart_gist]

@[simp] theorem Chip.askKeyInit_gist (c : Chip) (p : Fin 12) : (c.askKeyInit p).gist = c.gist := by
  unfold Chip.askKeyInit
  (repeat' split) <;> simp

@[simp] theorem Chip.keyInitAnswered_gist (c : Chip) (p : Fin 12) (epoch : Nat) (okay : Bool) (addr : Nat) (data : List Word) :
    (c.keyInitAnswered p epoch okay addr data).gist = c.gist := by
  unfold Chip.keyInitAnswered
  dsimp only
  (repeat' split) <;> simp

@[simp] theorem Chip.slcLoaded_gist (c : Chip) : c.slcLoaded.gist = c.gist := by
  refine (foldl_gist (fun c p => c.askKeyInit_gist p) _ _).trans (foldl_gist (fun c l => c.onLine_gist l _) _ _)

@[simp] theorem Chip.dropAbsent_gist (c : Chip) (l : Fin 3) : (c.dropAbsent l).gist = c.gist := by
  refine (Chip.onLine_gist _ _ _).trans (c.filter_gist (u := rSLC l) (rSLC_ne_rSU l) fun r hr => ?_)
  unfold Chip.lineAccessAbsent
  split <;> simp_all [Tag.loud]

@[simp] theorem Chip.slcMoved_gist (c : Chip) : c.slcMoved.gist = c.gist := by
  refine (foldl_gist (fun c l => c.placeNext_gist l) _ _).trans ((foldl_gist (fun c p => ?_) _ _).trans (foldl_gist (fun c l => ?_) _ _))
  · exact (Chip.askKeyInit_gist _ _).trans (c.onDrop_gist _ _)
  · exact (Chip.dropAbsent_gist _ _).trans (c.stopRowRead_gist l)

@[simp] theorem Chip.periodBoundary_gist (c : Chip) (n : Fin 4) : (c.periodBoundary n).gist = c.gist := by
  unfold Chip.periodBoundary
  (repeat' split) <;> simp

@[simp] theorem Chip.highSideTurnOff_gist (c : Chip) (n : Fin 4) : (c.highSideTurnOff n).gist = c.gist := by
  unfold Chip.highSideTurnOff
  dsimp only
  (repeat' split) <;> simp

@[simp] theorem Chip.deadBandExpiry_gist (c : Chip) (n : Fin 4) (output : Fin 4) : (c.deadBandExpiry n output).gist = c.gist :=
  by simp [Chip.deadBandExpiry]

@[simp] theorem Chip.targetMatch_gist (c : Chip) (n : Fin 4) : (c.targetMatch n).gist = c.gist := by
  unfold Chip.targetMatch
  (repeat' split) <;> simp

@[simp] theorem Chip.writeSlot_gist (c : Chip) (n : Fin 4) (s : Fin 8) (st : SlotStatus) (tag : Tag) (hl : tag ≠ .loadingState)
    (hr : ∀ code, tag ≠ .operands code) : (c.writeSlot n s st tag).gist = c.gist := (Chip.push_gist _ _ _ _ _ hl hr (by simp) (by simp)).trans (c.setSlot_gist n s st)

@[simp] theorem Chip.readSubmission_gist (c : Chip) (n : Fin 4) (s : Fin 8) : (c.readSubmission n s).gist = c.gist :=
  by simp [Chip.readSubmission]

@[simp] theorem Chip.refuseSubmission_gist (c : Chip) (b : Submission) (r : Reason) : (c.refuseSubmission b r).gist = c.gist :=
  by simp [Chip.refuseSubmission]

@[simp] theorem Chip.acceptSubmission_gist (c : Chip) (b : Submission) : (c.acceptSubmission b).gist = c.gist :=
  by simp [Chip.acceptSubmission]

@[simp] theorem Chip.submissionAnswered_gist (c : Chip) (a : RecAnswer) : (c.submissionAnswered a).gist = c.gist := by
  unfold Chip.submissionAnswered
  (repeat' split) <;> simp

@[simp] theorem Chip.enqueue_gist (c : Chip) (b : Submission) : (c.enqueue b).gist = c.gist := by simp [Chip.enqueue]

@[simp] theorem Chip.pruReport_gist (c : Chip) (okay : Bool) (addr : Nat) : (c.pruReport okay addr).gist = c.gist := by
  unfold Chip.pruReport
  (repeat' split) <;> simp

@[simp] theorem Chip.startAlign_gist (c : Chip) (n : Fin 4) : (c.startAlign n).gist = c.gist := by simp [Chip.startAlign]

@[simp] theorem Chip.alignNew_gist (c : Chip) (n : Fin 4) : (c.alignNew n).gist = c.gist := by simp [Chip.alignNew]

@[simp] theorem Chip.startEject_gist (c : Chip) (n : Fin 4) : (c.startEject n).gist = c.gist := by simp [Chip.startEject]

@[simp] theorem Chip.makeReady_gist (c : Chip) (n : Fin 4) : (c.makeReady n).gist = c.gist := by simp [Chip.makeReady]

@[simp] theorem Chip.makeEmpty_gist (c : Chip) (n : Fin 4) : (c.makeEmpty n).gist = c.gist := by simp [Chip.makeEmpty]

@[simp] theorem Chip.reportHalted_gist (c : Chip) (n : Fin 4) : (c.reportHalted n).gist = c.gist := by simp [Chip.reportHalted]

@[simp] theorem Chip.endHead_gist (c : Chip) (n : Fin 4) : (c.endHead n).gist = c.gist := by simp [Chip.endHead]

@[simp] theorem Chip.askServiceStamp_gist (c : Chip) (n : Fin 4) (v : Service) (ps : PrintState) :
    (c.askServiceStamp n v ps).gist = c.gist :=
  by simp [Chip.askServiceStamp]

@[simp] theorem Chip.shutService_gist (c : Chip) (n : Fin 4) : (c.shutService n).gist = c.gist := by
  unfold Chip.shutService
  (repeat' split) <;> simp

@[simp] theorem Chip.addCause_gist (c : Chip) (n : Fin 4) (cause : Cause) : (c.addCause n cause).gist = c.gist := by
  unfold Chip.addCause
  dsimp only
  (repeat' split) <;> simp

@[simp] theorem Chip.judgeHalted_gist (c : Chip) (n : Fin 4) : (c.judgeHalted n).gist = c.gist := by
  unfold Chip.judgeHalted
  dsimp only
  (repeat' split) <;> simp

@[simp] theorem Chip.addDue_gist (c : Chip) (n : Fin 4) (jam head : Bool) : (c.addDue n jam head).gist = c.gist := by
  unfold Chip.addDue
  (repeat' split) <;> simp

@[simp] theorem Chip.shutdown_gist (c : Chip) (n : Fin 4) (cause : Cause) : (c.shutdown n cause).gist = c.gist :=
  by simp [Chip.shutdown]

@[simp] theorem Chip.cause_gist (c : Chip) (n : Fin 4) (cause : Cause) : (c.cause n cause).gist = c.gist := by
  unfold Chip.cause
  (repeat' split) <;> simp

@[simp] theorem Chip.judgeCauses_gist (c : Chip) (n : Fin 4) : (c.judgeCauses n).gist = c.gist := by
  unfold Chip.judgeCauses
  dsimp only
  (repeat' split) <;> simp

@[simp] theorem Chip.restart_gist (c : Chip) (n : Fin 4) : (c.restart n).gist = c.gist := by
  unfold Chip.restart
  dsimp only
  (repeat' split) <;> simp

@[simp] theorem Chip.testRestart_gist (c : Chip) (n : Fin 4) : (c.testRestart n).gist = c.gist := by
  unfold Chip.testRestart
  (repeat' split) <;> simp

@[simp] theorem Chip.servePrinterRestart_gist (c : Chip) (n : Fin 4) : (c.servePrinterRestart n).gist = c.gist := by
  unfold Chip.servePrinterRestart
  dsimp only
  (repeat' split) <;> simp

@[simp] theorem Chip.servePrinterHalt_gist (c : Chip) (n : Fin 4) : (c.servePrinterHalt n).gist = c.gist :=
  (Chip.finishWithLast_gist _ _ _ (by decide)).trans (c.cause_gist n _)

@[simp] theorem Chip.coverActive_gist (c : Chip) (n : Fin 4) : (c.coverActive n).gist = c.gist := by
  unfold Chip.coverActive
  dsimp only
  split
  · exact (Chip.cause_gist _ _ _).trans rfl
  · rfl

@[simp] theorem Chip.ovcActive_gist (c : Chip) (n : Fin 4) : (c.ovcActive n).gist = c.gist := by
  unfold Chip.ovcActive
  dsimp only
  split
  · exact (Chip.cause_gist _ _ _).trans rfl
  · rfl

@[simp] theorem Chip.causeInputInactive_gist (c : Chip) (n : Fin 4) (ovc : Bool) : (c.causeInputInactive n ovc).gist = c.gist := by
  refine (Chip.testRestart_gist _ _).trans ?_
  split <;> rfl

@[simp] theorem Chip.bookInserted_gist (c : Chip) (n : Fin 4) : (c.bookInserted n).gist = c.gist := by
  unfold Chip.bookInserted
  dsimp only
  (repeat' split)
  · rfl
  · exact (Chip.alignNew_gist _ _).trans rfl
  · rfl

@[simp] theorem Chip.bookRemoved_gist (c : Chip) (n : Fin 4) : (c.bookRemoved n).gist = c.gist := by
  unfold Chip.bookRemoved
  dsimp only
  split
  · rfl
  · split
    · exact (Chip.report_gist _ _ _ _).trans ((Chip.makeEmpty_gist _ _).trans rfl)
    · exact (Chip.report_gist _ _ _ _).trans ((Chip.onPrinter_gist _ _ _).trans ((Chip.makeEmpty_gist _ _).trans rfl))
    · exact (Chip.cause_gist _ _ _).trans rfl
    · exact (Chip.cause_gist _ _ _).trans rfl
    · exact (Chip.report_gist _ _ _ _).trans ((Chip.makeEmpty_gist _ _).trans rfl)
    · rfl
    · rfl

@[simp] theorem Chip.tofEdge_gist (c : Chip) (n : Fin 4) : (c.tofEdge n).gist = c.gist := by
  unfold Chip.tofEdge
  (repeat' split) <;> simp

@[simp] theorem Chip.travelLimit_gist (c : Chip) (n : Fin 4) : (c.travelLimit n).gist = c.gist := by
  unfold Chip.travelLimit
  (repeat' split) <;> simp

@[simp] theorem Chip.stallTimeout_gist (c : Chip) (n : Fin 4) : (c.stallTimeout n).gist = c.gist := by
  unfold Chip.stallTimeout
  (repeat' split) <;> simp

@[simp] theorem Chip.encoderEdge_gist (c : Chip) (n : Fin 4) : (c.encoderEdge n).gist = c.gist := by simp [Chip.encoderEdge]

@[simp] theorem Chip.feedTo_gist (c : Chip) (n : Fin 4) (target : Nat) : (c.feedTo n target).gist = c.gist := by
  unfold Chip.feedTo
  dsimp only
  (repeat' split) <;> simp

@[simp] theorem Chip.beginService_gist (c : Chip) (n : Fin 4) (e : PrintEntry) (rest : List PrintEntry) :
    (c.beginService n e rest).gist = c.gist :=
  by simp [Chip.beginService]

@[simp] theorem Chip.requestTake_gist (c : Chip) (n : Fin 4) : (c.requestTake n).gist = c.gist := by
  unfold Chip.requestTake
  dsimp only
  (repeat' split) <;> simp

@[simp] theorem Chip.endService_gist (c : Chip) (n : Fin 4) : (c.endService n).gist = c.gist := by simp [Chip.endService]

@[simp] theorem Chip.readText_gist (c : Chip) (n : Fin 4) (s : Fin 8) (burst : Nat) (w : List Word) :
    (c.readText n s burst w).gist = c.gist :=
  by simp [Chip.readText]

@[simp] theorem Chip.strikeCompose_gist (c : Chip) (n : Fin 4) : (c.strikeCompose n).gist = c.gist := by
  unfold Chip.strikeCompose
  dsimp only
  (repeat' split) <;> simp

@[simp] theorem Chip.abortStrike_gist (c : Chip) (n : Fin 4) (s : Fin 8) : (c.abortStrike n s).gist = c.gist :=
  by simp [Chip.abortStrike]

@[simp] theorem Chip.textAnswered_gist (c : Chip) (n : Fin 4) (burst epoch : Nat) (w : List Word) (okay : Bool) (addr : Nat) (data : List Word) :
    (c.textAnswered n burst epoch w okay addr data).1.gist = c.gist := by
  unfold Chip.textAnswered
  dsimp only
  (repeat' split) <;> simp

@[simp] theorem Chip.sendStrike_gist (c : Chip) (n : Fin 4) (v : Service) (line : List Byte) :
    (c.sendStrike n v line).gist = c.gist :=
  by simp [Chip.sendStrike]

@[simp] theorem Chip.strikeAnswered_gist (c : Chip) (n : Fin 4) (epoch : Nat) (a : RecAnswer) :
    (c.strikeAnswered n epoch a).gist = c.gist := by
  unfold Chip.strikeAnswered
  (repeat' split) <;> simp

@[simp] theorem Chip.recordReply_gist (c : Chip) (q : RecReply) : (c.recordReply q).gist = c.gist := by
  unfold Chip.recordReply
  split <;> simp

@[simp] theorem Chip.submissionRead_gist (c : Chip) (okay : Bool) (data : List Word) :
    (c.submissionRead okay data).gist = c.gist := by
  unfold Chip.submissionRead
  split
  · rfl
  · next b hb =>
    split
    · exact c.refuseSubmission_gist _ _
    · dsimp only
      split
      · exact (Chip.refuseSubmission_gist _ _ _).trans (c.onSubmission_gist _)
      · exact (Chip.recordReply_gist _ _).trans ((Chip.recordRead_gist _ _ _).trans (c.onSubmission_gist _))

@[simp] theorem Chip.strikeMessageSent_gist (c : Chip) (n : Fin 4) : (c.strikeMessageSent n).gist = c.gist := by
  unfold Chip.strikeMessageSent
  (repeat' split) <;> simp

@[simp] theorem Chip.headDone_gist (c : Chip) (n : Fin 4) : (c.headDone n).gist = c.gist := by
  unfold Chip.headDone
  (repeat' split) <;> simp

@[simp] theorem Chip.headAnswer_gist (c : Chip) (n : Fin 4) (char : Byte) : (c.headAnswer n char).gist = c.gist := by
  unfold Chip.headAnswer
  (repeat' split) <;> simp

@[simp] theorem Chip.headTimeout_gist (c : Chip) (n : Fin 4) : (c.headTimeout n).gist = c.gist := by
  unfold Chip.headTimeout
  (repeat' split) <;> simp

@[simp] theorem Chip.clearFinish_gist (c : Chip) (n : Fin 4) : (c.clearFinish n).gist = c.gist := by
  unfold Chip.clearFinish
  dsimp only
  rw [Chip.finishWithLast_gist _ _ _ (by decide)]
  (repeat' split) <;> simp

@[simp] theorem Chip.cancelQueue_gist (c : Chip) (n : Fin 4) : (c.cancelQueue n).gist = c.gist :=
  (Chip.onPrinter_gist _ _ _).trans (foldl_gist (fun c e => c.writeSlot_gist _ _ _ _ (by simp) (by simp)) _ _)

@[simp] theorem Chip.servePrinterClear_gist (c : Chip) (n : Fin 4) : (c.servePrinterClear n).gist = c.gist := by
  unfold Chip.servePrinterClear
  dsimp only
  (repeat' split) <;> simp

@[simp] theorem Chip.serveEject_gist (c : Chip) (n : Fin 4) : (c.serveEject n).gist = c.gist := by
  unfold Chip.serveEject
  (repeat' split) <;> simp

@[simp] theorem Chip.clearGoesOn_gist (c : Chip) (n : Fin 4) : (c.clearGoesOn n).gist = c.gist := by
  unfold Chip.clearGoesOn
  (repeat' split) <;> simp

@[simp] theorem Chip.stampReply_gist (c : Chip) (n : Fin 4) : (c.stampReply n).gist = c.gist := by
  unfold Chip.stampReply
  dsimp only
  (repeat' split) <;> simp

@[simp] theorem Chip.presentOn_gist (c : Chip) (n : Fin 4) : (c.presentOn n).gist = c.gist := by
  unfold Chip.presentOn
  (repeat' split) <;> simp

/-- What PRU knows but for the submission is no matter of the gist. -/
theorem Chip.withPru_gist (c : Chip) (p : PruState) (h : p.submission.isSome = c.pru.submission.isSome) :
    ({ c with pru := p } : Chip).gist = c.gist := by
  show Gist.mk _ _ _ _ _ _ _ p.submission.isSome _ _ _ _ _ = Gist.mk ..
  rw [h]

@[simp] theorem Chip.scanSlots_gist (c : Chip) : c.scanSlots.gist = c.gist := by
  refine (Chip.pushAll_gist _ _ _ ?_ ?_ ?_ ?_).trans rfl <;> simp

@[simp] theorem Chip.startPrinters_gist (c : Chip) : c.startPrinters.gist = c.gist := by
  refine (foldl_gist (fun c n => ?_) _ _).trans rfl
  split
  · exact c.alignNew_gist n
  · rfl

@[simp] theorem Chip.judgeAllCauses_gist (c : Chip) : c.judgeAllCauses.gist = c.gist :=
  foldl_gist (fun c n => c.judgeCauses_gist n) _ _

/-- A scan at start-up keeps the gist. -/
theorem Chip.scanAtStart_gist (c : Chip) : (({ c with pru := { c.pru with startUp := true } } : Chip).scanSlots).gist = c.gist := by
  rw [Chip.scanSlots_gist]
  exact c.withPru_gist _ rfl

@[simp] theorem Chip.pruLoaded_gist (c : Chip) : c.pruLoaded.gist = c.gist := by
  unfold Chip.pruLoaded
  dsimp only
  split
  · exact (Chip.scanAtStart_gist _).trans c.judgeAllCauses_gist
  · rw [Chip.startPrinters_gist, Chip.judgeAllCauses_gist]

@[simp] theorem Chip.cancelAt_gist (c : Chip) (n : Fin 4) (s : Fin 8) (addr : Nat) : (c.cancelAt n s addr).gist = c.gist :=
  by simp [Chip.cancelAt]

@[simp] theorem Chip.takeSlots_gist (c : Chip) (n : Fin 4) (addr : Nat) (ws : List Word) :
    (c.takeSlots n addr ws).gist = c.gist := by
  refine foldl_gist (fun c s => ?_) _ _
  split
  · exact c.cancelAt_gist _ _ _
  · exact c.cancelAt_gist _ _ _
  · rfl

/-- What follows the last burst of a scan keeps the gist. -/
theorem Chip.scanEnded_gist (c : Chip) :
    (if c.pru.scanning == 0 then
      let c := if c.pru.startUp then c.startPrinters else c
      match c.pru.submission with
      | some b => if b.waiting then c.readSubmission b.printer b.slot else c
      | none => c
    else c).gist = c.gist := by
  have h : (if c.pru.startUp then c.startPrinters else c).gist = c.gist := by
    split
    · exact c.startPrinters_gist
    · rfl
  split
  · dsimp only
    split
    · split
      · exact (Chip.readSubmission_gist _ _ _).trans h
      · exact h
    · exact h
  · rfl

@[simp] theorem Chip.slotScanned_gist (c : Chip) (n : Fin 4) (okay : Bool) (addr : Nat) (data : List Word) :
    (c.slotScanned n okay addr data).gist = c.gist := by
  refine (Chip.scanEnded_gist _).trans ((Chip.withPru_gist ((c.pruReport okay addr).takeSlots n addr _) _ rfl).trans ?_)
  rw [Chip.takeSlots_gist, Chip.pruReport_gist]

@[simp] theorem Chip.tellCounts_gist (c : Chip) (acked total : Nat) : (c.tellCounts acked total).gist = c.gist :=
  (Chip.statusEventAll_gist _).trans rfl

@[simp] theorem Chip.goCalling_gist (c : Chip) : c.goCalling.gist = c.gist := by simp [Chip.goCalling]

@[simp] theorem Chip.callIfReady_gist (c : Chip) : c.callIfReady.gist = c.gist := by
  unfold Chip.callIfReady
  (repeat' split) <;> simp

@[simp] theorem Chip.suspendSend_gist (c : Chip) : c.suspendSend.gist = c.gist := by simp [Chip.suspendSend]

@[simp] theorem Chip.linkDown_gist (c : Chip) (why : LinkCause) : (c.linkDown why).gist = c.gist := by
  unfold Chip.linkDown
  dsimp only
  (repeat' split) <;> simp

@[simp] theorem Chip.linkLoss_gist (c : Chip) (why : LinkCause) : (c.linkLoss why).gist = c.gist := by
  unfold Chip.linkLoss
  (repeat' split) <;> simp

@[simp] theorem Chip.resumeSend_gist (c : Chip) : c.resumeSend.gist = c.gist := by simp [Chip.resumeSend]

@[simp] theorem Chip.linkUp_gist (c : Chip) : c.linkUp.gist = c.gist := by simp [Chip.linkUp]

@[simp] theorem Chip.serveLinkReset_gist (c : Chip) : c.serveLinkReset.gist = c.gist := by
  unfold Chip.serveLinkReset
  (repeat' split) <;> simp

@[simp] theorem Chip.carrierChange_gist (c : Chip) (present : Bool) : (c.carrierChange present).gist = c.gist := by
  unfold Chip.carrierChange
  dsimp only
  split
  · exact (Chip.callIfReady_gist _).trans rfl
  · exact (Chip.linkLoss_gist _ _).trans rfl

@[simp] theorem Chip.receiveClockLoss_gist (c : Chip) : c.receiveClockLoss.gist = c.gist := (Chip.linkLoss_gist _ _).trans rfl

@[simp] theorem Chip.receiveClockReturn_gist (c : Chip) : c.receiveClockReturn.gist = c.gist :=
  (Chip.callIfReady_gist _).trans rfl

@[simp] theorem Chip.helloTimerExpiry_gist (c : Chip) : c.helloTimerExpiry.gist = c.gist := by
  unfold Chip.helloTimerExpiry
  (repeat' split) <;> simp

@[simp] theorem Chip.keepaliveTimerExpiry_gist (c : Chip) : c.keepaliveTimerExpiry.gist = c.gist := by
  unfold Chip.keepaliveTimerExpiry
  (repeat' split) <;> simp

@[simp] theorem Chip.silenceTimerExpiry_gist (c : Chip) : c.silenceTimerExpiry.gist = c.gist := by
  unfold Chip.silenceTimerExpiry
  (repeat' split) <;> simp

@[simp] theorem Chip.heard_gist (c : Chip) : c.heard.gist = c.gist := by
  unfold Chip.heard
  (repeat' split) <;> simp

@[simp] theorem Chip.lineError_gist (c : Chip) : c.lineError.gist = c.gist := by
  unfold Chip.lineError
  dsimp only
  (repeat' split) <;> simp

@[simp] theorem Chip.goodFrame_gist (c : Chip) : c.goodFrame.gist = c.gist := by simp [Chip.goodFrame]

@[simp] theorem Chip.hoHello_gist (c : Chip) : c.hoHello.gist = c.gist := by
  unfold Chip.hoHello
  (repeat' split) <;> simp

@[simp] theorem Chip.hoHelloAck_gist (c : Chip) : c.hoHelloAck.gist = c.gist := by
  unfold Chip.hoHelloAck
  dsimp only
  (repeat' split) <;> simp

@[simp] theorem Chip.hoKeepalive_gist (c : Chip) : c.hoKeepalive.gist = c.gist := by
  unfold Chip.hoKeepalive
  (repeat' split) <;> simp

@[simp] theorem Chip.tellAcked_gist (c : Chip) (before : Nat) : (c.tellAcked before).gist = c.gist := by
  unfold Chip.tellAcked
  (repeat' split) <;> simp

@[simp] theorem Chip.hoAck_gist (c : Chip) (n : Nat) : (c.hoAck n).gist = c.gist := by
  unfold Chip.hoAck
  dsimp only
  (repeat' split) <;> simp

@[simp] theorem Chip.hoNak_gist (c : Chip) (n : Nat) : (c.hoNak n).gist = c.gist := by
  unfold Chip.hoNak
  dsimp only
  (repeat' split) <;> simp

@[simp] theorem Chip.ackTimerExpiry_gist (c : Chip) : c.ackTimerExpiry.gist = c.gist := by
  unfold Chip.ackTimerExpiry
  (repeat' split) <;> simp

@[simp] theorem Chip.hoHold_gist (c : Chip) : c.hoHold.gist = c.gist := by
  unfold Chip.hoHold
  dsimp only
  (repeat' split) <;> simp

@[simp] theorem Chip.txEnds_gist (c : Chip) : c.txEnds.gist = c.gist := by
  simp only [Chip.txEnds]
  (repeat' split) <;> simp_all

@[simp] theorem Chip.sendNew_gist (c : Chip) (s : Send) (kind : Nat) (payload : List Byte) :
    (c.sendNew s kind payload).gist = c.gist :=
  by simp [Chip.sendNew]

@[simp] theorem Chip.readRecord_gist (c : Chip) (b : Build) : (c.readRecord b).gist = c.gist := by
  unfold Chip.readRecord
  (repeat' split) <;> simp

@[simp] theorem Chip.buildFrame_gist (c : Chip) (s : Send) : (c.buildFrame s).gist = c.gist := by
  unfold Chip.buildFrame
  dsimp only
  (repeat' split) <;> simp

@[simp] theorem Chip.sendKeepalive_gist (c : Chip) : c.sendKeepalive.gist = c.gist := by
  unfold Chip.sendKeepalive
  (repeat' split) <;> simp

@[simp] theorem Chip.restartAllIdle_gist (c : Chip) : c.restartAllIdle.gist = c.gist :=
  foldl_gist (fun c p => c.restartIdle_gist p) _ _

@[simp] theorem Chip.stepRestart_gist (c : Chip) (n : Fin 4) : (c.stepRestart n).gist = c.gist := by simp [Chip.stepRestart]

@[simp] theorem Chip.printerSettingChanged_gist (c : Chip) (n : Fin 4) (k : PrnSetting) :
    (c.printerSettingChanged n k).gist = c.gist := by
  unfold Chip.printerSettingChanged
  (repeat' split) <;> simp

@[simp] theorem Chip.settingChanged_gist (c : Chip) (k : Setting) : (c.settingChanged k).gist = c.gist := by
  unfold Chip.settingChanged
  (repeat' split) <;> simp

@[simp] theorem Chip.badOperand_gist (c : Chip) : c.badOperand.gist = c.gist := by simp [Chip.badOperand]

theorem Chip.servePrinterRequest_gist (c : Chip) (serve : Chip → Fin 4 → Chip) (op0 op1 : Word)
    (h : ∀ c n, (serve c n).gist = c.gist) : (c.servePrinterRequest serve op0 op1).gist = c.gist := by
  unfold Chip.servePrinterRequest
  (repeat' split)
  · exact h c _
  · exact c.badOperand_gist
  · exact c.badOperand_gist

@[simp] theorem Chip.serveWith_gist (c : Chip) (r : Request) (op0 op1 : Word) : (c.serveWith r op0 op1).gist = c.gist := by
  unfold Chip.serveWith
  split
  · exact c.servePrinterRequest_gist _ _ _ fun c n => c.servePrinterClear_gist n
  · exact c.servePrinterRequest_gist _ _ _ fun c n => c.servePrinterRestart_gist n
  · exact c.servePrinterRequest_gist _ _ _ fun c n => c.servePrinterHalt_gist n
  · exact c.servePrinterRequest_gist _ _ _ fun c n => c.serveEject_gist n
  all_goals (repeat' split) <;> simp

@[simp] theorem Chip.operandsAnswered_gist (c : Chip) (code : Nat) (okay : Bool) (data : List Word) :
    (c.operandsAnswered code okay data).gist = c.gist := by
  unfold Chip.operandsAnswered
  (repeat' split) <;> simp

@[simp] theorem Chip.reportWrite_gist (c : Chip) : c.reportWrite.gist = c.gist := by
  simp only [Chip.reportWrite]
  (repeat' split) <;> simp_all

@[simp] theorem Chip.reportEnds_gist (c : Chip) : c.reportEnds.gist = c.gist := by simp [Chip.reportEnds]

@[simp] theorem Chip.entryAnswered_gist (c : Chip) (epoch : Nat) (okay : Bool) : (c.entryAnswered epoch okay).gist = c.gist := by
  unfold Chip.entryAnswered
  (repeat' split) <;> simp

@[simp] theorem Chip.startReports_gist (c : Chip) (o : StartOutcome) : (c.startReports o).gist = c.gist := by
  unfold Chip.startReports
  (repeat' split) <;> simp

@[simp] theorem Chip.msTick_gist (c : Chip) : c.msTick.gist = c.gist := by
  show Gist.mk _ _ _ _ _ _ _ _ _ _ (c.hlc.send.map Send.msTick).isSome _ _ = _
  rw [Option.isSome_map]
  rfl

@[simp] theorem Chip.feedTicks_gist (c : Chip) : c.feedTicks.gist = c.gist := rfl

@[simp] theorem Chip.tick_gist (c : Chip) : c.tick.gist = c.gist := by
  have h1 : c.feedTicks.gist = c.gist := c.feedTicks_gist
  unfold Chip.tick
  dsimp only
  split
  · exact (Chip.onSu_gist _ _ rfl rfl rfl rfl rfl).trans h1
  · exact (Chip.msTick_gist _).trans h1

@[simp] theorem Chip.grantHook_gist (c : Chip) (tag : Tag) : (c.grantHook tag).gist = c.gist := by
  unfold Chip.grantHook
  (repeat' split) <;> simp

end Sys2Proof.Machine
end

section
/-! PROOF. The settings: where they stand, how a written one is judged, and what a stored one changes (O20). -/

namespace Sys2Proof.Machine

/-! ### Where the settings stand -/

/-- Every setting has its word in the image. -/
theorem settingAt_index (k : Setting) : settingAt k.index = some k := by
  cases k with
  | placement w limit => revert w limit; decide
  | face d => revert d; decide
  | ceiling p upper => revert p upper; decide
  | scanDir p => revert p; decide
  | capOverride p => revert p; decide
  | colour p => revert p; decide
  | remoteRelease p => revert p; decide
  | lineRate l => revert l; decide
  | lineGap l => revert l; decide
  | replyTime l => revert l; decide
  | printer n k => cases k <;> revert n <;> decide
  | link k => cases k <;> decide
  | _ => decide

/-- A word of the image is at most one setting's. -/
theorem Setting.index_injective {k k' : Setting} (h : k.index = k'.index) : k = k' :=
  Option.some_injective _ (by rw [← settingAt_index k, ← settingAt_index k', h])

/-- Past the image no setting stands. -/
theorem settingAt_past (i : Nat) : settingAt (i + 255) = none := by
  have hlink : linkSettingAt (i + 255 - 224) = none := by
    rw [show i + 255 - 224 = i + 31 by omega]
    rfl
  unfold settingAt
  simp only [beq_iff_eq]
  repeat rw [if_neg (by omega)]
  rw [hlink]
  rfl

/-- The image holds every setting. -/
theorem Setting.index_lt (k : Setting) : k.index < 255 := by
  by_contra h
  obtain ⟨i, hi⟩ := Nat.exists_eq_add_of_le' (not_lt.mp h)
  have := settingAt_index k
  rw [hi, settingAt_past] at this
  cases this

/-- The setting at a word of the image has its place there. -/
theorem index_of_settingAt : ∀ i < 256, ∀ k, settingAt i = some k → k.index = i := by
  have h : ∀ i : Fin 256, (settingAt i.val).all (fun k => k.index == i.val) = true := by decide +kernel
  intro i hi k hk
  have := h ⟨i, hi⟩
  rw [hk] at this
  exact beq_iff_eq.mp this

/-- The setting at an offset of the SETUP page is the one at its word of the image. -/
theorem settingAtOffset_word {j : Nat} (h : j < 255) : settingAtOffset (0x200 + 4 * j) = settingAt j := by
  unfold settingAtOffset
  rw [if_pos (by simp only [Bool.and_eq_true, decide_eq_true_eq, beq_iff_eq]; omega)]
  congr 1
  omega

/-- Every setting stands at its offset. -/
theorem settingAtOffset_index (k : Setting) : settingAtOffset (0x200 + 4 * k.index) = some k := by
  rw [settingAtOffset_word k.index_lt, settingAt_index]

/-- A setting's offset is the one it stands at. -/
theorem offset_of_settingAtOffset {off : Nat} {k : Setting} (h : settingAtOffset off = some k) : off = 0x200 + 4 * k.index := by
  unfold settingAtOffset at h
  split at h
  · next hc =>
    simp only [Bool.and_eq_true, decide_eq_true_eq, beq_iff_eq] at hc
    have := index_of_settingAt _ (by omega) k h
    omega
  · cases h

/-- The words of the settings area that are no setting's (Table 12-4). -/
theorem settingAtOffset_eq_none_iff : ∀ j < 256, settingAtOffset (0x200 + 4 * j) = none ↔ (26 ≤ j ∧ j < 32) ∨ j = 62 ∨ j = 63 ∨
    j = 115 ∨ j = 119 ∨ (123 ≤ j ∧ j < 128) ∨ (128 ≤ j ∧ j < 224 ∧ 21 ≤ (j - 128) % 24) ∨ 232 ≤ j := by
  decide +kernel

/-- Where each setting stands and its freeze group (Table 12-4, Table 2-2). -/
theorem settings_stand :
    let stands (k : Setting) (off : Nat) (g : FreezeGroup) : Prop := 0x200 + 4 * k.index = off ∧ k.group = g
    (∀ (w : Fin 6) (limit : Bool), stands (.placement w limit) (0x200 + 8 * w.val + 4 * flagBit limit) .day) ∧
    stands .jnlCapacity 0x230 .day ∧ stands .decimals 0x234 .day ∧ stands .separators 0x238 .day ∧ stands .branchNo 0x23C .day ∧
    (∀ d : Fin 10, stands (.face d) (0x240 + 4 * d.val) .day) ∧
    (∀ (p : Fin 12) (upper : Bool), stands (.ceiling p upper) (0x280 + 8 * p.val + 4 * flagBit upper) .never) ∧
    stands .idleBlank 0x2E0 .never ∧ stands .releaseTime 0x2E4 .never ∧ stands .openLong 0x2E8 .never ∧
    stands .bcstSet 0x2EC .never ∧ stands .bcstRow 0x2F0 .never ∧ stands .pollInterval 0x2F4 .never ∧
    (∀ p : Fin 12, stands (.scanDir p) (0x300 + 4 * p.val) .never ∧ stands (.capOverride p) (0x330 + 4 * p.val) .never ∧
      stands (.colour p) (0x360 + 4 * p.val) .never ∧ stands (.remoteRelease p) (0x390 + 4 * p.val) .never) ∧
    (∀ l : Fin 3, stands (.lineRate l) (0x3C0 + 16 * l.val) .never ∧ stands (.lineGap l) (0x3C4 + 16 * l.val) .never ∧
      stands (.replyTime l) (0x3C8 + 16 * l.val) .never) ∧
    (∀ (n : Fin 4) (i : Nat) (k : PrnSetting), [PrnSetting.present, .linesPerPage, .pitch, .topMargin, .amountCol, .encPrescale,
        .pwmPrescale, .pwmPeriod, .runDuty, .approachDuty, .rampStep, .deadBand, .approachDist, .stallTime, .alignTravel, .ejectTravel,
        .headTimeout, .safeA, .safeB, .autoRestart, .outPolarity][i]? = some k →
      stands (.printer n k) (0x400 + 96 * n.val + 4 * i) (if k ∈ [.present, .headTimeout, .autoRestart] then .never else .printer n)) ∧
    ∀ (i : Nat) (k : LinkSetting), [LinkSetting.window, .ackTime, .frameRetries, .errThreshold, .helloTime, .keepalive, .resumeTime,
      .verdictTime][i]? = some k → stands (.link k) (0x580 + 4 * i) .link := by
  intro stands
  have hprn : ∀ (i : Nat) (k : PrnSetting), [PrnSetting.present, .linesPerPage, .pitch, .topMargin, .amountCol, .encPrescale,
      .pwmPrescale, .pwmPeriod, .runDuty, .approachDuty, .rampStep, .deadBand, .approachDist, .stallTime, .alignTravel, .ejectTravel,
      .headTimeout, .safeA, .safeB, .autoRestart, .outPolarity][i]? = some k → k.index = i := by
    intro i k h
    have hi : i < 21 := (List.getElem?_eq_some_iff.mp h).1
    interval_cases i <;> cases h <;> rfl
  have hlink : ∀ (i : Nat) (k : LinkSetting), [LinkSetting.window, .ackTime, .frameRetries, .errThreshold, .helloTime, .keepalive,
      .resumeTime, .verdictTime][i]? = some k → k.index = i := by
    intro i k h
    have hi : i < 8 := (List.getElem?_eq_some_iff.mp h).1
    interval_cases i <;> cases h <;> rfl
  refine ⟨fun w limit => ⟨?_, rfl⟩, ⟨rfl, rfl⟩, ⟨rfl, rfl⟩, ⟨rfl, rfl⟩, ⟨rfl, rfl⟩, fun d => ⟨?_, rfl⟩, fun p upper => ⟨?_, rfl⟩,
    ⟨rfl, rfl⟩, ⟨rfl, rfl⟩, ⟨rfl, rfl⟩, ⟨rfl, rfl⟩, ⟨rfl, rfl⟩, ⟨rfl, rfl⟩, fun p => ⟨⟨?_, rfl⟩, ⟨?_, rfl⟩, ⟨?_, rfl⟩, ⟨?_, rfl⟩⟩,
    fun l => ⟨⟨?_, rfl⟩, ⟨?_, rfl⟩, ⟨?_, rfl⟩⟩, fun n i k h => ⟨?inBlock, ?groupOf⟩, fun i k h => ⟨?inLink, rfl⟩⟩
  case inBlock =>
    show 0x200 + 4 * (128 + 24 * n.val + k.index) = _
    rw [hprn i k h]
    omega
  case groupOf => cases k <;> rfl
  case inLink =>
    show 0x200 + 4 * (224 + k.index) = _
    rw [hlink i k h]
    omega
  all_goals simp only [Setting.index]; omega

/-! ### Frozen groups -/

/-- When each freeze group is frozen (R22). -/
theorem Chip.frozen_iff (c : Chip) : (c.frozen .day = true ↔ c.cu.day.state ≠ .noDay) ∧
    (c.frozen .link = true ↔ c.cu.day.state = .sending) ∧ c.frozen .never = false ∧
    ∀ n : Fin 4, c.frozen (.printer n) = true ↔ (c.printer n).state ≠ .empty ∨ (c.printer n).queue ≠ [] := by
  refine ⟨bne_iff_ne, beq_iff_eq, rfl, fun n => ?_⟩
  show ((c.printer n).state != .empty || !(c.printer n).queue.isEmpty) = true ↔ _
  rw [Bool.or_eq_true, bne_iff_ne, Bool.not_eq_true', List.isEmpty_eq_false_iff]

/-! ### The write of a setting -/

/-- Every setting command writes its setting's word. -/
theorem State.HostFree.settingWrites {s : State} (hs : s.HostFree) {i : Instr} {k : Setting} {v : Word} {e : BitVec 4}
    (hi : settingWritten i = some (k, v, e)) (hw : s.chip.SetupWord (0x200 + 4 * k.index)) :
    s.Writes i .setup (0x200 + 4 * k.index) v e := by
  have hlt : 0x200 + 4 * k.index < Config.wordModulus := by
    have := k.index_lt
    unfold Config.wordModulus
    omega
  have writes (hexec : exec i s = .next (s.host fun m c => c.writeSetting m k v e)) : s.Writes i .setup (0x200 + 4 * k.index) v e :=
    hs.writes hexec (s.chip.setupAddr_eq _) hw hlt
  cases i with
  | settingWrite off value enables =>
    obtain ⟨k', hk, heq⟩ := Option.map_eq_some_iff.mp hi
    cases heq
    refine writes ?_
    show Host.Outcome.next (s.host fun m c => c.writeIn m .setup (c.setupAddr off.val) v e) = _
    rw [offset_of_settingAtOffset hk]
    rfl
  | placementWrite w limit value enables => cases hi; exact writes rfl
  | jnlCapacityWrite value enables => cases hi; exact writes rfl
  | ceilingWrite p upper value enables => cases hi; exact writes rfl
  | lineSettingWrite l gap value enables => cases hi; exact writes rfl
  | idleBlankWrite value enables => cases hi; exact writes rfl
  | capabilitySettingWrite p colour value enables => cases hi; exact writes rfl
  | formatSettingWrite separators value enables => cases hi; exact writes rfl
  | prnPresentWrite n value enables => cases hi; exact writes rfl
  | autoRestartWrite n value enables => cases hi; exact writes rfl
  | feedSettingWrite n which value enables => cases hi; exact writes rfl
  | _ => cases hi

/-- SU's verdict as its answer. -/
def Verdict.answer : Verdict → Answer
  | .refuse => .refuse
  | .pass => .pass
  | .substitute w => .substitute w

/-- SU answers a setting's word with its verdict (R21). -/
theorem Chip.setupAnswer_setting (c : Chip) (m : List Host.Cell) (k : Setting) (v : Word) :
    c.setupAnswer m (0x200 + 4 * k.index) v = (c.judgeSetting m k v).answer := by
  unfold Chip.setupAnswer
  rw [settingAtOffset_index]
  rfl

/-- A setting of a frozen group is refused (R22). -/
theorem Chip.judgeSetting_frozen {c : Chip} {k : Setting} (h : c.frozen k.group = true) (m : List Host.Cell) (v : Word) :
    c.judgeSetting m k v = .refuse := if_pos h

/-- A setting judged word by word is passed in range and substituted otherwise (R21). -/
theorem Chip.judgeSetting_clamp {c : Chip} {k : Setting} (h : c.frozen k.group = false) (hj : k ≠ .jnlCapacity)
    (hc : ∀ p u, k ≠ .ceiling p u) (m : List Host.Cell) (v : Word) : c.judgeSetting m k v = verdictOf v (k.clamp v.toNat) := by
  unfold Chip.judgeSetting
  rw [if_neg (by rw [h]; exact Bool.false_ne_true)]
  split
  · exact absurd rfl hj
  · exact absurd rfl (hc _ _)
  · rfl

/-- A value brought into range goes to the store whole (R21). -/
theorem verdictOf_stored (v : Word) {n : Nat} (hn : n < Config.wordModulus) :
    ∃ subst, (verdictOf v n).answer.stored v allBytes = some (wd n, allBytes, subst) := by
  unfold verdictOf
  split
  · next h =>
    have hv : v = wd n := BitVec.eq_of_toNat_eq (by rw [toNat_wd, wrapAddr, Nat.mod_eq_of_lt hn]; exact beq_iff_eq.mp h)
    exact ⟨false, by rw [hv]; rfl⟩
  · exact ⟨true, rfl⟩

/-- A clamp stays below its bound or the value. -/
theorem clampTo_le {lo hi v : Nat} (h : lo ≤ hi) : clampTo lo hi v ≤ hi := by
  unfold clampTo
  (repeat' split) <;> omega

/-- A value brought into range is a word. -/
theorem Setting.clamp_lt (k : Setting) (v : Nat) (h : v < Config.wordModulus) : k.clamp v < Config.wordModulus := by
  unfold Config.wordModulus at *
  have hto {lo hi : Nat} (hle : lo ≤ hi) (hhi : hi < 4294967296) : clampTo lo hi v < 4294967296 := lt_of_le_of_lt (clampTo_le hle) hhi
  have hflag (d : Nat) (hd : d ≤ 1) : clampFlag d v < 4294967296 := by unfold clampFlag; split <;> omega
  have hpre : clampPrescale v < 4294967296 := by unfold clampPrescale; split <;> omega
  have hsec {hi : Nat} (hle : 10 ≤ hi) (hhi : hi < 4294967296) : clampSeconds hi v < 4294967296 := by
    unfold clampSeconds
    split
    · omega
    · exact hto hle hhi
  cases k with
  | placement _ _ => exact hto (by decide) (by decide)
  | jnlCapacity => exact h
  | decimals => show (if _ then _ else _) < _; split <;> [omega; (split <;> omega)]
  | separators => show (if _ then _ else _) < _; split <;> omega
  | branchNo => exact hto (by decide) (by decide)
  | face _ => exact hto (by decide) (by decide)
  | ceiling _ _ => exact h
  | idleBlank => exact hsec (by decide) (by decide)
  | releaseTime => exact hto (by decide) (by decide)
  | openLong => exact hsec (by decide) (by decide)
  | bcstSet => exact lt_trans (Nat.mod_lt _ (by decide)) (by decide)
  | bcstRow => exact hto (by decide) (by decide)
  | pollInterval => exact hto (by decide) (by decide)
  | scanDir _ => exact hflag 0 (by decide)
  | capOverride _ => exact hflag 0 (by decide)
  | colour _ => exact hflag 1 (by decide)
  | remoteRelease _ => exact hflag 0 (by decide)
  | lineRate _ => show (if _ then _ else _) < _; split <;> omega
  | lineGap _ => exact hto (by decide) (by decide)
  | replyTime _ => exact hto (by decide) (by decide)
  | printer _ k =>
    cases k
    case present | safeA | safeB | autoRestart => exact hflag 0 (by decide)
    case encPrescale | pwmPrescale => exact hpre
    case outPolarity => show (if _ then _ else _) < _; split <;> omega
    all_goals simp only [Setting.clamp, PrnSetting.clamp]; exact hto (by decide) (by decide)
  | link k => cases k <;> simp only [Setting.clamp, LinkSetting.clamp] <;> exact hto (by decide) (by decide)

/-! ### What a stored setting changes -/

/-- A word of the image put. -/
theorem Chip.putImage_eq (c : Chip) (i : Fin 255) (w : Word) :
    c.putImage i.val w = { c with su := { c.su with image := vput c.su.image i w } } := by
  unfold Chip.putImage finOf
  rw [dif_pos i.isLt]

/-- The settings the part has, but for a capacity lowered, and what they ask of SU: `d` has those of `c`, and asks for more. -/
structure Chip.SettingsKept (c d : Chip) : Prop where
  image : ∀ j : Fin 255, j.val ≠ 12 → d.su.image[j.val] = c.su.image[j.val]
  asked : ∀ r ∈ settingsAsked c.own, r ∈ settingsAsked d.own

/-- What keeps the image and what is asked keeps the settings. -/
theorem Chip.SettingsKept.of_gist {c d : Chip} (hi : d.gist.image = c.gist.image) (ha : d.gist.asked = c.gist.asked) : c.SettingsKept d where
  image j _ := congrArg (fun v : Vector Word 255 => v[j.val]) hi
  asked r h := by
    have ha : settingsAsked d.own = settingsAsked c.own := ha
    rwa [ha]

/-- One after the other. -/
theorem Chip.SettingsKept.trans {c d e : Chip} (h : c.SettingsKept d) (h' : d.SettingsKept e) : c.SettingsKept e where
  image j hj := (h'.image j hj).trans (h.image j hj)
  asked r hr := h'.asked r (h.asked r hr)


end Sys2Proof.Machine
end

section
/-! PROOF. What the operations that change the gist make of it: the ends of a send, a posting, a submission, a request and a
rebuild, and the day that a posting opens. -/

namespace Sys2Proof.Machine

/-! ### The moves -/

/-- What a unit's own action may change of the gist, one at a time. -/
inductive Gist.Moves : Gist → Gist → Prop where
  | sendEnds {g : Gist} (h : g.send = true) (d : DayState) (hd : d = g.day ∨ (d = .closed ∨ d = .sent)) :
      Moves g { g with send := false, day := d }
  | dayOpens {g : Gist} (h : g.posting = true) : Moves g { g with day := .dayOpen }
  | postingEnds {g : Gist} (h : g.posting = true) (a : HostAnswer) :
      Moves g { g with posting := false, ap := { g.ap with host := none, answer := some a } }
  | submissionEnds {g : Gist} (h : g.submission = true) (a : HostAnswer) :
      Moves g { g with submission := false, ap := { g.ap with host := none, answer := some a } }
  | requestEnds {g : Gist} (h : g.request.isSome = true) (a : HostAnswer) :
      Moves g { g with request := none, ap := { g.ap with host := none, answer := some a } }
  | sendingCloses {g : Gist} (h : g.walk = true) : Moves g { g with day := .closed }
  | rebuilt {g : Gist} (h : g.walk = true) : Moves g { g with walk := false, unit := .ready }
  | indexMoves {g : Gist} (n : Nat) : Moves g { g with writeIndex := n }

/-- What any number of them may change. -/
def Gist.Reaches : Gist → Gist → Prop := Relation.ReflTransGen Gist.Moves

/-- The same gist is reached. -/
theorem Gist.Reaches.of_eq {g g' : Gist} (h : g' = g) : g.Reaches g' := h ▸ .refl

/-- One move reaches. -/
theorem Gist.Moves.reaches {g g' : Gist} (h : g.Moves g') : g.Reaches g' := .single h

/-- One after the other. -/
theorem Gist.Reaches.trans {g g' g'' : Gist} (h : g.Reaches g') (h' : g'.Reaches g'') : g.Reaches g'' := Relation.ReflTransGen.trans h h'

/-- What is reached from a part is reached from one with the same gist. -/
theorem Gist.Reaches.from_eq {g g' g'' : Gist} (h : g = g') (h' : g'.Reaches g'') : g.Reaches g'' := h ▸ h'

/-- A move leaves the settings, what they ask for, the loud accesses, the read index and the window table. -/
theorem Gist.Moves.leaves {g g' : Gist} (h : g.Moves g') : g'.image = g.image ∧ g'.asked = g.asked ∧ g'.loud = g.loud ∧
    g'.readIndex = g.readIndex ∧ g'.ap.placed = g.ap.placed ∧ g'.ap.journalUsable = g.ap.journalUsable := by
  cases h <;> exact ⟨rfl, rfl, rfl, rfl, rfl, rfl⟩

/-- So does any number of them. -/
theorem Gist.Reaches.leaves {g g' : Gist} (h : g.Reaches g') : g'.image = g.image ∧ g'.asked = g.asked ∧ g'.loud = g.loud ∧
    g'.readIndex = g.readIndex ∧ g'.ap.placed = g.ap.placed ∧ g'.ap.journalUsable = g.ap.journalUsable := by
  induction h with
  | refl => exact ⟨rfl, rfl, rfl, rfl, rfl, rfl⟩
  | tail _ hm ih =>
    obtain ⟨hi, ha, hl, hr, hp, hj⟩ := hm.leaves
    obtain ⟨hi', ha', hl', hr', hp', hj'⟩ := ih
    exact ⟨hi.trans hi', ha.trans ha', hl.trans hl', hr.trans hr', hp.trans hp', hj.trans hj'⟩

/-- Steps of a list each of which moves on reach together. -/
theorem foldl_reaches {α : Type} {f : Chip → α → Chip} (h : ∀ (c : Chip) (x : α), c.gist.Reaches (f c x).gist) (l : List α) (c : Chip) :
    c.gist.Reaches (l.foldl f c).gist := by
  induction l generalizing c with
  | nil => exact .refl
  | cons x rest ih => exact (h c x).trans (ih _)

/-! ### The send -/

@[simp] theorem Chip.endSend_gist (c : Chip) : c.endSend.gist = { c.gist with send := false } := rfl

/-- A failed send closes a SENDING day (R173). -/
theorem Chip.dayFailed_gist (c : Chip) (why : FailReason) :
    (c.dayFailed why).gist = if c.cu.day.state = .sending then { c.gist with day := .closed } else c.gist := by
  unfold Chip.dayFailed
  by_cases h : c.cu.day.state = .sending
  · rw [if_pos (beq_iff_eq.mpr h), if_pos h, Chip.writeAnchorOutside_gist, Chip.report_gist, Chip.dayNotice_gist]
    rfl
  · rw [if_neg (mt beq_iff_eq.mp h), if_neg h]

/-- An accepted send makes a SENDING day SENT (R172). -/
theorem Chip.daySent_gist (c : Chip) (batch : Nat) :
    (c.daySent batch).gist = if c.cu.day.state = .sending then { c.gist with day := .sent } else c.gist := by
  unfold Chip.daySent
  by_cases h : c.cu.day.state = .sending
  · rw [if_pos (beq_iff_eq.mpr h), if_pos h, Chip.writeAnchorOutside_gist, Chip.dayNotice_gist]
    rfl
  · rw [if_neg (mt beq_iff_eq.mp h), if_neg h]

theorem Chip.sendFails_reaches (c : Chip) (why : FailReason) : c.gist.Reaches (c.sendFails why).gist := by
  unfold Chip.sendFails
  split
  · next h =>
    rw [Chip.dayFailed_gist]
    split
    · exact (Gist.Moves.sendEnds h .closed (.inr (.inl rfl))).reaches
    · exact (Gist.Moves.sendEnds h c.gist.day (.inl rfl)).reaches
  · exact .refl

theorem Chip.hoAbort_reaches (c : Chip) : c.gist.Reaches c.hoAbort.gist := by
  unfold Chip.hoAbort
  dsimp only
  split
  · split
    · exact .from_eq c.goodFrame_gist.symm (Chip.sendFails_reaches _ _)
    · exact .of_eq c.goodFrame_gist
  · exact .refl

theorem Chip.hoRejected_reaches (c : Chip) : c.gist.Reaches c.hoRejected.gist := by
  unfold Chip.hoRejected
  dsimp only
  split
  · split
    · exact .from_eq c.goodFrame_gist.symm (Chip.sendFails_reaches _ _)
    · exact .of_eq c.goodFrame_gist
  · exact .refl

theorem Chip.hoAccepted_reaches (c : Chip) (batch : Nat) : c.gist.Reaches (c.hoAccepted batch).gist := by
  unfold Chip.hoAccepted
  split
  · exact .refl
  · split
    · exact .of_eq (by simp)
    · next hs =>
      dsimp only
      split
      · have hsend : c.goodFrame.gist.send = true := by
          rw [Chip.goodFrame_gist]
          show c.hlc.send.isSome = true
          cases h : c.hlc.send with
          | some s => rfl
          | none => exact absurd (by rw [Chip.sendState, h]; rfl) hs
        rw [Chip.report_gist, Chip.daySent_gist]
        refine .from_eq c.goodFrame_gist.symm ?_
        split
        · exact (Gist.Moves.sendEnds hsend .sent (.inr (.inr rfl))).reaches
        · exact (Gist.Moves.sendEnds hsend c.goodFrame.gist.day (.inl rfl)).reaches
      · exact .of_eq c.goodFrame_gist

theorem Chip.holdTimerExpiry_reaches (c : Chip) : c.gist.Reaches c.holdTimerExpiry.gist := by
  unfold Chip.holdTimerExpiry
  split
  · exact c.sendFails_reaches _
  · exact .refl

theorem Chip.resumeTimerExpiry_reaches (c : Chip) : c.gist.Reaches c.resumeTimerExpiry.gist := by
  unfold Chip.resumeTimerExpiry
  split
  · exact c.sendFails_reaches _
  · exact .refl

theorem Chip.verdictTimerExpiry_reaches (c : Chip) : c.gist.Reaches c.verdictTimerExpiry.gist := by
  unfold Chip.verdictTimerExpiry
  split
  · exact c.sendFails_reaches _
  · exact .refl

theorem Chip.hoFrameBytes_reaches (c : Chip) (bytes : List Byte) : c.gist.Reaches (c.hoFrameBytes bytes).gist := by
  unfold Chip.hoFrameBytes
  split
  · split
    · exact .of_eq c.hoHello_gist
    · exact .of_eq c.hoHelloAck_gist
    · exact .of_eq c.hoKeepalive_gist
    · exact .of_eq c.hoHold_gist
    · exact c.hoAbort_reaches
    · exact c.hoRejected_reaches
    · exact .of_eq (c.hoAck_gist _)
    · exact .of_eq (c.hoNak_gist _)
    · exact c.hoAccepted_reaches _
    · exact .of_eq c.lineError_gist
  · exact .refl

theorem Chip.hoBytes_reaches (c : Chip) (bytes : List Byte) : c.gist.Reaches (c.hoBytes bytes).gist :=
  foldl_reaches (fun c f => c.hoFrameBytes_reaches f) _ _

theorem Chip.resendFrame_reaches (c : Chip) (s : Send) (i : Nat) : c.gist.Reaches (c.resendFrame s i).gist := by
  unfold Chip.resendFrame
  split
  · exact .of_eq (c.onSend_gist _)
  · split
    · exact c.sendFails_reaches _
    · exact .of_eq (by simp)

theorem Chip.chooseFrame_reaches (c : Chip) : c.gist.Reaches c.chooseFrame.gist := by
  unfold Chip.chooseFrame
  split
  · exact .refl
  · split
    · exact .of_eq (by simp)
    · split
      · split <;> exact .of_eq (by simp)
      · split
        · exact .of_eq c.sendKeepalive_gist
        · split
          · exact c.resendFrame_reaches _ _
          · split <;> exact .of_eq (by simp)

theorem Chip.transmitterFree_reaches (c : Chip) : c.gist.Reaches c.transmitterFree.gist :=
  .from_eq c.txEnds_gist.symm (Chip.chooseFrame_reaches _)

theorem Chip.recordsBuilt_reaches (c : Chip) (b : Build) : c.gist.Reaches (c.recordsBuilt b).gist := by
  have h : (c.onHlc fun h => { h with build := none }).gist = c.gist := c.onHlc_gist _ rfl
  unfold Chip.recordsBuilt
  dsimp only
  split
  · split
    · exact .of_eq ((Chip.sendNew_gist _ _ _ _).trans h)
    · exact .from_eq h.symm (Chip.chooseFrame_reaches _)
  · exact .of_eq h

theorem Chip.batchAnswered_reaches (c : Chip) (burst epoch : Nat) (w : List Word) (okay : Bool) (addr : Nat) (data : List Word) :
    c.gist.Reaches (c.batchAnswered burst epoch w okay addr data).gist := by
  have h : (if okay then c else c.reportStore rHLC addr).gist = c.gist := by split <;> simp
  unfold Chip.batchAnswered
  refine .from_eq h.symm ?_
  generalize (if okay then c else c.reportStore rHLC addr) = d
  dsimp only
  (repeat' split)
  · exact .refl
  · exact .refl
  · exact d.sendFails_reaches _
  · exact .of_eq (by simp)
  · exact .refl
  · exact d.sendFails_reaches _
  · exact d.recordsBuilt_reaches _
  · exact .of_eq (d.readRecord_gist _)

/-! ### The posting -/

/-- A record applied leaves the gist, but for the day that DAY_OPEN opens (R88). -/
theorem Chip.applyChange_gist (c : Chip) (k : RecordKind) (r : JRecord) :
    (c.applyChange k r).gist = if k = .dayOpen then { c.gist with day := .dayOpen } else c.gist := by
  have happly : (c.onCu (·.applyRecord c.faces k r)).gist = c.gist :=
    c.onCu_gist _ (CuState.applyRecord_state ..) (by rw [CuState.applyRecord_walk])
  unfold Chip.applyChange
  by_cases hk : k = .dayOpen
  · subst hk
    rw [if_pos rfl]
    refine (Chip.dayNotice_gist _).trans ((foldl_gist (fun c i => c.drawerNotice_gist i) _ _).trans ((foldl_gist (fun c i => ?_) _ _).trans
      ((Chip.kindReports_gist _ _ _).trans (congrArg (fun g : Gist => { g with day := .dayOpen }) happly))))
    split <;> simp
  · have hb : (k == .dayOpen) = false := beq_eq_false_iff_ne.mpr hk
    simp only [hb, Bool.false_eq_true, if_false]
    rw [if_neg hk]
    refine (foldl_gist (fun c i => c.drawerNotice_gist i) _ _).trans ((foldl_gist (fun c i => ?_) _ _).trans
      ((Chip.kindReports_gist _ _ _).trans happly))
    split <;> simp

theorem Chip.applyPosted_reaches (c : Chip) : c.gist.Reaches c.applyPosted.gist := by
  unfold Chip.applyPosted
  split
  · next po hpo =>
    split
    · split
      · next k _ =>
        have h : (c.onJu fun j => { j with posting := some { po with phase := .applying } }).gist = c.gist :=
          c.onJu_gist _ (by rw [hpo]; rfl)
        refine .from_eq h.symm ?_
        show Gist.Reaches _ (Chip.applyWrites _ _ _).gist
        rw [Chip.applyWrites_gist, Chip.applyChange_gist]
        split
        · exact (Gist.Moves.dayOpens rfl).reaches
        · exact .refl
      · exact .refl
    · exact .refl
  · exact .refl

/-- The end of a posting answers the host. -/
theorem Chip.postingEnds_reaches (c : Chip) (okay : Bool) (h : c.ju.posting.isSome = true) : c.gist.Reaches (c.postingEnds okay).gist :=
  (Gist.Moves.postingEnds (g := c.gist) h ⟨okay, []⟩).reaches

theorem Chip.postNext_reaches (c : Chip) (po : Posting) (st : PostStep) (data : List Word) (h : c.ju.posting.isSome = true) :
    c.gist.Reaches (c.postNext po st data).gist := by
  unfold Chip.postNext
  dsimp only
  split
  · exact .of_eq (by simp)
  · exact .of_eq ((Chip.validate_gist _ _ rfl).trans (c.onJu_gist _ h.symm))
  · exact .of_eq (by simp)
  · exact .of_eq ((Chip.validateVoid_gist _ _ rfl).trans (c.onJu_gist _ h.symm))
  · split <;> exact .of_eq (by simp)
  · exact .of_eq (by simp)
  · exact .of_eq (by simp)
  · exact .of_eq (by simp)
  · exact .of_eq (by simp)
  · split <;> exact .of_eq (by simp)
  · exact .of_eq (by simp)
  · exact .of_eq (by simp)
  · exact c.postingEnds_reaches _ h
  · exact c.postingEnds_reaches _ h

theorem Chip.postError_reaches (c : Chip) (po : Posting) (st : PostStep) (addr : Nat) (h : c.ju.posting.isSome = true) :
    c.gist.Reaches (c.postError po st addr).gist := by
  have hr : (c.reportStore rJU addr).ju.posting.isSome = true := by simpa using h
  have hu : ((c.reportStore rJU addr).addUnstamped po.record.reference).gist = c.gist := by simp
  have hup : ((c.reportStore rJU addr).addUnstamped po.record.reference).ju.posting.isSome = true := (congrArg Gist.posting hu).trans h
  have hs := c.reportStore_gist rJU addr
  unfold Chip.postError
  split
  · exact .from_eq hu.symm (Chip.postNext_reaches _ _ _ _ hup)
  · exact .from_eq hs.symm (Chip.postNext_reaches _ _ _ _ hr)
  · exact .from_eq hs.symm (Chip.postNext_reaches _ _ _ _ hr)
  · exact .from_eq hs.symm (Chip.postNext_reaches _ _ _ _ hr)
  · exact .of_eq (c.refusePosting_gist _ _ _)

theorem Chip.postAnswered_reaches (c : Chip) (st : PostStep) (okay : Bool) (addr : Nat) (data : List Word) :
    c.gist.Reaches (c.postAnswered st okay addr data).gist := by
  unfold Chip.postAnswered
  split
  · next po hpo =>
    have h : c.ju.posting.isSome = true := by rw [hpo]; rfl
    split
    · exact c.postNext_reaches _ _ _ h
    · exact c.postError_reaches _ _ _ h
  · exact .refl

/-! ### The submission and the request -/

theorem Chip.submissionWritten_reaches (c : Chip) (queued okay : Bool) (addr : Nat) :
    c.gist.Reaches (c.submissionWritten queued okay addr).gist := by
  unfold Chip.submissionWritten
  refine .from_eq (c.pruReport_gist okay addr).symm ?_
  generalize c.pruReport okay addr = d
  dsimp only
  split
  · next b hb =>
    have h : d.gist.submission = true := by show d.pru.submission.isSome = true; rw [hb]; rfl
    split
    · exact (Gist.Moves.submissionEnds h ⟨true, []⟩).reaches
    · exact (Gist.Moves.submissionEnds h ⟨false, []⟩).reaches
  · exact .refl

theorem Chip.resultAnswered_reaches (c : Chip) (done okay : Bool) (addr : Nat) :
    c.gist.Reaches (c.resultAnswered done okay addr).gist := by
  have h : (if okay then c else c.reportStore rSU addr).gist = c.gist := by split <;> simp
  unfold Chip.resultAnswered
  refine .from_eq h.symm ?_
  generalize (if okay then c else c.reportStore rSU addr) = d
  dsimp only
  split
  · next hr => exact (Gist.Moves.requestEnds (g := d.gist) hr ⟨done, []⟩).reaches
  · exact .refl

theorem Chip.indexAnswered_reaches (c : Chip) (epoch : Nat) (okay : Bool) : c.gist.Reaches (c.indexAnswered epoch okay).gist := by
  unfold Chip.indexAnswered
  split
  · exact .refl
  · split
    · exact (Gist.Moves.indexMoves (g := c.gist) ((c.su.writeIndex + 1) % 64)).reaches
    · exact .of_eq c.reportEnds_gist

/-! ### The rebuild -/

/-- The end of rebuild fails a SENDING day (R97). -/
theorem Chip.rebuildFinish_reaches (c : Chip) (h : c.cu.walk.isSome = true) : c.gist.Reaches c.rebuildFinish.gist := by
  have hend (d : Chip) (changed : Bool) : ((fun c : Chip => if changed then (c.writeRunning .nothing).writeAnchor .rebuild
      else c.writeRunning .rebuild) ((d.judgeAllQuietly.tellChanged d.cu.drawers).writeMirrors drawerIndices .nothing)).gist = d.gist := by
    dsimp only
    split <;> simp
  unfold Chip.rebuildFinish
  refine Gist.Reaches.trans ?_ (.of_eq (hend _ _))
  split
  · rw [Chip.report_gist, Chip.dayNotice_gist]
    exact (Gist.Moves.sendingCloses (g := c.gist) h).reaches
  · exact .refl

theorem Chip.rebuildSlot_reaches (c : Chip) (k : Nat) (h : c.cu.walk.isSome = true) : c.gist.Reaches (c.rebuildSlot k).gist := by
  unfold Chip.rebuildSlot
  split
  · exact .of_eq (by simp)
  · exact c.rebuildFinish_reaches h

theorem Chip.rebuildEnd_reaches (c : Chip) : c.gist.Reaches c.rebuildEnd.gist := by
  unfold Chip.rebuildEnd
  split
  · next w hw =>
    split
    · have hd : ((c.takeDamage.onCu fun cu => { cu with walk := cu.walk.map fun w => { w with phase := .finishing } }).confirmClosed w).gist
          = c.gist := by
        rw [Chip.confirmClosed_gist, Chip.onCu_gist _ _ rfl (Option.isSome_map ..), Chip.takeDamage_gist]
      exact .from_eq hd.symm (Chip.rebuildSlot_reaches _ 0 ((congrArg Gist.walk hd).trans (by show c.cu.walk.isSome = true; rw [hw]; rfl)))
    · exact .refl
  · exact .refl

theorem Chip.rebuildSlotNext_reaches (c : Chip) (tag : Tag) (okay : Bool) (addr : Nat) (data : List Word)
    (h : c.cu.walk.isSome = true) : c.gist.Reaches (c.rebuildSlotNext tag okay addr data).gist := by
  unfold Chip.rebuildSlotNext
  dsimp only
  split
  · split
    · split <;> exact .of_eq (by simp)
    · exact c.rebuildSlot_reaches _ h
  · split
    · split <;> exact .of_eq (by simp)
    · exact c.rebuildSlot_reaches _ h
  · split
    · exact .of_eq (by simp)
    · exact c.rebuildSlot_reaches _ h
  · exact c.rebuildSlot_reaches _ h
  · exact .refl

theorem Chip.rebuildSlotAnswered_reaches (c : Chip) (tag : Tag) (okay : Bool) (addr : Nat) (data : List Word) :
    c.gist.Reaches (c.rebuildSlotAnswered tag okay addr data).gist := by
  have h : (if okay then c else c.reportStore rCU addr).gist = c.gist := by split <;> simp
  unfold Chip.rebuildSlotAnswered
  refine .from_eq h.symm ?_
  generalize (if okay then c else c.reportStore rCU addr) = d
  dsimp only
  split
  · next hw => exact d.rebuildSlotNext_reaches _ _ _ _ (CuState.walk_of_walkIn hw)
  · exact .refl

/-- After rebuild the part is READY and there is no walk (R97). -/
theorem Chip.rebuildEnds_gist (c : Chip) : c.rebuildEnds.gist = { c.gist with walk := false, unit := .ready } := by
  have h := c.report_gist .rebuildDone 0 c.cu.day.next
  unfold Chip.rebuildEnds
  dsimp only
  rw [Chip.statusEventAll_gist, Chip.writeStatus_gist, ← h]
  rfl

theorem Chip.rebuildDone_reaches (c : Chip) : c.gist.Reaches c.rebuildDone.gist := by
  unfold Chip.rebuildDone
  split
  · next h =>
    rw [Chip.rebuildEnds_gist]
    exact (Gist.Moves.rebuilt (g := c.gist) (CuState.walk_of_walkIn h)).reaches
  · exact .refl

theorem Chip.runAfter_reaches (c : Chip) (k : After) : c.gist.Reaches (c.runAfter k).gist := by
  cases k with
  | nothing => exact .refl
  | defaults => exact .refl
  | posting => exact .of_eq c.postingApplied_gist
  | request => exact .of_eq c.requestDone_gist
  | clearStore => exact .of_eq c.clearStore_gist
  | clearSlots => exact .of_eq c.clearSlots_gist
  | rebuild => exact c.rebuildDone_reaches

theorem Chip.anchorAnswered_reaches (c : Chip) (burst : Nat) (k : After) (okay : Bool) (addr : Nat) :
    c.gist.Reaches (c.anchorAnswered burst k okay addr).gist := by
  unfold Chip.anchorAnswered
  refine .from_eq (c.anchorBurst_gist burst addr okay).symm ?_
  dsimp only
  split
  · split
    · exact Chip.runAfter_reaches _ _
    · exact .of_eq (Chip.askDayCrc_gist _ _)
  · exact .refl

/-- Mirror writes that are dropped let what would have followed them follow (R77). -/
theorem Chip.dropMirrors_reaches (c : Chip) : c.gist.Reaches c.dropMirrors.gist := by
  have hfilter : ({ c with own := vput c.own rCU ((c.own[rCU.val] : List OwnReq).filter fun r => !r.tag.mirrors) } : Chip).gist = c.gist :=
    c.filter_gist (u := rCU) (by decide) fun r hr => by
      cases h : r.tag with
      | loadingState => rfl
      | operands code => rfl
      | _ => rw [h] at hr; cases hr
  refine .from_eq hfilter.symm (foldl_reaches (fun c r => ?_) _ _)
  split
  · exact c.runAfter_reaches _
  · exact .refl

theorem Chip.totalsMoved_reaches (c : Chip) : c.gist.Reaches c.totalsMoved.gist := by
  unfold Chip.totalsMoved
  split
  · exact .of_eq (c.writeMirrors_gist _ _)
  · exact c.dropMirrors_reaches

/-! ### Loading -/

@[simp] theorem Chip.onLoad_gist (c : Chip) (f : LoadProg → LoadProg) : (c.onLoad f).gist = c.gist := c.onSu_gist _ rfl rfl rfl rfl rfl

theorem Chip.loadAnswered_gist (c : Chip) (tag : Tag) (okay : Bool) (data : List Word) : (c.loadAnswered tag okay data).gist = c.gist := by
  unfold Chip.loadAnswered
  split
  · dsimp only
    split <;> simp
  · exact c.onLoad_gist _
  · exact c.onLoad_gist _
  · exact c.onLoad_gist _
  · rfl

/-! ### Own accesses answered -/

/-- The end of a stamp is PRU's to act on. -/
theorem Chip.passStamp_gist (c : Chip) (tag : Tag) (okay : Bool) (addr : Nat) (data : List Word) :
    (passStamp (c.stampAnswered tag okay addr data)).gist = c.gist := by
  unfold passStamp
  split
  · exact (Chip.stampReply_gist _ _).trans (c.stampAnswered_gist _ _ _ _)
  · exact c.stampAnswered_gist _ _ _ _

/-- A unit that acts on its own access's answer moves on; the end of LOADING, which releases the host, apart. -/
theorem Chip.ownAnswered_reaches (c : Chip) (m : List Host.Cell) (u : Fin 9) (tag : Tag) (okay : Bool) (addr : Nat) (data : List Word)
    (ht : tag ≠ .loadingState) : c.gist.Reaches (c.ownAnswered m u tag okay addr data).gist := by
  have hreported : (if okay then c else c.reportStore u addr).gist = c.gist := by split <;> simp
  cases tag with
  | loadingState => exact absurd rfl ht
  | plain => exact .of_eq hreported
  | silent => exact .refl
  | screenWord p => exact .of_eq hreported
  | statusWord off => exact .of_eq (by unfold Chip.ownAnswered; dsimp only; split <;> simp)
  | loadIdent => exact .of_eq (c.loadAnswered_gist _ _ _)
  | loadSettings => exact .of_eq (c.loadAnswered_gist _ _ _)
  | loadDay => exact .of_eq (c.loadAnswered_gist _ _ _)
  | loadIndex => exact .of_eq (c.loadAnswered_gist _ _ _)
  | operands code => exact .of_eq (c.operandsAnswered_gist _ _ _)
  | result done => exact c.resultAnswered_reaches _ _ _
  | repEntry epoch => exact .of_eq (c.entryAnswered_gist _ _)
  | repIndex epoch => exact c.indexAnswered_reaches _ _
  | dayCrc k => exact .from_eq hreported.symm (Chip.runAfter_reaches _ _)
  | post st => exact c.postAnswered_reaches _ _ _ _
  | slotRead k base => exact .of_eq (c.slotReadAnswered_gist _ _ _ _ _)
  | slotLost k base => exact .of_eq (c.slotLostAnswered_gist _ _ _ _)
  | recordA who x => exact .of_eq ((Chip.recordReply_gist _ _).trans (c.recordAnswered_gist _ _ _ _))
  | recordB who x w => exact .of_eq ((Chip.recordReply_gist _ _).trans (c.recordAnswered_gist _ _ _ _))
  | originalA who ws x => exact .of_eq ((Chip.recordReply_gist _ _).trans (c.recordAnswered_gist _ _ _ _))
  | originalB who ws x w => exact .of_eq ((Chip.recordReply_gist _ _).trans (c.recordAnswered_gist _ _ _ _))
  | stampWord0 => exact .of_eq (c.passStamp_gist _ _ _ _)
  | stampRead held => exact .of_eq (c.passStamp_gist _ _ _ _)
  | stampWrite => exact .of_eq (c.passStamp_gist _ _ _ _)
  | slotEmpty last => exact .of_eq (c.slotEmptyAnswered_gist _ _ _)
  | mirror i burst k => exact .from_eq (c.mirrorAnswered_gist i burst addr okay).symm (Chip.runAfter_reaches _ _)
  | running burst k => exact .from_eq (c.runningAnswered_gist burst addr okay).symm (Chip.runAfter_reaches _ _)
  | anchor burst k => exact c.anchorAnswered_reaches _ _ _ _
  | walkA => exact .of_eq (c.walkAnswered_gist _ _ _ _)
  | walkB w => exact .of_eq (c.walkAnswered_gist _ _ _ _)
  | walkOrigA ws => exact .of_eq (c.walkAnswered_gist _ _ _ _)
  | walkOrigB ws o => exact .of_eq (c.walkAnswered_gist _ _ _ _)
  | walkRepair r => exact .of_eq (c.walkAnswered_gist _ _ _ _)
  | rebSlot k => exact c.rebuildSlotAnswered_reaches _ _ _ _
  | rebFind k x => exact c.rebuildSlotAnswered_reaches _ _ _ _
  | rebWord0 k x => exact c.rebuildSlotAnswered_reaches _ _ _ _
  | rebOutcome k => exact c.rebuildSlotAnswered_reaches _ _ _ _
  | scuStatus p burst => exact .of_eq (c.statusAnswered_gist _ _ _ _)
  | scuCount => exact .of_eq (c.scuWordAnswered_gist _ _)
  | scuMode => exact .of_eq (c.scuWordAnswered_gist _ _)
  | fanRead burst => exact .of_eq (c.fanReadAnswered_gist _ _ _ _)
  | fanWrite p burst => exact .of_eq (c.fanWriteAnswered_gist _ _ _ _)
  | rowRead p burst epoch w => exact .of_eq (c.rowReadAnswered_gist _ _ _ _ _ _ _)
  | keyEntry p epoch => exact .of_eq (c.keyEntryAnswered_gist _ _ _ _)
  | keyIndex p epoch => exact .of_eq (c.keyIndexAnswered_gist _ _ _ _)
  | keyInit p epoch => exact .of_eq (c.keyInitAnswered_gist _ _ _ _ _)
  | subRead => exact .of_eq (c.submissionRead_gist _ _)
  | subQueued => exact c.submissionWritten_reaches _ _ _
  | subRefused => exact c.submissionWritten_reaches _ _ _
  | textRead n burst epoch w => exact .of_eq ((Chip.recordReply_gist _ _).trans (c.textAnswered_gist _ _ _ _ _ _ _))
  | slotScan n => exact .of_eq (c.slotScanned_gist _ _ _ _)
  | batchRead burst epoch w => exact c.batchAnswered_reaches _ _ _ _ _ _

end Sys2Proof.Machine
end

section
/-! PROOF. What an accepted setting does to the settings and to the table, and how a written one is judged (O20). -/

namespace Sys2Proof.Machine

/-! ### The image and what is asked of SU -/

/-- An access of SU's that settings ask for, beside those asked for before. -/
theorem settingsAsked_push (own : Vector (List OwnReq) 9) {r : OwnReq} (h : r.op.loud = true) :
    settingsAsked (vupd own rSU (· ++ [r])) = settingsAsked own ++ [r] := by
  unfold settingsAsked
  rw [vupd_get_same, List.filter_append]
  exact congrArg (_ ++ ·) (List.filter_eq_self.mpr fun x hx => by rw [List.mem_singleton.mp hx, h])

/-- An access of SU's with no loud tag that settings ask for. -/
theorem Chip.pushSetting_gist (c : Chip) (op : OwnOp) (h : op.loud = true) :
    (c.push rSU op .plain).gist = { c.gist with asked := c.gist.asked ++ [⟨op, .plain, false⟩] } := by
  have hl : loudOf (vupd c.own rSU (· ++ [⟨op, .plain, false⟩])) = loudOf c.own :=
    loudOf_append _ _ fun r hr => by rw [List.mem_singleton.mp hr]; rfl
  have ha := settingsAsked_push c.own (r := ⟨op, .plain, false⟩) h
  show Gist.mk _ _ _ _ _ _ _ _ _ _ _ (loudOf (vupd c.own rSU (· ++ [⟨op, .plain, false⟩])))
    (settingsAsked (vupd c.own rSU (· ++ [⟨op, .plain, false⟩]))) = _
  rw [hl, ha]
  rfl

/-- A CRC rewrite is asked for (R24). -/
theorem Chip.askSettingsCrc_gist (c : Chip) :
    c.askSettingsCrc.gist = { c.gist with asked := c.gist.asked ++ [⟨.settingsCrc, .plain, false⟩] } :=
  c.pushSetting_gist .settingsCrc rfl

/-- A word of the image put. -/
theorem Chip.putImage_gist (c : Chip) (i : Fin 255) (w : Word) :
    (c.putImage i.val w).gist = { c.gist with image := vput c.gist.image i w } := by
  rw [Chip.putImage_eq]
  rfl

/-- A word written back, and a CRC rewrite asked for (R23, R24). -/
theorem Chip.writeBack_gist (c : Chip) (i : Fin 255) (w : Word) : (c.writeBack i.val w).gist =
    { c.gist with
      image := vput c.gist.image i w
      asked := c.gist.asked ++ [⟨.settingWords i.val 1, .plain, false⟩, ⟨.settingsCrc, .plain, false⟩] } := by
  unfold Chip.writeBack
  rw [Chip.askSettingsCrc_gist, Chip.pushSetting_gist _ _ rfl, Chip.putImage_gist]
  simp

/-- The value in force at a word of the image. -/
theorem SuState.valueAt_eq (su : SuState) (i : Fin 255) : su.valueAt i.val = su.image[i.val].toNat := by
  unfold SuState.valueAt
  rw [List.getD_eq_getElem _ _ (by simp)]
  simp

/-- A setting's place in the image. -/
def Setting.place (k : Setting) : Fin 255 := ⟨k.index, k.index_lt⟩

/-- A setting in force is its word of the image. -/
theorem Chip.setting_eq (c : Chip) (k : Setting) : c.setting k = (c.su.image[k.place.val] : Word).toNat := c.su.valueAt_eq k.place

/-- The settings in force are those of the image. -/
theorem Chip.setting_congr {c d : Chip} (h : d.su.image = c.su.image) (k : Setting) : d.setting k = c.setting k := by
  rw [Chip.setting_eq, Chip.setting_eq, h]

/-! ### Placements -/

/-- The usable mark re-evaluated, the resolution begun or stopped (R3). -/
theorem Chip.journalChanged_gist (c : Chip) :
    c.journalChanged.gist = { c.gist with ap := { c.ap with journalUsable := c.usableNow } } := by
  unfold Chip.journalChanged
  dsimp only
  split
  · rw [Chip.resolveSlots_gist]; rfl
  · rw [Chip.stopResolving_gist]; rfl

/-- The capacity lowered writes its word back (R23). -/
theorem Chip.lowerCapacity_eq (c : Chip) : c.lowerCapacity =
    if (c.placement 0).enabled = true ∧ journalFit (c.placement 0).base (c.placement 0).limit < c.capacity then
      c.writeBack Setting.jnlCapacity.index (wd (journalFit (c.placement 0).base (c.placement 0).limit))
    else c := if_congr (by simp) rfl rfl

/-- A ring moved is empty at the read index (R35). -/
theorem Chip.reportMoved_gist (c : Chip) : c.reportMoved.gist = { c.gist with writeIndex := c.gist.readIndex } := by
  unfold Chip.reportMoved
  dsimp only
  rw [Chip.push_gist _ _ _ _ _ (by simp) (by simp) (by simp) (by simp), Chip.push_gist _ _ _ _ _ (by simp) (by simp) (by simp) (by simp)]
  rfl

/-- The table entry of a window, as the settings have it (R2). -/
def Chip.withPlacement (c : Chip) (w : Fin 6) : Chip := c.onAp fun a => { a with placed := vput a.placed w (c.placementSet w) }

/-- What is asked of SU is among its accesses. -/
theorem mem_of_settingsAsked {own : Vector (List OwnReq) 9} {r : OwnReq} (h : r ∈ settingsAsked own) :
    r ∈ (own[rSU.val] : List OwnReq) := List.mem_of_mem_filter h

/-- A capacity lowered is word 12 of the image, and asked for (R23). -/
theorem Chip.lowerCapacity_kept (c : Chip) : c.SettingsKept c.lowerCapacity := by
  have hplace : Setting.jnlCapacity.index = (12 : Fin 255).val := rfl
  rw [Chip.lowerCapacity_eq, hplace]
  split
  · have hg := c.writeBack_gist 12 (wd (journalFit (c.placement 0).base (c.placement 0).limit))
    refine ⟨fun j hj => ?_, fun r hr => ?_⟩
    · have himage : (c.writeBack _ _).su.image = vput c.su.image 12 _ := congrArg Gist.image hg
      rw [himage]
      exact vput_get_ne _ _ _ _ fun h => hj (congrArg Fin.val h)
    · have hasked : settingsAsked (c.writeBack _ _).own = settingsAsked c.own ++ _ := congrArg Gist.asked hg
      rw [hasked]
      exact List.mem_append_left _ hr
  · exact .of_gist rfl rfl

/-- A part whose gist is known keeps the settings that the gist has. -/
theorem Chip.SettingsKept.of_gist_eq {c d : Chip} {g : Gist} (h : d.gist = g) (hi : g.image = c.gist.image)
    (ha : g.asked = c.gist.asked) : c.SettingsKept d := .of_gist (h ▸ hi) (h ▸ ha)

/-- What is reached keeps the settings. -/
theorem Chip.SettingsKept.of_reaches {c d : Chip} (h : c.gist.Reaches d.gist) : c.SettingsKept d :=
  .of_gist h.leaves.1 h.leaves.2.1

/-- A JOURNAL re-evaluated keeps the settings. -/
theorem Chip.journalChanged_kept (c : Chip) : c.SettingsKept c.journalChanged :=
  .of_gist_eq c.journalChanged_gist rfl rfl

/-- A placement taken keeps the settings, but for a capacity lowered (R23). -/
theorem Chip.placementTaken_kept (c : Chip) (w : Fin 6) (changed : Bool) : c.SettingsKept (c.placementTaken w changed) := by
  have hp : c.SettingsKept (c.withPlacement w) := .of_gist rfl rfl
  refine hp.trans ?_
  generalize hd : c.withPlacement w = d
  have htaken : c.placementTaken w changed = match windowAt w with
    | .journal => d.lowerCapacity.journalChanged
    | .totals => if changed then d.totalsMoved else d
    | .screens => if changed then d.scuMoved.slcMoved else d
    | .print => if changed && d.windowEnabled .print then d.scanSlots else d
    | .report => d.reportMoved
    | .broadcast => d
    | .setup => d := by subst hd; rfl
  rw [htaken]
  cases windowAt w with
  | journal => exact d.lowerCapacity_kept.trans (Chip.journalChanged_kept _)
  | totals =>
    cases changed with
    | true => exact .of_reaches d.totalsMoved_reaches
    | false => exact .of_gist rfl rfl
  | screens =>
    cases changed with
    | true =>
      have hg : d.scuMoved.slcMoved.gist = d.gist := (Chip.slcMoved_gist _).trans d.scuMoved_gist
      exact .of_reaches (.of_eq hg)
    | false => exact .of_gist rfl rfl
  | print =>
    dsimp only
    split
    · exact .of_reaches (.of_eq d.scanSlots_gist)
    · exact .of_gist rfl rfl
  | report => exact .of_gist_eq d.reportMoved_gist rfl rfl
  | broadcast => exact .of_gist rfl rfl
  | setup => exact .of_gist rfl rfl

/-! ### A setting of one word -/

/-- The word of a setting taken, and a CRC rewrite asked for (R21, R24). -/
def Chip.withWord (c : Chip) (k : Setting) (w : Word) : Chip := (c.putImage k.index w).askSettingsCrc

/-- What that leaves of the part. -/
theorem Chip.withWord_gist (c : Chip) (k : Setting) (w : Word) : (c.withWord k w).gist = { c.gist with
    image := vput c.gist.image k.place w
    asked := c.gist.asked ++ [⟨.settingsCrc, .plain, false⟩] } := by
  unfold Chip.withWord
  rw [Chip.askSettingsCrc_gist, show k.index = k.place.val from rfl, Chip.putImage_gist]

/-- The value in force is then the word taken. -/
theorem Chip.setting_withWord (c : Chip) (k : Setting) (w : Word) : (c.withWord k w).setting k = w.toNat := by
  rw [Chip.setting_eq]
  have himage : (c.withWord k w).su.image = vput c.su.image k.place w := congrArg Gist.image (c.withWord_gist k w)
  rw [himage, vput_get_same]

/-- What follows a setting taken keeps the settings, but for a capacity lowered. -/
theorem Chip.wordTaken_kept (c : Chip) (k : Setting) (w : Word) : (c.withWord k w).SettingsKept (c.wordTaken k w) := by
  have hchanged : (c.withWord k w).SettingsKept (if w.toNat == c.setting k then c.withWord k w else (c.withWord k w).settingChanged k) := by
    split
    · exact .of_gist rfl rfl
    · exact .of_reaches (.of_eq (Chip.settingChanged_gist _ _))
  cases k with
  | placement i limit => exact Chip.placementTaken_kept _ _ _
  | jnlCapacity => exact Chip.journalChanged_kept _
  | _ => exact hchanged

end Sys2Proof.Machine
end

section
/-! PROOF. A written setting judged, refused or stored (O20). -/

namespace Sys2Proof.Machine

/-! ### A setting stored -/

/-- SU acts on a setting's word stored (R21). -/
theorem Chip.ownerAction_setting (c : Chip) (m : List Host.Cell) (k : Setting) (w : Word) (subst : Bool) :
    c.ownerAction m .setup (0x200 + 4 * k.index) w subst = c.settingTaken m k w subst := by
  unfold Chip.ownerAction
  dsimp only
  rw [settingAtOffset_index]

/-- A setting of one word is taken as it is. -/
theorem Chip.settingTaken_word (c : Chip) (m : List Host.Cell) {k : Setting} (w : Word) (subst : Bool) (hc : ∀ p u, k ≠ .ceiling p u) :
    c.settingTaken m k w subst = c.wordTaken k w := by
  cases k with
  | ceiling p u => exact absurd rfl (hc p u)
  | _ => rfl

/-- A setting of one word, stored: SU takes the value and the host has OKAY (R21). `d` is the part with the access in
progress. -/
theorem State.HostNext.setting_stored {s : State} {i : Instr} {k : Setting} {v : Word} {n : Nat} {P : State → Prop} (hs : s.HostNext)
    (hi : settingWritten i = some (k, v, allBytes)) (hw : s.chip.SetupWord (0x200 + 4 * k.index)) (hc : ∀ p u, k ≠ .ceiling p u)
    (hj : s.chip.judgeSetting s.mem k v = verdictOf v n) (hn : n < Config.wordModulus)
    (hP : ∀ st p m, m = writeWord s.mem (wrapAddr (s.chip.setupAddr (0x200 + 4 * k.index))) (whole (wd n)) → P { s with
      mem := m
      chip := ((s.chip.withHost (some p) none).wordTaken k (wd n)).answerHost true []
      arb := { s.arb with streak := st, port := .idle } }) : CompletesStored i s P := by
  obtain ⟨subst, hx⟩ := verdictOf_stored v hn
  have hans : s.chip.ownerAnswer s.mem .setup (0x200 + 4 * k.index) v = (verdictOf v n).answer :=
    (s.chip.setupAnswer_setting s.mem k v).trans (congrArg Verdict.answer hj)
  refine (hs.toHostFree.settingWrites hi hw).stored hs (by decide) (fun _ => rfl) (hans ▸ hx) fun st p m hm => ?_
  rw [Chip.ownerAction_setting, Chip.settingTaken_word _ _ _ _ hc]
  exact hP st p m hm

/-- A setting's word is its own. -/
theorem Setting.place_ne {k : Setting} (h : k ≠ .jnlCapacity) : k.place.val ≠ 12 := fun he => h (Setting.index_injective he)

/-- A setting that is stored: its value, the others, the CRC rewrite and the host's OKAY (R21, R24). -/
theorem setting_taken (s : State) (i : Instr) (k : Setting) (v : Word) (hs : s.HostNext)
    (hi : settingWritten i = some (k, v, allBytes)) (hj : k ≠ .jnlCapacity) (hc : ∀ p u, k ≠ .ceiling p u)
    (hw : s.chip.SetupWord (0x200 + 4 * k.index)) (hf : s.chip.frozen k.group = false) :
    CompletesStored i s fun t =>
      t.mem = writeWord s.mem (wrapAddr (s.chip.setupAddr (0x200 + 4 * k.index))) (whole (wd (k.clamp v.toNat))) ∧
      t.chip.setting k = k.clamp v.toNat ∧
      (∀ j : Fin 255, j.val ≠ k.index → j.val ≠ 12 → t.chip.su.image[j.val] = s.chip.su.image[j.val]) ∧
      ⟨.settingsCrc, .plain, false⟩ ∈ t.chip.own[rSU.val] ∧ t.chip.ap.answer = some ⟨true, []⟩ ∧ t.chip.ap.host = none := by
  have hlt := k.clamp_lt v.toNat v.isLt
  refine hs.setting_stored hi hw hc (Chip.judgeSetting_clamp hf hj hc _ _) hlt fun st p m hm => ?_
  generalize hd : s.chip.withHost (some p) none = d
  have himage : (d.withWord k (wd (k.clamp v.toNat))).su.image = vput s.chip.su.image k.place (wd (k.clamp v.toNat)) := by
    rw [← Chip.withHost_su s.chip (some p) none, hd]
    exact congrArg Gist.image (d.withWord_gist k _)
  have hasked : settingsAsked (d.withWord k (wd (k.clamp v.toNat))).own = settingsAsked d.own ++ [⟨.settingsCrc, .plain, false⟩] :=
    congrArg Gist.asked (d.withWord_gist k _)
  have hkept := d.wordTaken_kept k (wd (k.clamp v.toNat))
  refine ⟨hm, ?value, fun j hne h12 => ?others, mem_of_settingsAsked (hkept.asked _ ?asked), rfl, rfl⟩
  case value =>
    show (d.wordTaken k (wd (k.clamp v.toNat))).setting k = _
    rw [Chip.setting_eq, hkept.image k.place (Setting.place_ne hj), himage, vput_get_same, toNat_wd, wrapAddr, Nat.mod_eq_of_lt hlt]
  case others =>
    show (d.wordTaken k (wd (k.clamp v.toNat))).su.image[j.val] = _
    rw [hkept.image j h12, himage, vput_get_ne _ _ _ _ fun h => hne (congrArg Fin.val h)]
  case asked =>
    rw [hasked]
    exact List.mem_append_right _ (List.mem_singleton.mpr rfl)

/-! ### A setting refused -/

/-- A setting of a frozen group is refused (R22). -/
theorem frozen_setting_refused (s : State) (i : Instr) (k : Setting) (v : Word) (hs : s.HostFree)
    (hi : settingWritten i = some (k, v, allBytes)) (hw : s.chip.SetupWord (0x200 + 4 * k.index))
    (hf : s.chip.frozen k.group = true) : exec i s = .next { s with chip := s.chip.answerHost false [] } :=
  (hs.settingWrites hi hw).refused hs (by decide) (fun _ => rfl)
    ((s.chip.setupAnswer_setting s.mem k v).trans (congrArg Verdict.answer (Chip.judgeSetting_frozen hf s.mem v)))

/-- A word of the settings area that is no setting's is refused, and it is no watched word (R22). -/
theorem unassigned_setting_refused (s : State) (off : Fin 4096) (v : Word) (e : BitVec 4) (hs : s.HostFree)
    (hw : s.chip.SetupWord off.val) (hlow : 0x200 ≤ off.val) (hnone : settingAtOffset off.val = none) (he : e ≠ 0) :
    exec (.settingWrite off v e) s = .next { s with chip := s.chip.answerHost false [] } := by
  have hwr : s.Writes (.settingWrite off v e) .setup off.val v e :=
    hs.writes (addr := fun c => c.setupAddr off.val) rfl (s.chip.setupAddr_eq _) hw (lt_trans off.isLt (by decide))
  refine hwr.refused hs he (fun hp => ?_) ?_
  · have hnot : watched .setup off.val = false := by
      unfold watched
      dsimp only
      rw [hnone, beq_false_of_ne (by omega : off.val ≠ 0x100), beq_false_of_ne (by omega : off.val ≠ 0x148)]
      rfl
    rw [hnot] at hp
    cases hp
  · show s.chip.setupAnswer s.mem off.val v = .refuse
    rw [Chip.setupAnswer_of_none hnone, if_neg (by omega), if_neg (by omega), if_neg (by omega)]

/-! ### A setting written in part -/

/-- What SU makes of a setting written in part (R10, R21). -/
theorem partial_setting (s : State) (i : Instr) (k : Setting) (v : Word) (e : BitVec 4) (hs : s.HostNext)
    (hi : settingWritten i = some (k, v, e)) (hw : s.chip.SetupWord (0x200 + 4 * k.index)) (he : e ≠ 0) (hne : e ≠ allBytes) :
    let addr := wrapAddr (s.chip.setupAddr (0x200 + 4 * k.index))
    let merged := mergeWord (readWord s.mem addr) v e
    CompletesStored i s fun t => t.mem = s.mem ∧ s.chip.Only [.ap] t.chip ∧
      match s.chip.judgeSetting s.mem k merged with
      | .refuse => t.chip.ap.host = none ∧ t.chip.ap.answer = some ⟨false, []⟩ ∧ t.arb.port = .idle
      | .pass => t.arb.port = .host (.write addr [⟨merged, e⟩])
      | .substitute w => t.arb.port = .host (.write addr [⟨w, allBytes⟩]) := by
  intro addr merged
  have hwr := hs.toHostFree.settingWrites hi hw
  have hwatched : watched .setup (0x200 + 4 * k.index) = true := by
    unfold watched
    dsimp only
    rw [settingAtOffset_index]
    exact Bool.or_true _
  have haddr : (wd (s.chip.windowBase .setup + (0x200 + 4 * k.index))).toNat = addr := toNat_wd _
  refine hs.word_merged hwr.command hwr.window he (by rwa [hwr.offset]) hne fun st => ?_
  rw [hwr.offset, haddr]
  have hans : s.chip.ownerAnswer s.mem .setup (0x200 + 4 * k.index) merged = (s.chip.judgeSetting s.mem k merged).answer :=
    s.chip.setupAnswer_setting s.mem k merged
  rw [hans]
  cases s.chip.judgeSetting s.mem k merged with
  | refuse => exact ⟨rfl, s.chip.withHost_only _ _, rfl, rfl, rfl⟩
  | pass => exact ⟨rfl, s.chip.withHost_only _ _, rfl⟩
  | substitute u => exact ⟨rfl, s.chip.withHost_only _ _, rfl⟩

/-- Settles O20: where the settings stand, when their groups are frozen, and that a written one is refused, stored in range, or
merged before it is judged. -/
theorem settingsJudged : Obligations.SettingsJudged :=
  ⟨settings_stand, Chip.frozen_iff, frozen_setting_refused,
    ⟨settingAtOffset_index, settingAtOffset_eq_none_iff,
      fun s off v e hs hw hlow _ hnone he => unassigned_setting_refused s off v e hs hw hlow hnone he⟩,
    setting_taken,
    fun s i k v e hs hi hw => ⟨fun he => by
      subst he
      exact (hs.toHostFree.settingWrites hi hw).noEnables hs.toHostFree, partial_setting s i k v e hs hi hw⟩⟩

end Sys2Proof.Machine
end

section
/-! PROOF. The capacity, the ceilings and the placements (O21). -/

namespace Sys2Proof.Machine

/-! ### The window table and the capacity -/

/-- The usable mark, from the table and the capacity (R3). -/
theorem Chip.usableNow_iff (c : Chip) : c.usableNow = true ↔ (c.placement 0).base ≤ (c.placement 0).limit ∧
    1024 ≤ journalFit (c.placement 0).base (c.placement 0).limit ∧ 1024 ≤ c.capacity := by
  show ((c.placement 0).enabled && decide (1024 ≤ journalFit (c.placement 0).base (c.placement 0).limit) && decide (1024 ≤ c.capacity)) = true ↔ _
  rw [Bool.and_eq_true, Bool.and_eq_true, decide_eq_true_eq, decide_eq_true_eq, Placement.enabled, decide_eq_true_eq, and_assoc]

/-- The usable mark depends on the table and the image alone. -/
theorem Chip.usableNow_congr {c d : Chip} (hp : d.ap.placed = c.ap.placed) (hi : d.su.image = c.su.image) : d.usableNow = c.usableNow := by
  have hplace : d.placement 0 = c.placement 0 := congrArg (fun v : Vector Placement 6 => v[0]) hp
  have hcap : d.capacity = c.capacity := Chip.setting_congr hi .jnlCapacity
  unfold Chip.usableNow
  rw [hplace, hcap]

/-- The usable mark is that of the table and the capacity (R3). -/
theorem Chip.journalChanged_usable (c : Chip) : c.journalChanged.ap.journalUsable = c.journalChanged.usableNow := by
  have hap : c.journalChanged.ap = { c.ap with journalUsable := c.usableNow } := congrArg Gist.ap c.journalChanged_gist
  have hi : c.journalChanged.su.image = c.su.image := congrArg Gist.image c.journalChanged_gist
  rw [Chip.usableNow_congr (c := c) (by rw [hap]) hi, hap]

/-- JNL_CAPACITY is judged by the fit of the placement in force (R23). -/
theorem clampCapacity_eq (base limit v : Nat) : clampCapacity base limit v =
    if base ≤ limit then min (max 1024 (min 65536 (v / 64 * 64))) (journalFit base limit) else max 1024 (min 65536 (v / 64 * 64)) := by
  have hto : clampTo 1024 65536 (v / 64 * 64) = max 1024 (min 65536 (v / 64 * 64)) := by
    unfold clampTo
    (repeat' split) <;> omega
  unfold clampCapacity
  rw [hto]

/-- It is a word. -/
theorem clampCapacity_lt (base limit v : Nat) : clampCapacity base limit v < Config.wordModulus := by
  rw [clampCapacity_eq, Config.wordModulus]
  split <;> omega

/-- JNL_CAPACITY written: rounded, clamped, lowered to the fit (R23). -/
theorem capacity_taken (s : State) (v : Word) (hs : s.HostNext) (hw : s.chip.SetupWord 0x230) (hf : s.chip.frozen .day = false) :
    CompletesStored (.jnlCapacityWrite v allBytes) s fun t =>
      let j := s.chip.placementSet 0
      let c := max 1024 (min 65536 (v.toNat / 64 * 64))
      t.chip.capacity = (if j.base ≤ j.limit then min c (journalFit j.base j.limit) else c) ∧
      t.chip.ap.journalUsable = t.chip.usableNow ∧ t.chip.ap.answer = some ⟨true, []⟩ := by
  let n := clampCapacity (s.chip.setting (.placement 0 false)) (s.chip.setting (.placement 0 true)) v.toNat
  have hn : n < Config.wordModulus := clampCapacity_lt _ _ _
  have hjudge : s.chip.judgeSetting s.mem .jnlCapacity v = verdictOf v n := if_neg (by rw [show Setting.group .jnlCapacity = .day from rfl, hf]; decide)
  refine hs.setting_stored (k := .jnlCapacity) rfl hw (fun _ _ h => nomatch h) hjudge hn fun st p m _ => ?_
  generalize s.chip.withHost (some p) none = d
  let e := d.withWord .jnlCapacity (wd n)
  have hcap : e.journalChanged.capacity = n := by
    have hi : e.journalChanged.su.image = e.su.image := congrArg Gist.image e.journalChanged_gist
    calc e.journalChanged.capacity = e.capacity := Chip.setting_congr hi .jnlCapacity
      _ = (wd n).toNat := d.setting_withWord .jnlCapacity (wd n)
      _ = n := by rw [toNat_wd, wrapAddr, Nat.mod_eq_of_lt hn]
  exact ⟨hcap.trans (clampCapacity_eq _ _ _), e.journalChanged_usable, rfl⟩

/-! ### Ceilings -/

/-- A ceiling from its two words (R23). -/
theorem Chip.ceilingOf_eq (c : Chip) (p : Fin 12) : c.ceilingOf p =
    nat64 (c.su.image[(Setting.ceiling p false).place.val]) (c.su.image[(Setting.ceiling p true).place.val]) := by
  unfold Chip.ceilingOf nat64
  rw [Chip.setting_eq, Chip.setting_eq]

/-- The two words of a ceiling, by half. -/
def halves (upper : Bool) (this other : Word) : Nat := if upper then nat64 other this else nat64 this other

/-- Settings stand apart. -/
theorem Setting.place_injective {k k' : Setting} (h : k.place = k'.place) : k = k' := Setting.index_injective (congrArg Fin.val h)

/-- A ceiling whose two words are put is what they make. -/
theorem Chip.ceilingOf_put {c d : Chip} {p : Fin 12} {upper : Bool} {a b : Word}
    (h : d.su.image = vput (vput c.su.image (Setting.ceiling p upper).place a) (Setting.ceiling p (!upper)).place b) :
    d.ceilingOf p = halves upper a b ∧ ∀ q, q ≠ p → d.ceilingOf q = c.ceilingOf q := by
  have hne : (Setting.ceiling p upper).place ≠ (Setting.ceiling p (!upper)).place := fun he => by
    have := Setting.place_injective he
    cases upper <;> cases this
  have hthis : d.su.image[(Setting.ceiling p upper).place.val] = a := by rw [h, vput_get_ne _ _ _ _ hne, vput_get_same]
  have hother : d.su.image[(Setting.ceiling p (!upper)).place.val] = b := by rw [h, vput_get_same]
  constructor
  · rw [Chip.ceilingOf_eq]
    cases upper with
    | false => exact congrArg₂ nat64 hthis hother
    | true => exact congrArg₂ nat64 hother hthis
  · intro q hq
    have hleft (half : Bool) : d.su.image[(Setting.ceiling q half).place.val] = c.su.image[(Setting.ceiling q half).place.val] := by
      have hapart (half' : Bool) : (Setting.ceiling q half).place ≠ (Setting.ceiling p half').place := fun he => by
        have := Setting.place_injective he
        cases this
        exact hq rfl
      rw [h, vput_get_ne _ _ _ _ (hapart _), vput_get_ne _ _ _ _ (hapart _)]
    rw [Chip.ceilingOf_eq, Chip.ceilingOf_eq, hleft, hleft]

/-- The two halves of the cap make it. -/
theorem halves_capHalf (upper : Bool) : halves upper (capHalf upper) (capHalf (!upper)) = 999999999999 := by cases upper <;> decide

/-- A word read apart from one written. -/
theorem readWord_writeWord_apart (m : List Host.Cell) (a b : Nat) (w : WriteWord)
    (h : ∀ i < 4, ∀ j < 4, wrapAddr (b + j) ≠ wrapAddr (a + i)) : readWord (writeWord m a w) b = readWord m b := by
  have hbyte (j : Nat) (hj : j < 4) : readByte (writeWord m a w) (wrapAddr (b + j)) = readByte m (wrapAddr (b + j)) :=
    readByte_writeWord_ne m a _ w fun i hi _ => h i hi j hj
  unfold readWord
  rw [hbyte 1 (by decide), hbyte 2 (by decide), hbyte 3 (by decide), show wrapAddr b = wrapAddr (b + 0) from rfl, hbyte 0 (by decide)]

/-- The other half of a ceiling as the store holds it, after this half is written (log 29). -/
theorem Chip.ceilingOther_written (c : Chip) (m : List Host.Cell) (p : Fin 12) (upper : Bool) (w : WriteWord) :
    c.ceilingOther (writeWord m (wrapAddr (c.setupAddr (0x200 + 4 * (Setting.ceiling p upper).index))) w) p upper = c.ceilingOther m p upper := by
  refine readWord_writeWord_apart _ _ _ _ fun i hi j hj => ?_
  have hidx : (Setting.ceiling p (!upper)).index + flagBit upper = (Setting.ceiling p upper).index + flagBit (!upper) := by
    cases upper <;> rfl
  have hbits : flagBit upper + flagBit (!upper) = 1 := by cases upper <;> rfl
  unfold wrapAddr Chip.setupAddr Config.wordModulus
  omega

/-- A half of a ceiling written is judged with the other half (R23). -/
theorem Chip.judgeSetting_ceiling (c : Chip) (m : List Host.Cell) (p : Fin 12) (upper : Bool) (v : Word) :
    c.judgeSetting m (.ceiling p upper) v = if c.ceilingWith m p upper v ≤ 999999999999 then .pass else .substitute (capHalf upper) := rfl

/-- The two halves of a ceiling, this one written. -/
theorem Chip.ceilingWith_eq (c : Chip) (m : List Host.Cell) (p : Fin 12) (upper : Bool) (v : Word) :
    c.ceilingWith m p upper v = halves upper v (c.ceilingOther m p upper) := rfl

/-- A half of a ceiling is stored as it is, or as the cap's (R23). -/
theorem Chip.ceiling_stored {c : Chip} {m : List Host.Cell} {p : Fin 12} {upper : Bool} {v x : Word} {f : BitVec 4} {subst : Bool}
    (h : (c.judgeSetting m (.ceiling p upper) v).answer.stored v allBytes = some (x, f, subst)) :
    (c.ceilingWith m p upper v ≤ 999999999999 ∧ x = v ∧ subst = false) ∨
      (999999999999 < c.ceilingWith m p upper v ∧ x = capHalf upper ∧ subst = true) := by
  rw [Chip.judgeSetting_ceiling] at h
  split at h
  · next hle => cases h; exact .inl ⟨hle, rfl, rfl⟩
  · next hgt => cases h; exact .inr ⟨Nat.not_le.mp hgt, rfl, rfl⟩

/-- A half of a ceiling taken as it was judged: the image has two words that make the value brought into range (R23). -/
theorem Chip.takeCeiling_gist (c : Chip) (m : List Host.Cell) (p : Fin 12) (upper : Bool) (v x : Word) (subst : Bool)
    (h : (c.ceilingWith m p upper v ≤ 999999999999 ∧ x = v ∧ subst = false) ∨
      (999999999999 < c.ceilingWith m p upper v ∧ x = capHalf upper ∧ subst = true)) :
    ∃ a b more, (c.takeCeiling m p upper x subst).gist = { c.gist with
        image := vput (vput c.gist.image (Setting.ceiling p upper).place a) (Setting.ceiling p (!upper)).place b
        asked := c.gist.asked ++ more } ∧
      halves upper a b = min (c.ceilingWith m p upper v) 999999999999 := by
  have hone : (Setting.ceiling p upper).index = (Setting.ceiling p upper).place.val := rfl
  have hother : (Setting.ceiling p (!upper)).index = (Setting.ceiling p (!upper)).place.val := rfl
  obtain ⟨hle, rfl, rfl⟩ | ⟨hgt, rfl, rfl⟩ := h
  · have htake : c.takeCeiling m p upper x false =
        ((c.putImage (Setting.ceiling p upper).index x).putImage (Setting.ceiling p (!upper)).index (c.ceilingOther m p upper)).askSettingsCrc :=
      if_neg (Nat.not_lt.mpr hle)
    refine ⟨x, c.ceilingOther m p upper, [⟨.settingsCrc, .plain, false⟩], ?_, ?_⟩
    · rw [htake, Chip.askSettingsCrc_gist, hone, hother, Chip.putImage_gist, Chip.putImage_gist]
    · rw [← Chip.ceilingWith_eq, Nat.min_eq_left hle]
  · have htake : c.takeCeiling m p upper (capHalf upper) true =
        (c.putImage (Setting.ceiling p upper).index (capHalf upper)).askSettingsCrc.writeBack (Setting.ceiling p (!upper)).index
          (capHalf (!upper)) := rfl
    refine ⟨capHalf upper, capHalf (!upper), [⟨.settingsCrc, .plain, false⟩,
      ⟨.settingWords (Setting.ceiling p (!upper)).place.val 1, .plain, false⟩, ⟨.settingsCrc, .plain, false⟩], ?_, ?_⟩
    · rw [htake, hone, hother, Chip.writeBack_gist, Chip.askSettingsCrc_gist, Chip.putImage_gist]
      dsimp only
      rw [List.append_assoc]
      rfl
    · rw [halves_capHalf, Nat.min_eq_right hgt.le]

/-- A half of a ceiling taken changes nothing of CU's. -/
theorem Chip.takeCeiling_cu (c : Chip) (m : List Host.Cell) (p : Fin 12) (upper : Bool) (w : Word) (subst : Bool) :
    (c.takeCeiling m p upper w subst).cu = c.cu := by
  have hput (c : Chip) (k : Setting) (w : Word) : (c.putImage k.index w).cu = c.cu := by
    rw [show k.index = k.place.val from rfl, Chip.putImage_eq]
  have hback (c : Chip) (k : Setting) (w : Word) : (c.writeBack k.index w).cu = c.cu := hput c k w
  unfold Chip.takeCeiling
  dsimp only
  (repeat' split) <;> simp [hput, hback]

/-- A ceiling taken does not depend on the store but for the other half. -/
theorem Chip.takeCeiling_congr (c : Chip) {m m' : List Host.Cell} {p : Fin 12} {upper : Bool}
    (h : c.ceilingOther m' p upper = c.ceilingOther m p upper) (w : Word) (subst : Bool) :
    c.takeCeiling m' p upper w subst = c.takeCeiling m p upper w subst := by
  unfold Chip.takeCeiling
  dsimp only
  rw [Chip.ceilingWith_eq, Chip.ceilingWith_eq, h]

/-- A drawer's record is CU's. -/
theorem Chip.drawerOf_congr {c d : Chip} (h : d.cu = c.cu) (p : Fin 12) : d.drawerOf p = c.drawerOf p := by
  unfold Chip.drawerOf
  rw [h]

/-- A drawer's record changed. -/
theorem CuState.drawers_onDrawer (cu : CuState) (i : Fin 13) (f : Drawer → Drawer) :
    (cu.onDrawer i.val f).drawers = vupd cu.drawers i f := by
  unfold CuState.onDrawer finOf
  rw [dif_pos i.isLt]

/-- The EXCESS flag is judged afresh on a change of the ceiling (R42). -/
theorem Chip.judgeExcess_excess (c : Chip) (p : Fin 12) (detail : Nat) : ((c.judgeExcess p detail).drawerOf p).excess = c.excessOf p := by
  unfold Chip.judgeExcess
  dsimp only
  split
  · next h => exact (beq_iff_eq.mp h).symm
  · have hput : ((c.onCu (·.onDrawer p.val (fun d => { d with excess := c.excessOf p }))).drawerOf p).excess = c.excessOf p := by
      have hdrawers := c.cu.drawers_onDrawer (drawerIndex p) fun d => { d with excess := c.excessOf p }
      show (CuState.drawers _)[p.val].excess = _
      exact (congrArg (fun v : Vector Drawer 13 => v[p.val].excess) hdrawers).trans (congrArg Drawer.excess (vupd_get_same _ (drawerIndex p) _))
    split
    · rw [Chip.drawerOf_congr ((Chip.ring_cu _ _).trans (Chip.report_cu _ _ _ _)), hput]
    · rw [Chip.drawerOf_congr (Chip.report_cu _ _ _ _), hput]

/-- The faces do not depend on the ceilings. -/
theorem Chip.faces_put {c d : Chip} {p : Fin 12} {upper : Bool} {a b : Word}
    (h : d.su.image = vput (vput c.su.image (Setting.ceiling p upper).place a) (Setting.ceiling p (!upper)).place b) :
    d.faces = c.faces := by
  have hapart (x : Fin 10) (half : Bool) : (Setting.face x).place ≠ (Setting.ceiling p half).place :=
    fun he => nomatch Setting.place_injective he
  have hface (x : Fin 10) : d.setting (.face x) = c.setting (.face x) := by
    rw [Chip.setting_eq, Chip.setting_eq, h, vput_get_ne _ _ _ _ (hapart x _), vput_get_ne _ _ _ _ (hapart x _)]
  unfold Chip.faces
  rw [funext hface]

/-- A change of a ceiling that is judged leaves the flag that R42 gives. -/
theorem Chip.ceilingChanged_excess (c : Chip) (p : Fin 12) (hu : c.su.unitState = .ready) (hf : c.cu.day.state.frozen = false) :
    ((c.ceilingChanged p).drawerOf p).excess = c.excessOf p := by
  have hchanged : c.ceilingChanged p = if ((c.judgeExcess p 0).drawerOf p).excess == (c.drawerOf p).excess then c.judgeExcess p 0
      else ((c.judgeExcess p 0).drawerNotice p.val).writeMirrors [drawerIndex p] .nothing := if_neg (by rw [hu, hf]; decide)
  rw [hchanged]
  split
  · exact c.judgeExcess_excess p 0
  · have hcu : (((c.judgeExcess p 0).drawerNotice p.val).writeMirrors [drawerIndex p] .nothing).cu = (c.judgeExcess p 0).cu := by simp
    rw [Chip.drawerOf_congr hcu, Chip.judgeExcess_excess]

/-- A half of a ceiling written (R23, R42, log 29). -/
theorem ceiling_taken (s : State) (p : Fin 12) (upper : Bool) (v : Word) (hs : s.HostNext)
    (hw : s.chip.SetupWord (0x280 + 8 * p.val + 4 * flagBit upper)) :
    CompletesStored (.ceilingWrite p upper v allBytes) s fun t =>
      let other := (readWord s.mem (s.chip.setupAddr (0x280 + 8 * p.val + 4 * flagBit (!upper)))).toNat
      let both := if upper = true then other + 4294967296 * v.toNat else v.toNat + 4294967296 * other
      t.chip.ceilingOf p = min both 999999999999 ∧ t.chip.ap.answer = some ⟨true, []⟩ ∧
      (∀ q : Fin 12, q ≠ p → t.chip.ceilingOf q = s.chip.ceilingOf q) ∧
      (s.chip.su.unitState = .ready → s.chip.cu.day.state.frozen = false → t.chip.ceilingOf p ≠ s.chip.ceilingOf p →
        (t.chip.drawerOf p).excess = s.chip.excessUnder (t.chip.ceilingOf p) p) := by
  have hoff (half : Bool) : 0x280 + 8 * p.val + 4 * flagBit half = 0x200 + 4 * (Setting.ceiling p half).index := by
    cases half <;> simp only [Setting.index, flagBit] <;> omega
  rw [hoff] at hw
  rw [hoff]
  obtain ⟨x, subst, hx⟩ : ∃ x subst, (s.chip.judgeSetting s.mem (.ceiling p upper) v).answer.stored v allBytes = some (x, allBytes, subst) := by
    rw [Chip.judgeSetting_ceiling]
    split
    · exact ⟨_, _, rfl⟩
    · exact ⟨_, _, rfl⟩
  have hans := s.chip.setupAnswer_setting s.mem (.ceiling p upper) v
  refine (hs.toHostFree.settingWrites (i := .ceilingWrite p upper v allBytes) rfl hw).stored hs (by decide) (fun _ => rfl)
    ((congrArg (Answer.stored · v allBytes) hans).trans hx) fun st pr m hm => ?_
  rw [Chip.ownerAction_setting]
  generalize hd : s.chip.withHost (some pr) none = d
  have hsu : d.su = s.chip.su := hd ▸ rfl
  have hcu : d.cu = s.chip.cu := hd ▸ rfl
  have hother : d.ceilingOther m p upper = d.ceilingOther s.mem p upper := by
    rw [hm, ← hd]
    exact s.chip.ceilingOther_written s.mem p upper _
  obtain ⟨a, b, more, hgist, hhalves⟩ := d.takeCeiling_gist s.mem p upper v x subst (hd ▸ Chip.ceiling_stored hx)
  rw [← d.takeCeiling_congr hother] at hgist
  let e := d.takeCeiling m p upper x subst
  have himage : e.su.image = vput (vput s.chip.su.image (Setting.ceiling p upper).place a) (Setting.ceiling p (!upper)).place b :=
    hsu ▸ congrArg Gist.image hgist
  obtain ⟨hthis, hthose⟩ := Chip.ceilingOf_put himage
  let f := if e.ceilingOf p == d.ceilingOf p then e else e.ceilingChanged p
  have hf : f.su.image = e.su.image := by
    show (ite _ _ _ : Chip).su.image = _
    split
    · rfl
    · exact congrArg Gist.image (e.ceilingChanged_gist p)
  have hceiling (q : Fin 12) : f.ceilingOf q = e.ceilingOf q := by
    unfold Chip.ceilingOf
    rw [Chip.setting_congr hf, Chip.setting_congr hf]
  refine ⟨?value, rfl, fun q hq => (hceiling q).trans (hthose q hq), fun hu hfrozen hne => ?excess⟩
  case value =>
    refine (hceiling p).trans (hthis.trans (hhalves.trans ?_))
    subst hd
    cases upper <;> rfl
  case excess =>
    have hchanged : f = e.ceilingChanged p := if_neg fun he => hne <| (hceiling p).trans <| by
      rw [beq_iff_eq.mp he]
      unfold Chip.ceilingOf
      rw [Chip.setting_congr (congrArg SuState.image hsu), Chip.setting_congr (congrArg SuState.image hsu)]
    have hecu : e.cu = s.chip.cu := (d.takeCeiling_cu m p upper x subst).trans hcu
    have hunit : e.su.unitState = .ready := (congrArg Gist.unit hgist).trans ((congrArg SuState.unitState hsu).trans hu)
    have hexcess := e.ceilingChanged_excess p hunit (hecu ▸ hfrozen)
    show (f.drawerOf p).excess = s.chip.excessUnder (f.ceilingOf p) p
    rw [hceiling, hchanged, hexcess]
    unfold Chip.excessOf Chip.excessUnder
    rw [Chip.faces_put himage, Chip.drawerOf_congr hecu]

/-! ### Placements -/

/-- Any window but the JOURNAL's: its owner leaves the image, the table, the usable mark and the read index. -/
theorem Chip.placementTaken_leaves (c : Chip) {w : Fin 6} (changed : Bool) (hw : w ≠ 0) :
    let d := c.placementTaken w changed
    let e := c.withPlacement w
    d.su.image = e.su.image ∧ d.ap.placed = e.ap.placed ∧ d.ap.journalUsable = e.ap.journalUsable ∧ d.su.readIndex = e.su.readIndex := by
  have hreaches {d e : Chip} (h : e.gist.Reaches d.gist) : d.su.image = e.su.image ∧ d.ap.placed = e.ap.placed ∧
      d.ap.journalUsable = e.ap.journalUsable ∧ d.su.readIndex = e.su.readIndex :=
    have ⟨hi, _, _, hr, hp, hj⟩ := h.leaves
    ⟨hi, hp, hj, hr⟩
  match w, hw with
  | 1, _ =>
    cases changed with
    | false => exact ⟨rfl, rfl, rfl, rfl⟩
    | true => exact hreaches (Chip.totalsMoved_reaches _)
  | 2, _ =>
    cases changed with
    | false => exact ⟨rfl, rfl, rfl, rfl⟩
    | true =>
      have hmoved (d : Chip) : d.scuMoved.slcMoved.gist = d.gist := d.scuMoved.slcMoved_gist.trans d.scuMoved_gist
      exact hreaches (.of_eq (hmoved (c.withPlacement 2)))
  | 3, _ => exact ⟨rfl, rfl, rfl, rfl⟩
  | 4, _ =>
    have hprint : (c.placementTaken 4 changed) = if changed && (c.withPlacement 4).windowEnabled .print then (c.withPlacement 4).scanSlots
        else c.withPlacement 4 := rfl
    rw [hprint]
    split
    · exact hreaches (.of_eq (Chip.scanSlots_gist _))
    · exact ⟨rfl, rfl, rfl, rfl⟩
  | 5, _ =>
    have hmoved := (c.withPlacement 5).reportMoved_gist
    exact ⟨congrArg Gist.image hmoved, congrArg (fun g : Gist => g.ap.placed) hmoved, congrArg (fun g : Gist => g.ap.journalUsable) hmoved,
      congrArg Gist.readIndex hmoved⟩

/-- The capacity lowered to the fit of an enabled window (R23). -/
theorem Chip.lowerCapacity_spec (c : Chip) : c.lowerCapacity.ap = c.ap ∧ c.lowerCapacity.su.readIndex = c.su.readIndex ∧
    c.lowerCapacity.capacity = if (c.placement 0).base ≤ (c.placement 0).limit
      then min c.capacity (journalFit (c.placement 0).base (c.placement 0).limit) else c.capacity := by
  generalize hn : journalFit (c.placement 0).base (c.placement 0).limit = n
  have henabled : (c.placement 0).enabled = true ↔ (c.placement 0).base ≤ (c.placement 0).limit := decide_eq_true_iff
  rw [Chip.lowerCapacity_eq, hn]
  by_cases h : (c.placement 0).enabled = true ∧ n < c.capacity
  · have hg : (c.writeBack Setting.jnlCapacity.index (wd n)).gist = _ := c.writeBack_gist Setting.jnlCapacity.place (wd n)
    have hlt : c.capacity < Config.wordModulus := by
      rw [Chip.capacity, Chip.setting_eq]
      exact BitVec.isLt _
    have hcap : (c.writeBack Setting.jnlCapacity.index (wd n)).capacity = n := by
      have himage : (c.writeBack Setting.jnlCapacity.index (wd n)).su.image = vput c.su.image Setting.jnlCapacity.place (wd n) :=
        congrArg Gist.image hg
      rw [Chip.capacity, Chip.setting_eq, himage, vput_get_same, toNat_wd, wrapAddr,
        Nat.mod_eq_of_lt (lt_trans h.2 hlt)]
    rw [if_pos h, if_pos (henabled.mp h.1), Nat.min_eq_right h.2.le]
    exact ⟨congrArg Gist.ap hg, congrArg Gist.readIndex hg, hcap⟩
  · rw [if_neg h]
    refine ⟨rfl, rfl, ?_⟩
    split
    · next hle => exact (Nat.min_eq_left (Nat.not_lt.mp fun hlt => h ⟨henabled.mpr hle, hlt⟩)).symm
    · rfl

/-- The JOURNAL's placement taken: the table, the usable mark, and the capacity lowered to the fit (R3, R23). -/
theorem Chip.placementTaken_journal (c : Chip) (changed : Bool) :
    let d := c.placementTaken 0 changed
    let e := c.withPlacement 0
    let j := e.placement 0
    d.ap.placed = e.ap.placed ∧ d.ap.journalUsable = d.usableNow ∧ d.su.readIndex = c.su.readIndex ∧
      d.capacity = if j.base ≤ j.limit then min c.capacity (journalFit j.base j.limit) else c.capacity := by
  intro d e j
  have hd : d.gist = { e.lowerCapacity.gist with ap := { e.lowerCapacity.ap with journalUsable := e.lowerCapacity.usableNow } } :=
    Chip.journalChanged_gist _
  obtain ⟨hap, hindex, hcap⟩ := e.lowerCapacity_spec
  have hplaced : d.ap.placed = e.lowerCapacity.ap.placed := congrArg (fun g : Gist => g.ap.placed) hd
  refine ⟨hplaced.trans (congrArg ApState.placed hap), Chip.journalChanged_usable e.lowerCapacity,
    (congrArg Gist.readIndex hd).trans hindex, ?_⟩
  · exact (Chip.setting_congr (c := e.lowerCapacity) (congrArg Gist.image hd) .jnlCapacity).trans hcap

/-- The placement the settings give a window, one half of it written. -/
theorem Chip.placementSet_withWord (c : Chip) (w : Fin 6) (limit : Bool) (v : Word) :
    (c.withWord (.placement w limit) v).placementSet w =
      if limit = true then ⟨(c.placementSet w).base, v.toNat⟩ else ⟨v.toNat, (c.placementSet w).limit⟩ := by
  have hwritten := c.setting_withWord (.placement w limit) v
  have hother : (c.withWord (.placement w limit) v).setting (.placement w (!limit)) = c.setting (.placement w (!limit)) := by
    have himage : (c.withWord (.placement w limit) v).su.image = vput c.su.image (Setting.placement w limit).place v :=
      congrArg Gist.image (c.withWord_gist _ _)
    have hne : (Setting.placement w (!limit)).place ≠ (Setting.placement w limit).place := fun he => by
      have := Setting.place_injective he
      cases limit <;> cases this
    rw [Chip.setting_eq, Chip.setting_eq, himage, vput_get_ne _ _ _ _ hne]
  cases limit with
  | false => exact congrArg₂ Placement.mk hwritten hother
  | true => exact congrArg₂ Placement.mk hother hwritten

/-- A report ring moved starts empty (R35). -/
theorem Chip.placementTaken_report (c : Chip) (changed : Bool) :
    (c.placementTaken 5 changed).su.writeIndex = c.su.readIndex ∧ (c.placementTaken 5 changed).su.overflow = false := ⟨rfl, rfl⟩

/-- A placement written (R2, R3, R23, R35). -/
theorem placement_taken (s : State) (w : Fin 6) (limit : Bool) (v : Word) (hs : s.HostNext)
    (hw : s.chip.SetupWord (0x200 + 8 * w.val + 4 * flagBit limit)) (hf : s.chip.frozen .day = false) :
    CompletesStored (.placementWrite w limit v allBytes) s fun t =>
      (let n := min v.toNat 0xFFFFF
       let old := s.chip.placementSet w
       t.chip.placement w = if limit = true then ⟨old.base, n⟩ else ⟨n, old.limit⟩) ∧
      (∀ x : Fin 6, x ≠ w → t.chip.placement x = s.chip.placement x) ∧
      (t.chip.ap.journalUsable = if w = 0 then t.chip.usableNow else s.chip.ap.journalUsable) ∧
      (let j := t.chip.placement 0
       t.chip.capacity = if w = 0 ∧ j.base ≤ j.limit then min s.chip.capacity (journalFit j.base j.limit)
         else s.chip.capacity) ∧
      (w = 5 → t.chip.su.writeIndex = s.chip.su.readIndex ∧ t.chip.su.overflow = false) ∧
      t.chip.su.readIndex = s.chip.su.readIndex ∧ t.chip.ap.answer = some ⟨true, []⟩ := by
  have hoff : 0x200 + 8 * w.val + 4 * flagBit limit = 0x200 + 4 * (Setting.placement w limit).index := by
    simp only [Setting.index]
    omega
  have hclamp : (Setting.placement w limit).clamp v.toNat = min v.toNat 0xFFFFF := by
    show clampTo 0 0xFFFFF v.toNat = _
    unfold clampTo
    (repeat' split) <;> omega
  have hjudge : s.chip.judgeSetting s.mem (.placement w limit) v = verdictOf v (min v.toNat 0xFFFFF) :=
    (Chip.judgeSetting_clamp (k := .placement w limit) hf (fun h => nomatch h) (fun _ _ h => nomatch h) _ _).trans (by rw [hclamp])
  have hlt : min v.toNat 0xFFFFF < Config.wordModulus := by unfold Config.wordModulus; omega
  refine hs.setting_stored rfl (hoff ▸ hw) (fun _ _ h => nomatch h) hjudge hlt fun st p m _ => ?_
  generalize hn : min v.toNat 0xFFFFF = n at hlt
  have hnat : (wd n).toNat = n := by rw [toNat_wd, wrapAddr, Nat.mod_eq_of_lt hlt]
  generalize hd : s.chip.withHost (some p) none = d
  have hsu : d.su = s.chip.su := hd ▸ rfl
  have happ : d.ap.placed = s.chip.ap.placed := hd ▸ rfl
  have husable : d.ap.journalUsable = s.chip.ap.journalUsable := hd ▸ rfl
  have hset : d.placementSet w = s.chip.placementSet w := by
    unfold Chip.placementSet
    rw [Chip.setting_congr (congrArg SuState.image hsu), Chip.setting_congr (congrArg SuState.image hsu)]
  generalize hb : d.withWord (.placement w limit) (wd n) = b
  have hbset : b.placementSet w = if limit = true then ⟨(s.chip.placementSet w).base, n⟩ else ⟨n, (s.chip.placementSet w).limit⟩ := by
    rw [← hb, d.placementSet_withWord, hset, hnat]
  have hbgist := d.withWord_gist (.placement w limit) (wd n)
  rw [hb] at hbgist
  have hbplaced : (b.withPlacement w).ap.placed = vput s.chip.ap.placed w (b.placementSet w) := by
    rw [← happ]
    exact congrArg (fun g : Gist => vput g.ap.placed w (b.placementSet w)) hbgist
  have hbcap : b.capacity = s.chip.capacity := by
    have himage : b.su.image = vput s.chip.su.image (Setting.placement w limit).place (wd n) := hsu ▸ congrArg Gist.image hbgist
    have hne : Setting.jnlCapacity.place ≠ (Setting.placement w limit).place := fun he => nomatch Setting.place_injective he
    rw [Chip.capacity, Chip.capacity, Chip.setting_eq, Chip.setting_eq, himage, vput_get_ne _ _ _ _ hne]
  have hbindex : b.su.readIndex = s.chip.su.readIndex := (congrArg Gist.readIndex hbgist).trans (congrArg SuState.readIndex hsu)
  have hbusable : b.ap.journalUsable = s.chip.ap.journalUsable := (congrArg (fun g : Gist => g.ap.journalUsable) hbgist).trans husable
  generalize hf' : b.placementTaken w ((wd n).toNat != d.setting (.placement w limit)) = f
  have hfinal : d.wordTaken (.placement w limit) (wd n) = f := by
    rw [← hf', ← hb]
    rfl
  rw [hfinal]
  have hothers (hfplaced : f.ap.placed = (b.withPlacement w).ap.placed) (x : Fin 6) (hx : x ≠ w) :
      f.placement x = s.chip.placement x := by
    unfold Chip.placement
    rw [hfplaced, hbplaced, vput_get_ne _ _ _ _ hx]
  have hthis (hfplaced : f.ap.placed = (b.withPlacement w).ap.placed) : f.placement w =
      if limit = true then ⟨(s.chip.placementSet w).base, n⟩ else ⟨n, (s.chip.placementSet w).limit⟩ := by
    rw [← hbset]
    unfold Chip.placement
    rw [hfplaced, hbplaced, vput_get_same]
  by_cases h0 : w = 0
  · subst h0
    obtain ⟨hplaced, hmark, hindex, hcap⟩ := b.placementTaken_journal ((wd n).toNat != d.setting (.placement 0 limit))
    rw [hf'] at hplaced hmark hindex hcap
    have hj : f.placement 0 = (b.withPlacement 0).placement 0 := congrArg (fun v : Vector Placement 6 => v[0]) hplaced
    rw [← hj, hbcap] at hcap
    exact ⟨hthis hplaced, hothers hplaced, hmark, hcap.trans (if_congr ⟨fun h => ⟨rfl, h⟩, And.right⟩ rfl rfl),
      fun h => absurd h (by decide), hindex.trans hbindex, rfl⟩
  · obtain ⟨himage, hplaced, hmark, hindex⟩ := b.placementTaken_leaves ((wd n).toNat != d.setting (.placement w limit)) h0
    rw [hf'] at himage hplaced hmark hindex
    refine ⟨hthis hplaced, hothers hplaced, ?_, ?_, fun h => ?_, hindex.trans hbindex, rfl⟩
    · exact (hmark.trans hbusable).trans (if_neg h0).symm
    · exact ((Chip.setting_congr (c := b) himage .jnlCapacity).trans hbcap).trans (if_neg fun h => h0 h.1).symm
    · subst h
      obtain ⟨hindex, hflag⟩ := b.placementTaken_report ((wd n).toNat != d.setting (.placement 5 limit))
      rw [hf'] at hindex hflag
      exact ⟨hindex.trans hbindex, hflag⟩

/-- Settles O21: the usable mark, JNL_CAPACITY, CEILING_p and the placements. -/
theorem capacityAndPlacements : Obligations.CapacityAndPlacements :=
  ⟨Chip.usableNow_iff, capacity_taken, ceiling_taken, placement_taken⟩

end Sys2Proof.Machine
end

section
/-! PROOF. One hold at a time, as a property of the gist, and that the moves keep it (O5). -/

namespace Sys2Proof.Machine

/-! ### The invariant on the gist -/

/-- The host access in progress is held for an operation (R12). -/
def Gist.holds (g : Gist) (h : HoldOp) : Prop := ∃ p, g.ap.host = some p ∧ p.phase = .heldOwner h

/-- An own access with a loud tag is under way, among those at the port, or waits. -/
def Gist.present (g : Gist) (port : List Tag) (tag : Tag) : Prop := tag ∈ port ∨ ∃ u : Fin 9, tag ∈ (g.loud[u.val] : List Tag)

/-- One hold at a time, `port` being the tag of the own access under way. -/
structure Gist.OneHold (g : Gist) (port : List Tag) : Prop where
  posting : g.posting = true → (∃ x, g.holds (.commit x)) ∧ g.unit = .ready ∧ g.day.frozen = false
  submission : g.submission = true → ∃ n x, g.holds (.submit n x)
  request : g.request.isSome = true → ∃ code, g.holds (.request code)
  walk : g.walk = true → g.unit = .rebuilding
  send : g.send = true → g.unit = .ready ∧ g.day = .sending
  loading : g.unit = .loading → g.ap.held = true ∧ ∀ p, g.ap.host = some p → p.phase = .heldLoading
  released : g.present port .loadingState → g.unit ≠ .loading
  operands : ∀ code, g.present port (.operands code) → g.unit = .ready ∨ code ∈ [9, 10, 11]

/-- Out of LOADING with nothing in progress that holds the host: whatever the host access is then. -/
structure Gist.Free (g : Gist) (port : List Tag) : Prop where
  posting : g.posting = false
  submission : g.submission = false
  request : g.request = none
  walk : g.walk = true → g.unit = .rebuilding
  send : g.send = true → g.unit = .ready ∧ g.day = .sending
  loaded : g.unit ≠ .loading
  operands : ∀ code, g.present port (.operands code) → g.unit = .ready ∨ code ∈ [9, 10, 11]

/-- A part with nothing in progress has one hold at a time. -/
theorem Gist.Free.oneHold {g : Gist} {port : List Tag} (h : g.Free port) : g.OneHold port where
  posting hp := by rw [h.posting] at hp; cases hp
  submission hs := by rw [h.submission] at hs; cases hs
  request hr := by rw [h.request] at hr; cases hr
  walk := h.walk
  send := h.send
  loading hl := absurd hl h.loaded
  released _ := h.loaded
  operands := h.operands

/-- Where the host is not held for an operation, nothing is in progress that holds it. -/
theorem Gist.OneHold.free {g : Gist} {port : List Tag} (h : g.OneHold port) (hn : ∀ x, ¬ g.holds x) (hl : g.unit ≠ .loading) :
    g.Free port where
  posting := by
    by_contra hp
    obtain ⟨⟨x, hx⟩, -⟩ := h.posting (by simpa using hp)
    exact hn _ hx
  submission := by
    by_contra hs
    obtain ⟨n, x, hx⟩ := h.submission (by simpa using hs)
    exact hn _ hx
  request := by
    by_contra hr
    obtain ⟨code, hx⟩ := h.request (Option.isSome_iff_ne_none.mpr hr)
    exact hn _ hx
  walk := h.walk
  send := h.send
  loaded := hl
  operands := h.operands

/-- A host access that is held for one operation is held for no other. -/
theorem Gist.holds_unique {g : Gist} {x y : HoldOp} (hx : g.holds x) (hy : g.holds y) : x = y := by
  obtain ⟨p, hp, hx⟩ := hx
  obtain ⟨q, hq, hy⟩ := hy
  cases hp.symm.trans hq
  exact HostPhase.heldOwner.inj (hx.symm.trans hy)

/-! ### The moves -/

/-- A walk is under way with no send and no posting. -/
theorem Gist.OneHold.walking {g : Gist} {port : List Tag} (h : g.OneHold port) (hw : g.walk = true) : g.posting = false ∧ g.send = false := by
  have hu := h.walk hw
  constructor
  · by_contra hp
    obtain ⟨-, hr, -⟩ := h.posting (by simpa using hp)
    exact nomatch hu.symm.trans hr
  · by_contra hs
    obtain ⟨hr, -⟩ := h.send (by simpa using hs)
    exact nomatch hu.symm.trans hr

/-- No posting and no send are under way together. -/
theorem Gist.OneHold.posting_send {g : Gist} {port : List Tag} (h : g.OneHold port) (hp : g.posting = true) : g.send = false := by
  by_contra hs
  obtain ⟨-, -, hf⟩ := h.posting hp
  obtain ⟨-, hd⟩ := h.send (by simpa using hs)
  rw [hd] at hf
  cases hf

/-- The end of the operation that the host is held for: no other holds it. -/
theorem Gist.OneHold.ends {g g' : Gist} {port : List Tag} (h : g.OneHold port) {x : HoldOp} (hx : g.holds x)
    (hp : g'.posting = true → g.posting = true ∧ ∀ y, x ≠ .commit y) (hs : g'.submission = true → g.submission = true ∧ ∀ n y, x ≠ .submit n y)
    (hr : g'.request.isSome = true → g.request.isSome = true ∧ ∀ code, x ≠ .request code)
    (hu : g'.unit = g.unit) (hw : g'.walk = g.walk) (hsend : g'.send = g.send) (hd : g'.day = g.day) (hl : g'.loud = g.loud) :
    g'.Free port where
  posting := by
    by_contra hc
    obtain ⟨hpost, hne⟩ := hp (by simpa using hc)
    obtain ⟨⟨y, hy⟩, -⟩ := h.posting hpost
    exact hne y (Gist.holds_unique hx hy)
  submission := by
    by_contra hc
    obtain ⟨hsub, hne⟩ := hs (by simpa using hc)
    obtain ⟨n, y, hy⟩ := h.submission hsub
    exact hne n y (Gist.holds_unique hx hy)
  request := by
    by_contra hc
    obtain ⟨hreq, hne⟩ := hr (Option.isSome_iff_ne_none.mpr hc)
    obtain ⟨code, hy⟩ := h.request hreq
    exact hne code (Gist.holds_unique hx hy)
  walk := by rw [hw, hu]; exact h.walk
  send := by rw [hsend, hu, hd]; exact h.send
  loaded := by
    rw [hu]
    intro hloading
    obtain ⟨p, hp, hphase⟩ := hx
    rw [(h.loading hloading).2 p hp] at hphase
    cases hphase
  operands code := by
    unfold Gist.present
    rw [hl, hu]
    exact h.operands code

/-- A move keeps one hold at a time. -/
theorem Gist.Moves.keeps {g g' : Gist} {port : List Tag} (m : g.Moves g') (h : g.OneHold port) : g'.OneHold port := by
  have hno {p : Prop} (h : false = true) : p := nomatch h
  cases m with
  | sendEnds hsend d hd =>
    exact { h with
      posting := fun hp => hno ((h.posting_send hp).symm.trans hsend)
      send := hno }
  | dayOpens hp =>
    exact { h with
      posting := fun _ => ⟨(h.posting hp).1, (h.posting hp).2.1, rfl⟩
      send := fun hs => hno ((h.posting_send hp).symm.trans hs) }
  | postingEnds hp a =>
    obtain ⟨⟨x, hx⟩, -⟩ := h.posting hp
    exact Gist.Free.oneHold (h.ends hx hno (fun hs => ⟨hs, fun _ _ => HoldOp.noConfusion⟩) (fun hr => ⟨hr, fun _ => HoldOp.noConfusion⟩)
      rfl rfl rfl rfl rfl)
  | submissionEnds hs a =>
    obtain ⟨n, x, hx⟩ := h.submission hs
    exact Gist.Free.oneHold (h.ends hx (fun hp => ⟨hp, fun _ => HoldOp.noConfusion⟩) hno (fun hr => ⟨hr, fun _ => HoldOp.noConfusion⟩)
      rfl rfl rfl rfl rfl)
  | requestEnds hr a =>
    obtain ⟨code, hx⟩ := h.request hr
    exact Gist.Free.oneHold (h.ends hx (fun hp => ⟨hp, fun _ => HoldOp.noConfusion⟩) (fun hs => ⟨hs, fun _ _ => HoldOp.noConfusion⟩) hno
      rfl rfl rfl rfl rfl)
  | sendingCloses hw =>
    obtain ⟨hp, hs⟩ := h.walking hw
    exact { h with
      posting := fun hc => hno (hp.symm.trans hc)
      send := fun hc => hno (hs.symm.trans hc) }
  | rebuilt hw =>
    obtain ⟨hp, hs⟩ := h.walking hw
    exact { h with
      posting := fun hc => hno (hp.symm.trans hc)
      walk := hno
      send := fun hc => hno (hs.symm.trans hc)
      loading := fun hc => nomatch hc
      released := fun _ hc => nomatch hc
      operands := fun _ _ => .inl rfl }
  | indexMoves n => exact { h with }

/-- So does any number of moves. -/
theorem Gist.Reaches.keeps {g g' : Gist} {port : List Tag} (r : g.Reaches g') (h : g.OneHold port) : g'.OneHold port := by
  induction r with
  | refl => exact h
  | tail _ m ih => exact m.keeps ih

/-- A move leaves nothing in progress where nothing is. -/
theorem Gist.Moves.keepsFree {g g' : Gist} {port : List Tag} (m : g.Moves g') (h : g.Free port) : g'.Free port := by
  have hno {p : Prop} (h : false = true) : p := nomatch h
  cases m with
  | sendEnds _ _ _ => exact { h with send := hno }
  | dayOpens hp => exact hno (h.posting.symm.trans hp)
  | postingEnds hp _ => exact hno (h.posting.symm.trans hp)
  | submissionEnds hs _ => exact hno (h.submission.symm.trans hs)
  | requestEnds hr _ => rw [h.request] at hr; exact hno hr
  | sendingCloses hw =>
    obtain ⟨-, hs⟩ := h.oneHold.walking hw
    exact { h with send := fun hc => hno (hs.symm.trans hc) }
  | rebuilt hw =>
    obtain ⟨-, hs⟩ := h.oneHold.walking hw
    exact { h with
      walk := hno
      send := fun hc => hno (hs.symm.trans hc)
      loaded := fun hc => nomatch hc
      operands := fun _ _ => .inl rfl }
  | indexMoves _ => exact { h with }

/-- So does any number of moves. -/
theorem Gist.Reaches.keepsFree {g g' : Gist} {port : List Tag} (r : g.Reaches g') (h : g.Free port) : g'.Free port := by
  induction r with
  | refl => exact h
  | tail _ m ih => exact m.keepsFree ih

/-- What is in progress does not depend on the settings, the table, the rings and the host access. -/
theorem Gist.Free.settings {g : Gist} {port : List Tag} (h : g.Free port) (a : ApState) (i : Vector Word 255) (r w : Nat) (q : List OwnReq) :
    { g with ap := a, image := i, readIndex := r, writeIndex := w, asked := q }.Free port := { h with }

end Sys2Proof.Machine
end

section
/-! PROOF. What the operations that a host access is held for make of the gist, and that they start one at a time (O5). -/

namespace Sys2Proof.Machine

/-! ### Loud accesses -/

/-- An own access with a loud tag. -/
theorem Chip.pushLoud_gist (c : Chip) (u : Fin 9) (op : OwnOp) {tag : Tag} (ht : tag.loud = true) (ho : op.loud = false) :
    (c.push u op tag).gist = { c.gist with loud := vupd c.gist.loud u (· ++ [tag]) } := by
  have ha : settingsAsked (vupd c.own u (· ++ [⟨op, tag, false⟩])) = settingsAsked c.own :=
    settingsAsked_append _ _ fun r hr => by rw [List.mem_singleton.mp hr]; exact ho
  have hl : loudOf (vupd c.own u (· ++ [⟨op, tag, false⟩])) = vupd (loudOf c.own) u (· ++ [tag]) := by
    apply Vector.ext
    intro i hi
    simp only [loudOf, vmap_get, vupd_get]
    split
    · next hu => subst hu; simp [ht]
    · rfl
  show Gist.mk _ _ _ _ _ _ _ _ _ _ _ (loudOf (vupd c.own u (· ++ [⟨op, tag, false⟩]))) (settingsAsked (vupd c.own u (· ++ [⟨op, tag, false⟩]))) = _
  rw [ha, hl]
  rfl

/-- An access asked for is present, and those that were. -/
theorem Gist.present_push {g : Gist} {port : List Tag} {u : Fin 9} {tag tag' : Tag}
    (h : { g with loud := vupd g.loud u (· ++ [tag']) }.present port tag) : tag = tag' ∨ g.present port tag := by
  obtain hp | ⟨v, hv⟩ := h
  · exact .inr (.inl hp)
  · dsimp only at hv
    rw [vupd_get] at hv
    split at hv
    · next hu =>
      obtain rfl : u = v := Fin.ext hu
      obtain hv | hv := List.mem_append.mp hv
      · exact .inr (.inr ⟨u, hv⟩)
      · exact .inl (List.mem_singleton.mp hv)
    · exact .inr (.inr ⟨v, hv⟩)

/-- The operands of a request asked for. -/
theorem Gist.OneHold.push_operands {g : Gist} {port : List Tag} (h : g.OneHold port) (u : Fin 9) {code : Nat}
    (hc : g.unit = .ready ∨ code ∈ [9, 10, 11]) : { g with loud := vupd g.loud u (· ++ [Tag.operands code]) }.OneHold port := { h with
  released := fun hp => h.released ((Gist.present_push hp).resolve_left fun he => nomatch he)
  operands := fun code' hp => by
    obtain he | hp := Gist.present_push hp
    · cases he
      exact hc
    · exact h.operands code' hp }

/-! ### COMMIT and SUBMIT -/

/-- A posting starts. -/
theorem Chip.commitHeld_gist (c : Chip) (x : Fin 13) : (c.commitHeld x).gist = { c.gist with posting := true } := by
  unfold Chip.commitHeld
  dsimp only
  split
  · exact Chip.readSlot_gist _ _
  · rfl

/-- A submission starts. -/
theorem Chip.submitHeld_gist (c : Chip) (n : Fin 4) (x : Fin 8) : (c.submitHeld n x).gist = { c.gist with submission := true } := by
  unfold Chip.submitHeld
  dsimp only
  split
  · exact Chip.readSubmission_gist _ _ _
  · rfl

/-! ### The requests that change the day -/

/-- CLOSE_DAY leaves the gist or closes the open day (R168). -/
theorem Chip.serveCloseDay_gist (c : Chip) : c.serveCloseDay.gist = c.gist ∨
    c.cu.day.state = .dayOpen ∧ c.serveCloseDay.gist = { c.gist with day := .closed } := by
  unfold Chip.serveCloseDay
  by_cases hd : c.cu.day.state = .dayOpen
  · rw [if_neg (by rw [hd]; decide)]
    split
    · exact .inl (c.requestRefused_gist _ _)
    · split
      · exact .inl (c.requestRefused_gist _ _)
      · split
        · exact .inl (c.requestRefused_gist _ _)
        · refine .inr ⟨hd, ?_⟩
          rw [Chip.writeAnchorOutside_gist, Chip.dayNotice_gist]
          rfl
  · rw [if_pos (bne_iff_ne.mpr hd)]
    exact .inl (c.requestRefused_gist _ _)

/-- START_SEND leaves the gist or begins the send of a closed day (R171). -/
theorem Chip.serveStartSend_gist (c : Chip) : c.serveStartSend.gist = c.gist ∨
    c.cu.day.state = .closed ∧ c.serveStartSend.gist = { c.gist with day := .sending, send := true } := by
  unfold Chip.serveStartSend
  by_cases hd : c.cu.day.state = .closed
  · rw [if_neg (by rw [hd]; decide)]
    refine .inr ⟨hd, ?_⟩
    rw [Chip.writeAnchorOutside_gist]
    unfold Chip.sendBegin
    dsimp only
    rw [Chip.tellCounts_gist]
    have hsending : c.daySending.gist = { c.gist with day := .sending } := by
      unfold Chip.daySending
      rw [Chip.dayNotice_gist]
      rfl
    generalize c.daySending = d at hsending
    show { d.gist with send := true } = _
    rw [hsending]
  · rw [if_pos (bne_iff_ne.mpr hd)]
    exact .inl (c.requestRefused_gist _ _)

/-- CLEAR_DAY leaves the gist or clears a day that is sent (R174). -/
theorem Chip.serveClearDay_gist (c : Chip) : c.serveClearDay.gist = c.gist ∨
    c.cu.day.state = .sent ∧ c.serveClearDay.gist = { c.gist with day := .noDay } := by
  unfold Chip.serveClearDay
  by_cases hd : c.cu.day.state = .sent
  · rw [if_neg (by rw [hd]; decide)]
    refine .inr ⟨hd, ?_⟩
    have hcleared : (c.takeDamage.onCu fun cu => { cu with day := cu.day.clearDay, drawers := vmap Drawer.clearDay cu.drawers }).gist =
        { c.gist with day := .noDay } := by
      rw [← c.takeDamage_gist]
      rfl
    have hjudged (d : Chip) : (positions.foldl (fun c p => c.judgeExcess p 0) d).gist = d.gist :=
      foldl_gist (fun c p => c.judgeExcess_gist p 0) _ _
    have hnotices (d : Chip) : (drawerIndices.foldl (fun c i => c.drawerNotice i.val) d).dayNotice.gist = d.gist :=
      (Chip.dayNotice_gist _).trans (foldl_gist (fun (c : Chip) (i : Fin 13) => c.drawerNotice_gist i.val) _ d)
    have hmarks (d : Chip) :
        ({ d with ju := { d.ju with nearFull := false, overflowMark := false, unstamped := [] } } : Chip).gist = d.gist := rfl
    rw [Chip.writeAnchorOutside_gist, hmarks, hnotices, hjudged, hcleared]
  · rw [if_pos (bne_iff_ne.mpr hd)]
    exact .inl (c.requestRefused_gist _ _)

/-! ### A request held -/

/-- A request in service, whatever it makes of the day and the send. -/
theorem Gist.Free.requested {g : Gist} {port : List Tag} (h : g.Free port) {code : Word} (hh : g.holds (.request code)) (n : Nat)
    {d : DayState} {b : Bool} (hs : b = true → g.unit = .ready ∧ d = .sending) :
    { g with request := some n, day := d, send := b }.OneHold port := { h.oneHold with
  posting := fun hp => nomatch h.posting.symm.trans hp
  request := fun _ => ⟨code, hh⟩
  send := hs }

/-- The codes of the requests served while REBUILDING (R31). -/
theorem Request.code_of_whileRebuilding {r : Request} (h : r.whileRebuilding = true) : r.code ∈ [9, 10, 11] := by
  cases r with
  | screenMode => decide
  | screenRefresh => decide
  | lineReset => decide
  | _ => cases h

/-- Those requests have operands (Table 2-5). -/
theorem Request.hasOperands_of_whileRebuilding {r : Request} (h : r.whileRebuilding = true) : r.hasOperands = true := by
  cases r with
  | screenMode => rfl
  | screenRefresh => rfl
  | lineReset => rfl
  | _ => cases h

/-- Out of LOADING the unit is READY unless it is REBUILDING. -/
theorem UnitState.ready_of {u : UnitState} (hl : u ≠ .loading) (hr : u ≠ .rebuilding) : u = .ready := by
  cases u with
  | loading => exact absurd rfl hl
  | rebuilding => exact absurd rfl hr
  | ready => rfl

/-- A request without operands is served by its owner (R31). -/
theorem Chip.serveBare_oneHold {c : Chip} {port : List Tag} (r : Request) {g : Gist} {n : Nat} {code : Word} (hf : g.Free port)
    (hh : g.holds (.request code)) (hg : c.gist = { g with request := some n }) (hready : g.unit = .ready) :
    (c.serveBare r).gist.OneHold port := by
  have hrequested : c.gist.OneHold port := hg ▸ hf.requested hh n hf.send
  have hnosend {d : DayState} (hd : c.cu.day.state = d) (hne : d ≠ .sending) : g.send = false := by
    by_contra hs
    have hday : c.cu.day.state = g.day := congrArg Gist.day hg
    obtain ⟨-, hsending⟩ := hf.send (by simpa using hs)
    exact hne (hd.symm.trans (hday.trans hsending))
  unfold Chip.serveBare
  split
  · obtain h | ⟨hd, h⟩ := c.serveCloseDay_gist
    · rwa [h]
    · rw [h, hg]
      exact hf.requested hh n fun hs => nomatch (hnosend hd (by decide)).symm.trans hs
  · obtain h | ⟨hd, h⟩ := c.serveStartSend_gist
    · rwa [h]
    · rw [h, hg]
      exact hf.requested hh n fun _ => ⟨hready, rfl⟩
  · obtain h | ⟨hd, h⟩ := c.serveClearDay_gist
    · rwa [h]
    · rw [h, hg]
      exact hf.requested hh n fun hs => nomatch (hnosend hd (by decide)).symm.trans hs
  · rwa [Chip.serveLinkReset_gist]
  · rwa [Chip.requestRefused_gist]

/-- A request held is the one in progress (R31). -/
theorem Chip.requestHeld_oneHold {c : Chip} {port : List Tag} {code : Word} (hf : c.gist.Free port) (hh : c.gist.holds (.request code)) :
    (c.requestHeld code).gist.OneHold port := by
  unfold Chip.requestHeld
  generalize hd : (c.onSu fun u => { u with request := some code.toNat }) = d
  have hg : d.gist = { c.gist with request := some code.toNat } := hd ▸ rfl
  have hrequested : d.gist.OneHold port := hg ▸ hf.requested hh _ hf.send
  have hunit : d.su.unitState = c.su.unitState := congrArg Gist.unit hg
  dsimp only
  split
  · rwa [Chip.requestRefused_gist]
  · next r _ =>
    split
    · rwa [Chip.requestRefused_gist]
    · next hready =>
      have hserved : c.gist.unit = .ready ∨ r.whileRebuilding = true := by
        rw [hunit] at hready
        cases hr : r.whileRebuilding with
        | true => exact .inr rfl
        | false =>
          rw [hr, Bool.not_false, Bool.and_true, beq_iff_eq] at hready
          exact .inl (UnitState.ready_of hf.loaded hready)
      split
      · rw [Chip.pushLoud_gist _ _ _ rfl rfl]
        exact hrequested.push_operands rSU (hserved.imp (hunit.trans ·) Request.code_of_whileRebuilding)
      · next hbare =>
        exact Chip.serveBare_oneHold r hf hh hg (hserved.resolve_right fun hw => hbare (Request.hasOperands_of_whileRebuilding hw))

end Sys2Proof.Machine
end

section
/-! PROOF. The host access in progress starts one operation at a time (O5). -/

namespace Sys2Proof.Machine

/-! ### An operation starts -/

/-- JU holds a COMMIT out of REBUILDING and with the day not frozen alone (R56). -/
theorem Chip.commit_ready {c : Chip} {m : List Host.Cell} {w : Window} {off : Nat} {v : Word} {x : Fin 13}
    (h : c.ownerAnswer m w off v = .hold (.commit x)) : c.su.unitState ≠ .rebuilding ∧ c.cu.day.state.frozen = false := by
  cases w with
  | journal =>
    have hj : c.journalAnswer off v = .hold (.commit x) := h
    rw [Chip.journalAnswer_eq] at hj
    split at hj
    · cases hj
    · next hn =>
      rw [not_or, not_or] at hn
      exact ⟨hn.2.1, Bool.eq_false_iff.mpr hn.2.2⟩
  | setup =>
    have hs : c.setupAnswer m off v = .hold (.commit x) := h
    cases hk : settingAtOffset off with
    | none =>
      rw [Chip.setupAnswer_of_none hk] at hs
      unfold passIf at hs
      (repeat' split at hs) <;> cases hs
    | some k =>
      rw [offset_of_settingAtOffset hk, Chip.setupAnswer_setting] at hs
      cases hv : c.judgeSetting m k v <;> rw [hv] at hs <;> cases hs
  | print =>
    have hp : c.printAnswer off v = .hold (.commit x) := h
    unfold Chip.printAnswer at hp
    (repeat' split at hp) <;> cases hp
  | screens =>
    have hp : screensAnswer off v = .hold (.commit x) := h
    rw [screensAnswer_eq] at hp
    split at hp <;> cases hp
  | totals => cases h
  | broadcast => cases h
  | report => cases h

/-- The operation of a hold is the one in progress (R12). -/
theorem Chip.startHold_oneHold {c : Chip} {port : List Tag} {x : HoldOp} (hf : c.gist.Free port) (hh : c.gist.holds x)
    (hc : ∀ y, x = .commit y → c.su.unitState ≠ .rebuilding ∧ c.cu.day.state.frozen = false) : (c.startHold x).gist.OneHold port := by
  cases x with
  | commit y =>
    obtain ⟨hu, hd⟩ := hc y rfl
    show (c.commitHeld y).gist.OneHold port
    rw [Chip.commitHeld_gist]
    exact { hf.oneHold with posting := fun _ => ⟨⟨y, hh⟩, UnitState.ready_of hf.loaded hu, hd⟩ }
  | submit n y =>
    show (c.submitHeld n y).gist.OneHold port
    rw [Chip.submitHeld_gist]
    exact { hf.oneHold with submission := fun _ => ⟨n, y, hh⟩ }
  | request code => exact Chip.requestHeld_oneHold hf hh

/-! ### The access goes on -/

/-- What is in progress does not depend on the host access. -/
theorem Gist.Free.setHost {c : Chip} {port : List Tag} (h : c.gist.Free port) (p : HostProg) : (c.setHost p).gist.Free port := { h with }

/-- Nor on its end. -/
theorem Gist.Free.answerHost {c : Chip} {port : List Tag} (h : c.gist.Free port) (okay : Bool) (data : List Word) :
    (c.answerHost okay data).gist.Free port := { h with }

/-- The owner is asked about a word, and a held one starts its operation. -/
theorem Chip.askOwner_oneHold {c : Chip} {port : List Tag} (h : c.gist.Free port) (m : List Host.Cell) (p : HostProg) (w : Window)
    (enables : BitVec 4) (v : Word) (last : Bool) : (c.askOwner m p w enables v last).gist.OneHold port := by
  unfold Chip.askOwner
  cases ha : c.ownerAnswer m w (p.addr - p.base) v with
  | refuse => exact (h.answerHost false []).oneHold
  | pass => exact (h.setHost _).oneHold
  | substitute u => exact (h.setHost _).oneHold
  | hold x =>
    cases last with
    | false => exact (h.answerHost false []).oneHold
    | true =>
      refine Chip.startHold_oneHold (c := c.setHost { p with phase := .heldOwner x, granted := false }) (h.setHost _)
        ⟨_, rfl, rfl⟩ ?_
      rintro y rfl
      exact Chip.commit_ready ha

/-- The write goes on with the words left. -/
theorem Chip.advance_oneHold {c : Chip} {port : List Tag} (h : c.gist.Free port) (m : List Host.Cell) (p : HostProg) (w : Window)
    (words : List WriteWord) : (c.advance m p w words).gist.OneHold port := by
  induction words generalizing p with
  | nil => exact (h.answerHost true []).oneHold
  | cons x rest ih =>
    unfold Chip.advance
    split
    · exact ih _
    · dsimp only
      split
      · exact (h.setHost _).oneHold
      · exact Chip.askOwner_oneHold h _ _ _ _ _ _

/-- An access that arrives is decoded (R4, R14). -/
theorem Chip.arrive_oneHold {c : Chip} {port : List Tag} (h : c.gist.Free port) (m : List Host.Cell) (a : HostAccess) :
    (c.arrive m a).gist.OneHold port := by
  unfold Chip.arrive
  dsimp only
  split
  · exact (h.setHost _).oneHold
  · split
    · exact (h.answerHost false []).oneHold
    · split
      · split
        · exact (h.answerHost true []).oneHold
        · exact (h.setHost _).oneHold
      · exact Chip.advance_oneHold h _ _ _ _

/-- An access at the controller port is held for LOADING or decoded (R13). -/
theorem Chip.hostAccess_oneHold {c : Chip} {port : List Tag} (h : c.gist.OneHold port) (m : List Host.Cell) (a : HostAccess) :
    (c.hostAccess m a).gist.OneHold port := by
  unfold Chip.hostAccess
  split
  · exact h
  · next hhost =>
    have hnone : c.ap.host = none := by simpa using hhost
    have hn : ∀ x, ¬ c.gist.holds x := fun x ⟨p, hp, _⟩ => nomatch hnone.symm.trans hp
    dsimp only
    split
    · next hheld =>
      by_cases hl : c.su.unitState = .loading
      · exact { h with
          posting := fun hp => (hn _ (h.posting hp).1.choose_spec).elim
          submission := fun hs => (hn _ (h.submission hs).choose_spec.choose_spec).elim
          request := fun hr => (hn _ (h.request hr).choose_spec).elim
          loading := fun _ => ⟨hheld, fun p hp => by cases hp; rfl⟩ }
      · exact (Gist.Free.setHost (c := c.onAp fun ap => { ap with answer := none }) { h.free hn hl with } _).oneHold
    · next hheld =>
      have hl : c.su.unitState ≠ .loading := fun hl => hheld (h.loading hl).1
      exact Chip.arrive_oneHold (c := c.onAp fun ap => { ap with answer := none }) { h.free hn hl with } m a

/-- A write of one word of a window's layout is a host access or nothing. -/
theorem Chip.writeIn_oneHold {c : Chip} {port : List Tag} (h : c.gist.OneHold port) (m : List Host.Cell) (w : Window) (addr : Nat) (v : Word)
    (enables : BitVec 4) : (c.writeIn m w addr v enables).gist.OneHold port := by
  unfold Chip.writeIn
  split
  · exact Chip.hostAccess_oneHold h m _
  · exact h

/-! ### A word stored -/

/-- A word of the image put and asked for leaves what is in progress. -/
theorem Gist.Free.writeBack {c : Chip} {port : List Tag} (h : c.gist.Free port) (k : Setting) (w : Word) :
    (c.writeBack k.index w).gist.Free port := by
  rw [show k.index = k.place.val from rfl, Chip.writeBack_gist]
  exact { h with }

/-- So does a word of the image taken. -/
theorem Gist.Free.withWord {c : Chip} {port : List Tag} (h : c.gist.Free port) (k : Setting) (w : Word) :
    (c.withWord k w).gist.Free port := by
  rw [Chip.withWord_gist]
  exact { h with }

/-- A ceiling taken leaves what is in progress. -/
theorem Gist.Free.takeCeiling {c : Chip} {port : List Tag} (h : c.gist.Free port) (m : List Host.Cell) (p : Fin 12) (upper : Bool) (w : Word)
    (subst : Bool) : (c.takeCeiling m p upper w subst).gist.Free port := by
  unfold Chip.takeCeiling
  dsimp only
  split
  · exact (h.withWord _ w).writeBack _ _
  · split
    · exact (h.writeBack _ _).writeBack _ _
    · have hone : (Setting.ceiling p upper).index = (Setting.ceiling p upper).place.val := rfl
      have hother : (Setting.ceiling p (!upper)).index = (Setting.ceiling p (!upper)).place.val := rfl
      rw [Chip.askSettingsCrc_gist, hone, hother, Chip.putImage_gist, Chip.putImage_gist]
      exact { h with }

/-- A JOURNAL re-evaluated leaves what is in progress. -/
theorem Gist.Free.journalChanged {c : Chip} {port : List Tag} (h : c.gist.Free port) : c.journalChanged.gist.Free port := by
  rw [Chip.journalChanged_gist]
  exact { h with }

/-- A placement taken leaves nothing in progress where nothing is. -/
theorem Gist.Free.placementTaken {c : Chip} {port : List Tag} (h : c.gist.Free port) (w : Fin 6) (changed : Bool) :
    (c.placementTaken w changed).gist.Free port := by
  have hp : (c.withPlacement w).gist.Free port := { h with }
  have htaken : c.placementTaken w changed = match windowAt w with
    | .journal => (c.withPlacement w).lowerCapacity.journalChanged
    | .totals => if changed then (c.withPlacement w).totalsMoved else c.withPlacement w
    | .screens => if changed then (c.withPlacement w).scuMoved.slcMoved else c.withPlacement w
    | .print => if changed && (c.withPlacement w).windowEnabled .print then (c.withPlacement w).scanSlots else c.withPlacement w
    | .report => (c.withPlacement w).reportMoved
    | .broadcast => c.withPlacement w
    | .setup => c.withPlacement w := rfl
  rw [htaken]
  generalize c.withPlacement w = d at hp
  cases windowAt w with
  | journal =>
    refine Gist.Free.journalChanged ?_
    rw [Chip.lowerCapacity_eq]
    split
    · exact hp.writeBack _ _
    · exact hp
  | totals =>
    cases changed with
    | true => exact d.totalsMoved_reaches.keepsFree hp
    | false => exact hp
  | screens =>
    cases changed with
    | true =>
      have hg : d.scuMoved.slcMoved.gist = d.gist := d.scuMoved.slcMoved_gist.trans d.scuMoved_gist
      show d.scuMoved.slcMoved.gist.Free port
      rwa [hg]
    | false => exact hp
  | print =>
    dsimp only
    split
    · rwa [Chip.scanSlots_gist]
    · exact hp
  | report =>
    show d.reportMoved.gist.Free port
    rw [Chip.reportMoved_gist]
    exact { hp with }
  | broadcast => exact hp
  | setup => exact hp

/-- A setting taken leaves nothing in progress where nothing is (R21). -/
theorem Gist.Free.settingTaken {c : Chip} {port : List Tag} (h : c.gist.Free port) (m : List Host.Cell) (k : Setting) (w : Word) (subst : Bool) :
    (c.settingTaken m k w subst).gist.Free port := by
  have hword : (if w.toNat == c.setting k then c.withWord k w else (c.withWord k w).settingChanged k).gist.Free port := by
    split
    · exact h.withWord k w
    · rw [Chip.settingChanged_gist]
      exact h.withWord k w
  cases k with
  | ceiling p upper =>
    have ht := h.takeCeiling m p upper w subst
    show (ite _ _ _ : Chip).gist.Free port
    split
    · exact ht
    · rwa [Chip.settingChanged_gist]
  | placement i limit => exact (h.withWord _ w).placementTaken i _
  | jnlCapacity => exact (h.withWord _ w).journalChanged
  | _ => exact hword

/-- The report read index taken (R35). -/
theorem Chip.readIndexTaken_gist (c : Chip) (v : Nat) : (c.readIndexTaken v).gist = { c.gist with readIndex := v } := by
  unfold Chip.readIndexTaken
  dsimp only
  split
  · rw [Chip.push_gist _ _ _ _ _ (by simp) (by simp) (by simp) (by simp)]
    rfl
  · rfl

/-- An owner that acts on a word stored leaves nothing in progress where nothing is (R7, R9). -/
theorem Gist.Free.ownerAction {c : Chip} {port : List Tag} (h : c.gist.Free port) (m : List Host.Cell) (w : Window) (off : Nat) (v : Word)
    (subst : Bool) : (c.ownerAction m w off v subst).gist.Free port := by
  unfold Chip.ownerAction
  split
  · split
    · exact h.settingTaken m _ v subst
    · split
      · rw [Chip.readIndexTaken_gist]
        exact { h with }
      · exact h
  · split
    · split
      · rwa [Chip.keyReadIndexTaken_gist]
      · split
        · rwa [Chip.markDirty_gist]
        · exact h
    · exact h
  · split
    · exact h
    · exact h
  · split
    · split
      · exact h
      · exact h
    · exact h
  · exact h

/-- Free words drawn leave the gist. -/
theorem Chip.drawWords_gist (c : Chip) (k : Nat) : (c.drawWords k).2.gist = c.gist := by
  induction k generalizing c with
  | zero => rfl
  | succ n ih => exact (ih _).trans rfl

/-- A host access answered goes on, ends, or is held (R17). -/
theorem Chip.hostAnswered_oneHold {c : Chip} {port : List Tag} (h : c.gist.OneHold port) (m : List Host.Cell) (okay : Bool) (data : List Word) :
    (c.hostAnswered m okay data).gist.OneHold port := by
  have hfree {p : HostProg} {n : HostNext} (hp : c.ap.host = some p) (hw : p.phase = .waiting n) : c.gist.Free port := by
    refine h.free (fun x ⟨q, hq, hx⟩ => ?_) fun hl => ?_
    · cases hp.symm.trans hq
      exact nomatch hw.symm.trans hx
    · exact nomatch hw.symm.trans ((h.loading hl).2 p hp)
  unfold Chip.hostAnswered
  split
  · exact h
  · next p hp =>
    split
    · next len hw =>
      have hf := hfree hp hw
      split
      · exact (hf.answerHost true data).oneHold
      · have hdrawn : (c.drawWords len).2.gist.Free port := by rwa [Chip.drawWords_gist]
        exact (hdrawn.answerHost false _).oneHold
    · next hw => exact ((hfree hp hw).answerHost okay []).oneHold
    · next hw =>
      split
      · exact Chip.askOwner_oneHold (hfree hp hw) _ _ _ _ _ _
      · exact ((hfree hp hw).answerHost false []).oneHold
    · next hw =>
      split
      · exact Chip.advance_oneHold ((hfree hp hw).ownerAction _ _ _ _ _) _ _ _ _
      · exact ((hfree hp hw).answerHost false []).oneHold
    · exact h

end Sys2Proof.Machine
end

section
/-! PROOF. The end of LOADING, on the gist (O5, O17). -/

namespace Sys2Proof.Machine

/-! ### The release of the host -/

/-- The host is released when the unit is out of LOADING (R13, R29). -/
theorem Chip.releaseHost_oneHold {c : Chip} {port : List Tag} (h : c.gist.OneHold port) (hl : c.su.unitState ≠ .loading)
    (m : List Host.Cell) : (c.releaseHost m).gist.OneHold port := by
  have hreleased : (c.onAp fun a => { a with held := false }).gist.OneHold port := { h with loading := fun hc => absurd hc hl }
  unfold Chip.releaseHost
  dsimp only
  split
  · next p hp =>
    split
    · next hphase =>
      have hn : ∀ x, ¬ (c.onAp fun a => { a with held := false }).gist.holds x := fun x ⟨q, hq, hx⟩ => by
        cases hp.symm.trans hq
        rw [hx] at hphase
        exact absurd hphase (by simp)
      exact Chip.arrive_oneHold (hreleased.free hn hl) m _
    · exact hreleased
  · exact hreleased

/-! ### The parts of the end of LOADING -/

/-- In LOADING nothing is in progress, and no operands are read but of the requests served while REBUILDING. -/
structure Gist.Still (g : Gist) (port : List Tag) : Prop where
  posting : g.posting = false
  submission : g.submission = false
  request : g.request = none
  walk : g.walk = false
  send : g.send = false
  operands : ∀ code, g.present port (.operands code) → code ∈ [9, 10, 11]

/-- In LOADING the host is held for LOADING alone. -/
theorem Gist.OneHold.still {g : Gist} {port : List Tag} (h : g.OneHold port) (hl : g.unit = .loading) : g.Still port where
  posting := by
    by_contra hp
    obtain ⟨-, hr, -⟩ := h.posting (by simpa using hp)
    exact nomatch hl.symm.trans hr
  submission := by
    by_contra hs
    obtain ⟨n, x, p, hp, hx⟩ := h.submission (by simpa using hs)
    exact nomatch hx.symm.trans ((h.loading hl).2 p hp)
  request := by
    by_contra hr
    obtain ⟨code, p, hp, hx⟩ := h.request (Option.isSome_iff_ne_none.mpr hr)
    exact nomatch hx.symm.trans ((h.loading hl).2 p hp)
  walk := by
    by_contra hw
    exact nomatch hl.symm.trans (h.walk (by simpa using hw))
  send := by
    by_contra hs
    exact nomatch hl.symm.trans (h.send (by simpa using hs)).1
  operands code hp := (h.operands code hp).resolve_left fun hr => nomatch hl.symm.trans hr

/-- Accesses with quiet tags change of the gist what settings ask for alone. -/
theorem Chip.pushAll_asked (c : Chip) (u : Fin 9) (rs : List OwnReq) (h : ∀ r ∈ rs, r.tag.loud = false) :
    (c.pushAll u rs).gist = { c.gist with asked := settingsAsked (c.pushAll u rs).own } := by
  have hl : loudOf (vupd c.own u (· ++ rs)) = loudOf c.own := loudOf_append _ _ h
  show Gist.mk _ _ _ _ _ _ _ _ _ _ _ (loudOf (vupd c.own u (· ++ rs))) _ = _
  rw [hl]
  rfl

/-- The settings loaded change the image and what is asked of SU (R27). -/
theorem Chip.takeSettings_gist (c : Chip) (ws : List Word) : ∃ i q, (c.takeSettings ws).gist = { c.gist with image := i, asked := q } := by
  unfold Chip.takeSettings
  dsimp only
  have hback := (c.onSu fun u => { u with image := vofList 255 0 ((List.range 255).map (loadedValue ws)) }).pushAll_asked rSU
    (((List.range 255).filter fun i => wordAt ((List.range 255).map (loadedValue ws)) i != wordAt ws i).map
      fun i => ⟨.settingWords i 1, .plain, false⟩) fun r hr => by
        obtain ⟨i, -, rfl⟩ := List.mem_map.mp hr
        rfl
  split
  · exact ⟨_, _, hback⟩
  · rw [Chip.askSettingsCrc_gist, hback]
    exact ⟨_, _, rfl⟩

/-- So do the defaults (R28). -/
theorem Chip.defaultSettings_gist (c : Chip) : ∃ i q, c.defaultSettings.gist = { c.gist with image := i, asked := q } := by
  unfold Chip.defaultSettings
  dsimp only
  rw [Chip.askSettingsCrc_gist, Chip.pushAll_asked]
  · exact ⟨_, _, rfl⟩
  · intro r hr
    obtain ⟨k, -, rfl⟩ := List.mem_map.mp hr
    rfl

/-- The settings and the day record put in place (R27, R28). -/
theorem Chip.takeLoaded_gist (c : Chip) (o : StartOutcome) : ∃ i d q, (c.takeLoaded o).gist = { c.gist with image := i, day := d, asked := q } := by
  have hset : ∃ i q, (if o == .loaded then c.takeSettings c.su.load.settings else c.defaultSettings).gist =
      { c.gist with image := i, asked := q } := by
    split
    · exact c.takeSettings_gist _
    · exact c.defaultSettings_gist
  obtain ⟨i, q, hset⟩ := hset
  unfold Chip.takeLoaded
  dsimp only
  rw [Chip.writeStatus_gist]
  generalize (if o == .loaded then c.takeSettings c.su.load.settings else c.defaultSettings) = e at hset
  have hday (e : Chip) (d : DayRecord) : ((e.onCu fun cu => { cu with day := d }).onSu fun u => { u with outcome := some o }).gist =
      { e.gist with day := d.state } := rfl
  rw [hday, hset]
  exact ⟨i, _, q, rfl⟩

/-- The ring empty at an index, and its words written (R29). -/
def Chip.ringAt (c : Chip) (v : Nat) : Chip :=
  ((c.onSu fun u => { u with readIndex := v, writeIndex := v, overflow := false }).push rSU (.write (c.setupAddr 0x140) [wd v]) .silent).push
    rSU (.write (c.setupAddr 0x144) [0]) .silent

/-- The ring empty at a read index, which is written back as 0 when it is out of range (R29). -/
def Chip.ringFrom (c : Chip) (v : Nat) : Chip :=
  if 63 < v then (c.push rSU (.write (c.setupAddr 0x148) [0]) .silent).ringAt 0 else c.ringAt v

/-- The report ring is emptied at the read index read, or at a free one (R29, log 11). -/
theorem Chip.emptyRing_eq (c : Chip) : c.emptyRing = match c.su.load.readIndex with
    | some w => c.ringFrom w.toNat
    | none => c.draw.2.ringFrom c.draw.1.toNat := by
  have hfrom (q : Word × Chip) : (let v := q.1.toNat
      let c := q.2
      let c := if 63 < v then c.push rSU (.write (c.setupAddr 0x148) [0]) .silent else c
      let v := if 63 < v then 0 else v
      let c := c.onSu (fun u => { u with readIndex := v, writeIndex := v, overflow := false })
      (c.push rSU (.write (c.setupAddr 0x140) [wd v]) .silent).push rSU (.write (c.setupAddr 0x144) [0]) .silent) =
      q.2.ringFrom q.1.toNat := by
    unfold Chip.ringFrom
    dsimp only
    split <;> rfl
  unfold Chip.emptyRing
  cases c.su.load.readIndex with
  | some w => exact hfrom (w, c)
  | none => exact hfrom c.draw

/-- The ring's indexes. -/
theorem Chip.ringAt_gist (c : Chip) (v : Nat) : (c.ringAt v).gist = { c.gist with readIndex := v, writeIndex := v } := by
  unfold Chip.ringAt
  rw [Chip.push_gist _ _ _ _ _ (by simp) (by simp) (by simp) (by simp), Chip.push_gist _ _ _ _ _ (by simp) (by simp) (by simp) (by simp)]
  rfl

/-- The ring's indexes, from a read index. -/
theorem Chip.ringFrom_gist (c : Chip) (v : Nat) : ∃ n ≤ 63, (c.ringFrom v).gist = { c.gist with readIndex := n, writeIndex := n } := by
  unfold Chip.ringFrom
  split
  · refine ⟨0, by decide, ?_⟩
    rw [Chip.ringAt_gist, Chip.push_gist _ _ _ _ _ (by simp) (by simp) (by simp) (by simp)]
  · next hv => exact ⟨v, Nat.not_lt.mp hv, c.ringAt_gist v⟩

/-- The report ring emptied (R29). -/
theorem Chip.emptyRing_gist (c : Chip) : ∃ n ≤ 63, c.emptyRing.gist = { c.gist with readIndex := n, writeIndex := n } := by
  rw [Chip.emptyRing_eq]
  split
  · exact c.ringFrom_gist _
  · exact c.draw.2.ringFrom_gist _

/-- The window table taken (R29). -/
theorem Chip.takeTable_gist (c : Chip) : c.takeTable.gist = { c.gist with ap := c.takeTable.ap } := rfl

/-- The walk begins (R91). -/
theorem Chip.rebuildStart_gist (c : Chip) : c.rebuildStart.gist = { c.gist with walk := true } := by
  have hdamaged (c : Chip) (w : Walk) : (c.walkDamaged w).gist = { c.gist with walk := true } := by
    have hended (d : Chip) (w : Walk) : (d.walkEnds w).gist = { d.gist with walk := true } := rfl
    unfold Chip.walkDamaged
    dsimp only
    rw [hended, Chip.report_gist]
    rfl
  unfold Chip.rebuildStart
  dsimp only
  split
  · rfl
  · rw [hdamaged]
    rfl

/-- READY in NO_DAY, REBUILDING with a walk otherwise (R29). -/
theorem Chip.enterState_gist (c : Chip) (o : StartOutcome) : (c.enterState o).gist =
    if c.cu.day.state = .noDay then { c.gist with unit := .ready } else { c.gist with unit := .rebuilding, walk := true } := by
  unfold Chip.enterState
  by_cases h : c.cu.day.state = .noDay
  · rw [if_pos (beq_iff_eq.mpr h), if_pos h, Chip.juLoadedNoDay_gist, Chip.cuLoadedNoDay_gist]
    rfl
  · rw [if_neg (mt beq_iff_eq.mp h), if_neg h, Chip.rebuildStart_gist]
    rfl

/-- The result area written as NONE and the window table taken, before the unit state is entered (R29). -/
def Chip.loadedUp (c : Chip) (o : StartOutcome) : Chip :=
  ((((c.takeLoaded o).emptyRing).startReports o).push rSU (.write (((c.takeLoaded o).emptyRing.startReports o).setupAddr 0x120) [0, 0, 0, 0])
    .plain).takeTable

/-- The unit state is entered and asked for (R29). -/
def Chip.entered (c : Chip) (o : StartOutcome) : Chip :=
  (c.enterState o).push rSU (.write ((c.enterState o).setupAddr 0x008) [wd (c.enterState o).su.unitState.code]) .loadingState

/-- The end of LOADING, step by step (R27 to R29). -/
theorem Chip.endLoading_eq (c : Chip) : c.endLoading =
    ((c.loadedUp c.su.load.outcome).entered c.su.load.outcome).scuLoaded.slcLoaded.pruLoaded.callIfReady := rfl

/-- What precedes the unit state changes no more than the settings, the day and the table. -/
theorem Chip.loadedUp_gist (c : Chip) (o : StartOutcome) : ∃ i d q n, n ≤ 63 ∧ (c.loadedUp o).gist =
    { c.gist with ap := (c.loadedUp o).ap, image := i, day := d, asked := q, readIndex := n, writeIndex := n } := by
  obtain ⟨i, d, q, hload⟩ := c.takeLoaded_gist o
  obtain ⟨n, hn, hring⟩ := (c.takeLoaded o).emptyRing_gist
  refine ⟨i, d, q, n, hn, ?_⟩
  unfold Chip.loadedUp
  rw [Chip.takeTable_gist, Chip.push_gist _ _ _ _ _ (by simp) (by simp) (by simp) (by simp), Chip.startReports_gist, hring, hload]

/-- The end of LOADING leaves nothing in progress (R29). -/
theorem Chip.endLoading_free {c : Chip} {port : List Tag} (h : c.gist.Still port) : c.endLoading.gist.Free port := by
  generalize ho : c.su.load.outcome = o
  obtain ⟨i, d, q, n, -, hup⟩ := c.loadedUp_gist o
  rw [Chip.endLoading_eq, ho, Chip.callIfReady_gist, Chip.pruLoaded_gist, Chip.slcLoaded_gist, Chip.scuLoaded_gist]
  unfold Chip.entered
  rw [Chip.pushLoud_gist _ _ _ rfl rfl, Chip.enterState_gist, hup]
  have hoperands {g : Gist} (hg : g.loud = c.gist.loud) (code : Nat)
      (hp : { g with loud := vupd g.loud rSU (· ++ [Tag.loadingState]) }.present port (.operands code)) : code ∈ [9, 10, 11] := by
    refine h.operands code ?_
    obtain hc | hp := Gist.present_push hp
    · cases hc
    · unfold Gist.present at hp ⊢
      rwa [hg] at hp
  split
  · exact {
      posting := h.posting
      submission := h.submission
      request := h.request
      walk := fun hw => nomatch h.walk.symm.trans hw
      send := fun hs => nomatch h.send.symm.trans hs
      loaded := fun hl => nomatch hl
      operands := fun code hp => .inl rfl }
  · exact {
      posting := h.posting
      submission := h.submission
      request := h.request
      walk := fun _ => rfl
      send := fun hs => nomatch h.send.symm.trans hs
      loaded := fun hl => nomatch hl
      operands := fun code hp => .inr (hoperands rfl code hp) }

/-- The end of LOADING starts nothing (R27 to R29). -/
theorem Chip.loadingEnd_oneHold {c : Chip} {port : List Tag} (h : c.gist.OneHold port) : c.loadingEnd.gist.OneHold port := by
  unfold Chip.loadingEnd
  split
  · next hc =>
    have hl : c.su.unitState = .loading := by
      rw [Chip.loadingComplete, Bool.and_eq_true] at hc
      exact beq_iff_eq.mp hc.1
    exact (Chip.endLoading_free (h.still hl)).oneHold
  · exact h

end Sys2Proof.Machine
end

section
/-! PROOF. Every step keeps one hold at a time (O5). -/

namespace Sys2Proof.Machine

/-! ### The invariant on the state -/

/-- The tag of the own access at the port. -/
def PortUse.tags : PortUse → List Tag
  | .own _ _ tag _ => [tag]
  | _ => []

/-- A loud access under way or waiting is in the gist. -/
theorem State.mem_tags_iff (s : State) {tag : Tag} (h : tag.loud = true) : tag ∈ s.tags ↔ s.chip.gist.present s.arb.port.tags tag := by
  have htags : s.tags = s.arb.port.tags ++ s.chip.own.toList.flatMap (·.map (·.tag)) := by
    unfold State.tags
    cases s.arb.port <;> rfl
  have hwait : tag ∈ s.chip.own.toList.flatMap (·.map (·.tag)) ↔ ∃ u : Fin 9, tag ∈ (s.chip.gist.loud[u.val] : List Tag) := by
    have hget (u : Fin 9) : s.chip.gist.loud[u.val] = (((s.chip.own[u.val] : List OwnReq).map (·.tag)).filter Tag.loud) := vmap_get _ _ _ _
    rw [List.mem_flatMap]
    constructor
    · rintro ⟨q, hq, hm⟩
      obtain ⟨i, hi, rfl⟩ := Vector.mem_iff_getElem.mp (Vector.mem_toList_iff.mp hq)
      exact ⟨⟨i, hi⟩, by rw [hget]; exact List.mem_filter.mpr ⟨hm, h⟩⟩
    · rintro ⟨u, hu⟩
      rw [hget] at hu
      exact ⟨_, Vector.mem_toList_iff.mpr (Vector.getElem_mem u.isLt), (List.mem_filter.mp hu).1⟩
  rw [htags, List.mem_append, hwait]
  rfl

/-- The invariant is one of the gist and the port. -/
theorem State.oneHold_iff (s : State) : s.OneHold ↔ s.chip.gist.OneHold s.arb.port.tags := by
  have hsome {α : Type} {x : Option α} : x ≠ none ↔ x.isSome = true := Option.isSome_iff_ne_none.symm
  constructor
  · intro h
    exact {
      posting := fun hp => h.posting (hsome.mpr hp)
      submission := fun hs => h.submission (hsome.mpr hs)
      request := fun hr => h.request (hsome.mpr hr)
      walk := fun hw => h.walk (hsome.mpr hw)
      send := fun hs => h.send (hsome.mpr hs)
      loading := h.loading
      released := fun hp => h.released ((s.mem_tags_iff rfl).mpr hp)
      operands := fun code hp => h.operands code ((s.mem_tags_iff rfl).mpr hp) }
  · intro h
    exact {
      posting := fun hp => h.posting (hsome.mp hp)
      submission := fun hs => h.submission (hsome.mp hs)
      request := fun hr => h.request (hsome.mp hr)
      walk := fun hw => h.walk (hsome.mp hw)
      send := fun hs => h.send (hsome.mp hs)
      loading := h.loading
      released := fun hp => h.released ((s.mem_tags_iff rfl).mp hp)
      operands := fun code hp => h.operands code ((s.mem_tags_iff rfl).mp hp) }

/-- Fewer accesses under way or waiting keep it. -/
theorem Gist.OneHold.fewer {g : Gist} {port port' : List Tag} {loud : Vector (List Tag) 9} (h : g.OneHold port) (asked : List OwnReq)
    (hp : ∀ tag, tag.loud = true → { g with loud := loud, asked := asked }.present port' tag → g.present port tag) :
    { g with loud := loud, asked := asked }.OneHold port' := { h with
  released := fun hr => h.released (hp _ rfl hr)
  operands := fun code ho => h.operands code (hp _ rfl ho) }

/-! ### The store port -/

/-- The host access granted is the one that waited. -/
theorem State.grantHost_oneHold {s : State} (h : s.OneHold) {p : HostProg} (hp : s.chip.ap.host = some p) (hport : s.arb.port = .idle)
    (op : StoreOp) (w : Bool) : (s.grantHost p op w).OneHold := by
  rw [State.oneHold_iff] at h ⊢
  rw [hport] at h
  have hholds {x : HoldOp} : s.chip.gist.holds x → (s.chip.setHost { p with granted := true }).gist.holds x := fun ⟨q, hq, hx⟩ => by
    cases hp.symm.trans hq
    exact ⟨_, rfl, hx⟩
  exact { h with
    posting := fun hc => by
      obtain ⟨⟨x, hx⟩, hu, hd⟩ := h.posting hc
      exact ⟨⟨x, hholds hx⟩, hu, hd⟩
    submission := fun hc => by
      obtain ⟨n, x, hx⟩ := h.submission hc
      exact ⟨n, x, hholds hx⟩
    request := fun hc => by
      obtain ⟨code, hx⟩ := h.request hc
      exact ⟨code, hholds hx⟩
    loading := fun hl => by
      obtain ⟨hheld, hphase⟩ := h.loading hl
      refine ⟨hheld, fun q hq => ?_⟩
      cases hq
      exact hphase p hp }

/-- What waits has been asked for. -/
theorem Chip.mem_own_of_waiting {c : Chip} {u : Fin 9} {r : OwnReq} (h : r ∈ (c.waiting[u.val] : List OwnReq)) :
    r ∈ (c.own[u.val] : List OwnReq) := by
  by_cases hu : u = rCU
  · subst hu
    rw [Chip.waiting_cu] at h
    exact (List.dropWhile_sublist _).subset h
  · rwa [Chip.waiting_of_ne _ hu] at h

/-- The loud tags of a requester's accesses. -/
theorem mem_loudOf {own : Vector (List OwnReq) 9} {u : Fin 9} {tag : Tag} :
    tag ∈ ((loudOf own)[u.val] : List Tag) ↔ (∃ r ∈ (own[u.val] : List OwnReq), r.tag = tag) ∧ tag.loud = true := by
  unfold loudOf
  rw [vmap_get, List.mem_filter, List.mem_map]

/-- An own access granted was waiting. -/
theorem State.grantOwn_oneHold {s : State} (h : s.OneHold) (hport : s.arb.port = .idle) {u : Fin 9} {r : OwnReq}
    (hr : r ∈ (s.chip.waiting[u.val] : List OwnReq)) : (s.grantOwn u r).OneHold := by
  rw [State.oneHold_iff] at h ⊢
  rw [hport] at h
  let own := vupd s.chip.waiting u (·.drop 1)
  have hsub {v : Fin 9} {x : OwnReq} (hx : x ∈ (own[v.val] : List OwnReq)) : x ∈ (s.chip.own[v.val] : List OwnReq) := by
    refine Chip.mem_own_of_waiting ?_
    dsimp only [own] at hx
    rw [vupd_get] at hx
    split at hx
    · next hu =>
      obtain rfl : u = v := Fin.ext hu
      exact List.mem_of_mem_drop hx
    · exact hx
  have hgist : (s.grantOwn u r).chip.gist = { s.chip.gist with loud := loudOf own, asked := settingsAsked own } :=
    Chip.grantHook_gist _ _
  rw [hgist]
  refine h.fewer _ fun tag hloud hp => .inr ?_
  obtain hp | ⟨v, hv⟩ := hp
  · have htag : tag = r.tag := List.mem_singleton.mp hp
    exact ⟨u, mem_loudOf.mpr ⟨⟨r, Chip.mem_own_of_waiting hr, htag.symm⟩, hloud⟩⟩
  · obtain ⟨⟨x, hx, hxt⟩, -⟩ := mem_loudOf.mp hv
    exact ⟨v, mem_loudOf.mpr ⟨⟨x, hsub hx, hxt⟩, hloud⟩⟩

/-- A grant keeps one hold at a time. -/
theorem State.OneHold.grant {s : State} (h : s.OneHold) : s.grant.OneHold := by
  obtain hg | ⟨hport, p, op, w, hw, -, hg⟩ | ⟨hport, u, r, hw, hg⟩ := s.grant_cases <;> rw [hg]
  · exact h
  · refine State.grantHost_oneHold h ?_ hport op w
    unfold Chip.hostWaiting at hw
    split at hw
    · next q hq =>
      split at hw
      · cases hw
      · obtain ⟨op', -, he⟩ := Option.map_eq_some_iff.mp hw
        cases he
        exact hq
    · cases hw
  · obtain ⟨k, rest, -, hu, -⟩ := firstWaiting_eq_some hw
    exact State.grantOwn_oneHold h hport (hu ▸ List.mem_cons_self)

/-- After a host answer no own access is at the port. -/
theorem State.afterHost_tags (s : State) : s.afterHost.chip = s.chip ∧ s.afterHost.arb.port.tags = [] := by
  unfold State.afterHost
  split
  · split <;> exact ⟨rfl, rfl⟩
  · exact ⟨rfl, rfl⟩

/-- An answer keeps one hold at a time. -/
theorem State.OneHold.answer {s : State} (h : s.OneHold) (okay : Bool) : (s.answer okay).OneHold := by
  cases hport : s.arb.port with
  | idle =>
    have hidle : s.answer okay = s := by unfold State.answer; rw [hport]
    rwa [hidle]
  | host op =>
    rw [State.answer_of_host hport, State.oneHold_iff]
    rw [State.oneHold_iff, hport] at h
    obtain ⟨hchip, htags⟩ := State.afterHost_tags { s with
      mem := op.answered s.mem okay
      chip := s.chip.hostAnswered (op.answered s.mem okay) okay (op.data s.mem) }
    rw [hchip, htags]
    exact Chip.hostAnswered_oneHold h _ okay _
  | own u op tag fin =>
    rw [State.answer_of_own hport, State.oneHold_iff]
    rw [State.oneHold_iff, hport] at h
    have hacts : (s.chip.ownAnswered (op.answered s.mem okay) u tag okay op.addr (op.data s.mem)).gist.OneHold [tag] := by
      by_cases ht : tag = .loadingState
      · subst ht
        have hl : s.chip.su.unitState ≠ .loading := h.released (.inl (List.mem_singleton.mpr rfl))
        have htold : (if okay then s.chip else s.chip.report .storeError rSU.val 0x008).gist = s.chip.gist := by
          split
          · rfl
          · exact s.chip.report_gist _ _ _
        generalize htd : (if okay then s.chip else s.chip.report .storeError rSU.val 0x008) = d at htold
        have hd : s.chip.ownAnswered (op.answered s.mem okay) u .loadingState okay op.addr (op.data s.mem) = d.releaseHost (op.answered s.mem okay) := by
          rw [← htd]
          rfl
        rw [hd]
        exact Chip.releaseHost_oneHold (htold ▸ h) (fun hc => hl ((congrArg Gist.unit htold).symm.trans hc)) _
      · exact (Chip.ownAnswered_reaches _ _ _ _ _ _ _ ht).keeps h
    have hfin : (if fin then (s.chip.ownAnswered (op.answered s.mem okay) u tag okay op.addr (op.data s.mem)).requestDone
        else s.chip.ownAnswered (op.answered s.mem okay) u tag okay op.addr (op.data s.mem)).gist.OneHold [tag] := by
      split
      · rwa [Chip.requestDone_gist]
      · exact hacts
    exact hfin.fewer _ fun _ _ hp => hp.imp (fun hn => absurd hn List.not_mem_nil) id

/-! ### Every command -/

/-- A command's function of the store and the part keeps one hold at a time. -/
def KeepsHold (f : List Host.Cell → Chip → Chip) : Prop :=
  ∀ (m : List Host.Cell) (c : Chip) (port : List Tag), c.gist.OneHold port → (f m c).gist.OneHold port

/-- A function that moves the gist on keeps it. -/
theorem keepsHold_of_reaches {f : Chip → Chip} (h : ∀ c : Chip, c.gist.Reaches (f c).gist) : KeepsHold fun _ => f :=
  fun _ c _ hc => (h c).keeps hc

/-- A function that leaves the gist keeps it. -/
theorem keepsHold_of_gist {f : Chip → Chip} (h : ∀ c : Chip, (f c).gist = c.gist) : KeepsHold fun _ => f :=
  keepsHold_of_reaches fun (c : Chip) => .of_eq (h c)

/-- Every command but those of the store port keeps one hold at a time, whatever the store and the part: a write of a window's word
is a host access, the ends of a send, a posting and a rebuild move the gist on, and the rest leave it. -/
theorem exec_keepsHold (i : Instr) (hi : portCommand i = false) :
    ∃ f : List Host.Cell → Chip → Chip, (∀ s, exec i s = .next (s.host f)) ∧ KeepsHold f := by
  have writes {w : Window} {addr : Chip → Nat} {v : Word} {e : BitVec 4} : KeepsHold fun m c => c.writeIn m w (addr c) v e :=
    fun m c _ h => Chip.writeIn_oneHold h m w (addr c) v e
  cases i
  case deviceReset | arbiterGrant | storeAnswer => cases hi
  case loadingEnd => exact ⟨fun _ => Chip.loadingEnd, fun _ => rfl, fun _ _ _ h => Chip.loadingEnd_oneHold h⟩
  case hostWrite access => exact ⟨fun m c => c.hostAccess m access, fun _ => rfl, fun m _ _ h => Chip.hostAccess_oneHold h m access⟩
  case settingWrite | placementWrite | jnlCapacityWrite | ceilingWrite | lineSettingWrite | idleBlankWrite |
    capabilitySettingWrite | formatSettingWrite | prnPresentWrite | autoRestartWrite | feedSettingWrite |
    reportReadIndexWrite | closeDay | startSend | clearDay | linkReset | printerClear | printerRestart | printerHalt | eject |
    screenMode | screenRefresh | lineReset | drawerRelease | commit | screenRowWrite | masterRowWrite | keyReadIndexWrite |
    printSlotIdleWrite | submit | badRequest => exact ⟨_, fun _ => rfl, writes⟩
  case applyRecord => exact ⟨fun _ c => c.applyPosted, fun _ => rfl, keepsHold_of_reaches fun c => c.applyPosted_reaches⟩
  case rebuildEnd => exact ⟨fun _ c => c.rebuildEnd, fun _ => rfl, keepsHold_of_reaches fun c => c.rebuildEnd_reaches⟩
  case invalidFrame bytes => exact ⟨fun _ c => c.hoBytes bytes, fun _ => rfl, keepsHold_of_reaches fun c => c.hoBytes_reaches _⟩
  case transmitterFree => exact ⟨fun _ c => c.transmitterFree, fun _ => rfl, keepsHold_of_reaches fun c => c.transmitterFree_reaches⟩
  case holdTimerExpiry => exact ⟨fun _ c => c.holdTimerExpiry, fun _ => rfl, keepsHold_of_reaches fun c => c.holdTimerExpiry_reaches⟩
  case resumeTimerExpiry => exact ⟨fun _ c => c.resumeTimerExpiry, fun _ => rfl, keepsHold_of_reaches fun c => c.resumeTimerExpiry_reaches⟩
  case abort reason => exact ⟨fun _ c => c.hoAbort, fun _ => rfl, keepsHold_of_reaches fun c => c.hoAbort_reaches⟩
  case accepted batch => exact ⟨fun _ c => c.hoAccepted batch.toNat, fun _ => rfl, keepsHold_of_reaches fun c => c.hoAccepted_reaches _⟩
  case rejected reason => exact ⟨fun _ c => c.hoRejected, fun _ => rfl, keepsHold_of_reaches fun c => c.hoRejected_reaches⟩
  case verdictTimerExpiry => exact ⟨fun _ c => c.verdictTimerExpiry, fun _ => rfl, keepsHold_of_reaches fun c => c.verdictTimerExpiry_reaches⟩
  case markDamaged | printStateStamp | rebuildWalkStep | reportWrite | fanOutStart | sweepStart | statusRowRender |
    flashToggle | idleTimerExpiry | lineTurn | frameSent | terminalAck | terminalNak | terminalIdent | damagedAnswer |
    answerPauseTimeout | replyTimeout | pollIntervalExpiry | attachAttemptDue | openLongExpiry | releasePulseEnd |
    bookInserted | bookRemoved | tofEdge | requestTake | encoderEdge | targetMatch | strikeCompose | headAnswer | headTimeout |
    travelLimit | stallTimeout | coverActive | ovcActive | causeInputInactive | periodBoundary | deadBandExpiry |
    carrierChange | receiveClockLoss | helloTimerExpiry | hello | helloAck | keepalive | keepaliveTimerExpiry |
    silenceTimerExpiry | ack | nak | ackTimerExpiry | hold | receiveClockReturn | lineGapExpiry | strikeMessageSent |
    highSideTurnOff => exact ⟨fun _ => _, fun _ => rfl, keepsHold_of_gist fun c => by simp⟩

/-- What a grant and an answer keep, settling keeps. -/
theorem State.OneHold.settle {s : State} (h : s.OneHold) : s.settle.OneHold :=
  State.settle_keeps (fun _ hs => hs.grant.answer true) h

/-- A command of the part keeps one hold at a time when its function does. -/
theorem State.OneHold.host {s : State} (h : s.OneHold) {f : List Host.Cell → Chip → Chip} (hf : KeepsHold f) : (s.host f).OneHold := by
  have hs := h.settle
  rw [State.oneHold_iff] at hs
  exact State.OneHold.settle (s := s.settle.onChip (f s.settle.mem)) ((State.oneHold_iff _).mpr (hf _ _ _ hs))

/-- Right after device reset the accesses that wait are those of LOADING, with quiet tags (R26). -/
theorem loadingAccesses_quiet {pins : Pins} {free : Nat} {u : Fin 9} {r : OwnReq}
    (h : r ∈ ((Chip.afterReset pins free).own[u.val] : List OwnReq)) : r.tag.loud = false := by
  have hown : (Chip.afterReset pins free).own = vput (Vector.replicate 9 []) 8 (loadingAccesses (pins.setupSel.val * 4096 * 4096)) := rfl
  rw [hown, vput_get] at h
  split at h
  · simp only [loadingAccesses, List.mem_append, List.mem_singleton, List.mem_map] at h
    obtain ((rfl | ⟨k, -, rfl⟩) | ⟨k, -, rfl⟩) | rfl := h <;> rfl
  · rw [Vector.getElem_replicate] at h
    cases h

/-- Right after device reset, whatever the store, the pins and the free values. -/
theorem State.OneHold.deviceReset (s : State) (sel : Fin 16) : (s.deviceReset sel).OneHold := by
  have hnone {pins : Pins} {free : Nat} {tag : Tag} : ¬ (Chip.afterReset pins free).gist.present [] tag := by
    rintro (h | ⟨u, h⟩)
    · exact List.not_mem_nil h
    · obtain ⟨⟨r, hr, rfl⟩, hloud⟩ := mem_loudOf.mp h
      rw [loadingAccesses_quiet hr] at hloud
      cases hloud
  rw [State.oneHold_iff]
  exact {
    posting := fun h => nomatch h
    submission := fun h => nomatch h
    request := fun h => nomatch h
    walk := fun h => nomatch h
    send := fun h => nomatch h
    loading := fun _ => ⟨rfl, fun p hp => nomatch hp⟩
    released := fun h => absurd h hnone
    operands := fun code h => absurd h hnone }

/-- Every command keeps one hold at a time. -/
theorem State.OneHold.exec {s t : State} (h : s.OneHold) (i : Instr) (ht : exec i s = .next t) : t.OneHold := by
  by_cases hi : portCommand i = false
  · obtain ⟨f, hf, hkeeps⟩ := exec_keepsHold i hi
    rw [hf] at ht
    cases ht
    exact h.host hkeeps
  · cases i
    case deviceReset sel =>
      cases ht
      exact (State.OneHold.deviceReset s sel).settle
    case arbiterGrant =>
      cases ht
      exact State.OneHold.grant (s := s.stall) { h with }
    case storeAnswer okay =>
      cases ht
      exact State.OneHold.answer (s := s.stall) { h with } okay
    all_goals exact absurd rfl hi

/-- Settles O5: each operation is started by the one host access that is held for it, and the moves keep what it needs of the
state. -/
theorem stepKeepsOneHold : Obligations.StepKeepsOneHold := by
  intro s t h ht
  unfold step at ht
  split at ht
  · next i rest _ => exact State.OneHold.exec (s := { s with pending := rest }) { h with } i ht
  · cases ht
    exact h.host (keepsHold_of_gist Chip.tick_gist)

end Sys2Proof.Machine
end

section
/-! PROOF. What the units do at the end of LOADING adds to SU's accesses and reports (O17). -/

namespace Sys2Proof.Machine

/-! ### Adding -/

/-- SU has no more than reports, and accesses, added; JU's next number stands. -/
structure Chip.Adds (c d : Chip) : Prop where
  su : ∃ more flag, d.su = { c.su with reports := c.su.reports ++ more, overflow := flag }
  own : ∃ more, d.own[rSU.val] = c.own[rSU.val] ++ more
  next : d.ju.nextSeq = c.ju.nextSeq

/-- What leaves the three adds nothing. -/
theorem Chip.Adds.of_eq {c d : Chip} (hs : d.su = c.su) (ho : d.own[rSU.val] = c.own[rSU.val]) (hj : d.ju.nextSeq = c.ju.nextSeq) : c.Adds d where
  su := ⟨[], c.su.overflow, by rw [hs, List.append_nil]⟩
  own := ⟨[], by rw [ho, List.append_nil]⟩
  next := hj

theorem Chip.Adds.refl (c : Chip) : c.Adds c := .of_eq rfl rfl rfl

theorem Chip.Adds.trans {c d e : Chip} (h : c.Adds d) (h' : d.Adds e) : c.Adds e := by
  obtain ⟨⟨r, f, hs⟩, ⟨m, ho⟩, hj⟩ := h
  obtain ⟨⟨r', f', hs'⟩, ⟨m', ho'⟩, hj'⟩ := h'
  exact ⟨⟨r ++ r', f', by rw [hs', hs, ← List.append_assoc]⟩, ⟨m ++ m', by rw [ho', ho, List.append_assoc]⟩, hj'.trans hj⟩

/-- Steps of a list that add, add together. -/
theorem Chip.Adds.foldl {α : Type} {f : Chip → α → Chip} (h : ∀ (c : Chip) x, c.Adds (f c x)) (l : List α) (c : Chip) : c.Adds (l.foldl f c) := by
  induction l generalizing c with
  | nil => exact .refl c
  | cons x rest ih => exact (h c x).trans (ih _)

/-- An access that is asked for. -/
theorem Chip.pushAll_adds (c : Chip) (u : Fin 9) (rs : List OwnReq) : c.Adds (c.pushAll u rs) where
  su := (Chip.Adds.refl c).su
  own := by
    show ∃ more, (vupd c.own u (· ++ rs))[rSU.val] = _
    rw [vupd_get]
    split
    · next hu => exact ⟨rs, by rw [show u = rSU from Fin.ext hu]⟩
    · exact ⟨[], (List.append_nil _).symm⟩
  next := rfl

/-- One access that is asked for. -/
theorem Chip.push_adds (c : Chip) (u : Fin 9) (op : OwnOp) (tag : Tag) (fin : Bool) : c.Adds (c.push u op tag fin) :=
  c.pushAll_adds u [⟨op, tag, fin⟩]

/-- The overflow flag set. -/
theorem Chip.setOverflow_adds (c : Chip) : c.Adds c.setOverflow := by
  unfold Chip.setOverflow
  split
  · refine Chip.Adds.trans (d := { c with su := { c.su with overflow := true } }) ⟨⟨[], true, ?_⟩, ⟨[], ?_⟩, rfl⟩ (Chip.push_adds _ _ _ _ _)
    · rw [List.append_nil]
    · rw [List.append_nil]
  · exact .refl c

/-- A report, made or dropped (R33). -/
theorem Chip.report_adds (c : Chip) (k : ReportKind) (index detail : Nat) : c.Adds (c.report k index detail) := by
  unfold Chip.report
  split
  · exact ⟨⟨[⟨k, index, detail, c.su.ms⟩], c.su.overflow, rfl⟩, ⟨[], (List.append_nil _).symm⟩, rfl⟩
  · exact c.setOverflow_adds

/-! ### The printers -/

theorem Chip.onFeed_adds (c : Chip) (n : Fin 4) (f : Feed → Feed) : c.Adds (c.onFeed n f) := .of_eq rfl rfl rfl

theorem Chip.onPrinter_adds (c : Chip) (n : Fin 4) (f : Printer → Printer) : c.Adds (c.onPrinter n f) := .of_eq rfl rfl rfl

theorem Chip.setMode_adds (c : Chip) (n : Fin 4) (m : BridgeMode) : c.Adds (c.setMode n m) := .of_eq rfl rfl rfl

theorem Chip.endHead_adds (c : Chip) (n : Fin 4) : c.Adds (c.endHead n) := c.onPrinter_adds n _

theorem Chip.startAlign_adds (c : Chip) (n : Fin 4) : c.Adds (c.startAlign n) := .of_eq rfl rfl rfl

theorem Chip.writeSlot_adds (c : Chip) (n : Fin 4) (x : Fin 8) (st : SlotStatus) (tag : Tag) : c.Adds (c.writeSlot n x st tag) :=
  (Chip.onPrinter_adds c n _).trans (Chip.push_adds _ _ _ _ _)

theorem Chip.askServiceStamp_adds (c : Chip) (n : Fin 4) (v : Service) (ps : PrintState) : c.Adds (c.askServiceStamp n v ps) :=
  .of_eq rfl rfl rfl

theorem Chip.reportHalted_adds (c : Chip) (n : Fin 4) : c.Adds (c.reportHalted n) := c.report_adds _ _ _

theorem Chip.addCause_adds (c : Chip) (n : Fin 4) (cause : Cause) : c.Adds (c.addCause n cause) := by
  unfold Chip.addCause
  dsimp only
  split
  · exact .refl c
  · exact (c.onFeed_adds n _).trans (Chip.reportHalted_adds _ n)

/-- A cause added or not. -/
theorem Chip.addCause_adds_if (c : Chip) (b : Bool) (n : Fin 4) (cause : Cause) : c.Adds (if b then c.addCause n cause else c) := by
  split
  · exact c.addCause_adds n cause
  · exact .refl c

theorem Chip.judgeHalted_adds (c : Chip) (n : Fin 4) : c.Adds (c.judgeHalted n) :=
  (c.addCause_adds_if _ n .cover).trans (Chip.addCause_adds_if _ _ n .ovc)

theorem Chip.addDue_adds (c : Chip) (n : Fin 4) (jam head : Bool) : c.Adds (c.addDue n jam head) :=
  (c.addCause_adds_if _ n .jam).trans (Chip.addCause_adds_if _ _ n .head)

theorem Chip.shutService_adds (c : Chip) (n : Fin 4) : c.Adds (c.shutService n) := by
  unfold Chip.shutService
  split
  · exact .refl c
  · split
    · exact (c.onPrinter_adds n _).trans (Chip.writeSlot_adds _ _ _ _ _)
    · split
      · exact .refl c
      · exact c.askServiceStamp_adds _ _ _

theorem Chip.shutdown_adds (c : Chip) (n : Fin 4) (cause : Cause) : c.Adds (c.shutdown n cause) :=
  (c.setMode_adds n .safe).trans <| (Chip.onFeed_adds _ n _).trans <| (Chip.onPrinter_adds _ n _).trans <|
    (Chip.reportHalted_adds _ n).trans <| (Chip.endHead_adds _ n).trans <| (Chip.shutService_adds _ n).trans <|
      (Chip.judgeHalted_adds _ n).trans (Chip.addDue_adds _ n _ _)

theorem Chip.cause_adds (c : Chip) (n : Fin 4) (cause : Cause) : c.Adds (c.cause n cause) := by
  unfold Chip.cause
  split
  · exact c.addCause_adds n cause
  · exact c.shutdown_adds n cause

/-- A cause judged or not. -/
theorem Chip.cause_adds_if (c : Chip) (b : Bool) (n : Fin 4) (cause : Cause) : c.Adds (if b then c.cause n cause else c) := by
  split
  · exact c.cause_adds n cause
  · exact .refl c

theorem Chip.judgeCauses_adds (c : Chip) (n : Fin 4) : c.Adds (c.judgeCauses n) := by
  unfold Chip.judgeCauses
  split
  · exact (c.cause_adds_if _ n .cover).trans (Chip.cause_adds_if _ _ n .ovc)
  · exact .refl c

theorem Chip.alignNew_adds (c : Chip) (n : Fin 4) : c.Adds (c.alignNew n) :=
  (c.onPrinter_adds n _).trans <| (Chip.startAlign_adds _ n).trans (Chip.report_adds _ _ _ _)

theorem Chip.startPrinters_adds (c : Chip) : c.Adds c.startPrinters := by
  have hstep (c : Chip) (n : Fin 4) : c.Adds (if (c.printer n).state == .empty && c.bookIn n && c.prnOn n .present then c.alignNew n else c) := by
    split
    · exact c.alignNew_adds n
    · exact .refl c
  have hdone : c.Adds { c with pru := { c.pru with startUp := false } } := .of_eq rfl rfl rfl
  exact hdone.trans (.foldl hstep _ _)

theorem Chip.scanSlots_adds (c : Chip) : c.Adds c.scanSlots :=
  Chip.Adds.trans (d := { c with pru := { c.pru with scanning := c.pru.scanning + 4 } }) (.of_eq rfl rfl rfl) (Chip.pushAll_adds _ _ _)

theorem Chip.pruLoaded_adds (c : Chip) : c.Adds c.pruLoaded := by
  have hjudged : c.Adds c.judgeAllCauses := .foldl (fun c n => c.judgeCauses_adds n) _ _
  have hloaded (d : Chip) : d.Adds (if d.windowEnabled .print then ({ d with pru := { d.pru with startUp := true } }).scanSlots
      else d.startPrinters) := by
    have hstart : d.Adds { d with pru := { d.pru with startUp := true } } := .of_eq rfl rfl rfl
    split
    · exact hstart.trans (Chip.scanSlots_adds _)
    · exact d.startPrinters_adds
  exact hjudged.trans (hloaded _)

/-! ### The screens and their lines -/

theorem Chip.requestDone_adds (c : Chip) : c.Adds c.requestDone := by
  unfold Chip.requestDone Chip.finishRequest
  split
  · exact .refl c
  · exact c.push_adds _ _ _ _

theorem Chip.scuBegin_adds (c : Chip) (e : ScuWork) (rest : List ScuWork) : c.Adds (c.scuBegin e rest) := .of_eq rfl rfl rfl

theorem Chip.onFan_adds (c : Chip) (f : FanOut → FanOut) : c.Adds (c.onFan f) := .of_eq rfl rfl rfl

theorem Chip.scuTake_adds (c : Chip) (work : List ScuWork) : c.Adds (c.scuTake work) := by
  induction work generalizing c with
  | nil => exact .of_eq rfl rfl rfl
  | cons e rest ih =>
    cases e with
    | status p => exact .of_eq rfl rfl rfl
    | count p =>
      unfold Chip.scuTake
      split
      · exact (c.scuBegin_adds _ _).trans (Chip.push_adds _ _ _ _ _)
      · exact ih c
    | mode p fin =>
      unfold Chip.scuTake
      split
      · exact (c.scuBegin_adds _ _).trans (Chip.push_adds _ _ _ _ _)
      · split
        · exact c.requestDone_adds.trans (ih _)
        · exact ih c
    | fanRead => exact (c.scuBegin_adds _ _).trans (Chip.pushAll_adds _ _ _)
    | fanWrite p =>
      unfold Chip.scuTake
      split
      · exact (c.scuBegin_adds _ _).trans ((Chip.onFan_adds _ _).trans (Chip.pushAll_adds _ _ _))
      · exact (c.onFan_adds _).trans (ih _)

theorem Chip.scuPump_adds (c : Chip) : c.Adds c.scuPump := by
  unfold Chip.scuPump
  split
  · exact .refl c
  · exact c.scuTake_adds _

theorem Chip.addWork_adds (c : Chip) (e : ScuWork) : c.Adds (c.addWork e) :=
  Chip.Adds.trans (d := { c with scu := { c.scu with work := c.scu.work ++ [e] } }) (.of_eq rfl rfl rfl) (Chip.scuPump_adds _)

theorem Chip.judgeFlash_adds (c : Chip) (p : Fin 12) : c.Adds (c.judgeFlash p) :=
  .of_eq (c.judgeFlash_su p) (congrArg (fun v : Vector (List OwnReq) 9 => v[rSU.val]) (c.judgeFlash_own p))
    (congrArg JuState.nextSeq (c.judgeFlash_ju p))

theorem Chip.statusEvent_adds (c : Chip) (p : Fin 12) : c.Adds (c.statusEvent p) := by
  have hadd (d : Chip) : d.Adds (if d.scu.work.contains (.status p) then d else d.addWork (.status p)) := by
    split
    · exact .refl d
    · exact d.addWork_adds _
  exact (c.judgeFlash_adds p).trans (hadd _)

theorem Chip.statusEventAll_adds (c : Chip) : c.Adds c.statusEventAll := .foldl (fun c p => c.statusEvent_adds p) _ _

theorem Chip.scuLoaded_adds (c : Chip) : c.Adds c.scuLoaded := by
  have hstep (c : Chip) (p : Fin 12) : c.Adds (if c.screenPresent p then (c.addWork (.count p)).addWork (.mode p false) else c) := by
    split
    · exact (c.addWork_adds _).trans (Chip.addWork_adds _ _)
    · exact .refl c
  exact Chip.Adds.trans (.foldl hstep _ _) (Chip.statusEventAll_adds _)

theorem Chip.askKeyInit_adds (c : Chip) (p : Fin 12) : c.Adds (c.askKeyInit p) := by
  unfold Chip.askKeyInit
  split
  · exact Chip.Adds.trans (d := c.onLine (lineOf p) fun ln => { ln with initLeft := ln.initLeft + 1 }) (.of_eq rfl rfl rfl)
      (Chip.push_adds _ _ _ _ _)
  · exact .refl c

theorem Chip.slcLoaded_adds (c : Chip) : c.Adds c.slcLoaded := by
  have hline (d : Chip) (l : Fin 3) :
      d.Adds (d.onLine l fun ln => { ln with rate := d.setting (.lineRate l), gap := d.setting (.lineGap l) }) := .of_eq rfl rfl rfl
  have hlines := Chip.Adds.foldl hline screenLines c
  exact hlines.trans (.foldl (fun c p => c.askKeyInit_adds p) _ _)

/-- The units at the end of LOADING (R117, R134, R150, R194). -/
theorem Chip.unitsLoaded_adds (c : Chip) : c.Adds c.scuLoaded.slcLoaded.pruLoaded.callIfReady :=
  c.scuLoaded_adds.trans <| (Chip.slcLoaded_adds _).trans <| (Chip.pruLoaded_adds _).trans <|
    .of_eq (Chip.callIfReady_su _) (congrArg (fun v : Vector (List OwnReq) 9 => v[rSU.val]) (Chip.callIfReady_own _))
      (congrArg JuState.nextSeq (Chip.callIfReady_ju _))

end Sys2Proof.Machine
end

section
/-! PROOF. The end of LOADING: the values it leaves (O17). -/

namespace Sys2Proof.Machine

/-! ### The outcome -/

/-- A day state code names a state up to 4 (Table 12-2). -/
theorem dayStateOfCode_isNone (n : Nat) : (dayStateOfCode n).isNone = true ↔ 4 < n := by
  unfold dayStateOfCode
  split <;> simp_all
  omega

/-- The state a code names has that code. -/
theorem DayState.code_of_named {n : Nat} {st : DayState} (h : dayStateOfCode n = some st) : st.code = n := by
  unfold dayStateOfCode at h
  split at h <;> cases h <;> rfl

/-- The start-up outcome, by the first case that applies (R27). -/
theorem LoadProg.outcome_eq (l : LoadProg) : l.outcome = if l.failed = true then .defaultedRead
    else if crc16 (wordsBytes (l.settings.take 255)) ≠ field (wordAt l.settings 255) 0 16 then .defaultedSettings
    else if crc16 (wordsBytes (l.day.take 31)) ≠ field (wordAt l.day 31) 0 16 ∨ 4 < (wordAt l.day 0).toNat then .defaultedDay
    else .loaded := by
  unfold LoadProg.outcome
  simp only [bne_iff_ne, Bool.or_eq_true, dayStateOfCode_isNone]

/-- A day record that counts names a state (R27). -/
theorem LoadProg.day_of_loaded {l : LoadProg} (h : l.outcome = .loaded) : ∃ st, dayStateOfCode (wordAt l.day 0).toNat = some st := by
  rw [LoadProg.outcome_eq] at h
  split at h
  · cases h
  · split at h
    · cases h
    · split at h
      · cases h
      · next hd =>
        rw [not_or] at hd
        refine Option.isSome_iff_exists.mp (by_contra fun hn => hd.2 ((dayStateOfCode_isNone _).mp ?_))
        simpa using hn

/-! ### The settings -/

/-- The image as loaded (R27). -/
theorem vofList_map_range {α : Type} {n : Nat} (d : α) (f : Nat → α) (i : Nat) (h : i < n) :
    (vofList n d ((List.range n).map f))[i] = f i := by
  rw [vofList_get _ _ _ _ h, List.getD_eq_getElem _ _ (by simpa using h), List.getElem_map, List.getElem_range]

/-- A setting of one word as loaded is its word brought into range (R27). -/
theorem loadedValue_setting (ws : List Word) {k : Setting} (hj : k ≠ .jnlCapacity) (hc : ∀ p u, k ≠ .ceiling p u) :
    (loadedValue ws k.index).toNat = k.clamp (wordAt ws k.index).toNat := by
  have hv : loadedValue ws k.index = wd (k.clamp (wordAt ws k.index).toNat) := by
    unfold loadedValue
    rw [settingAt_index]
    cases k with
    | jnlCapacity => exact absurd rfl hj
    | ceiling p u => exact absurd rfl (hc p u)
    | _ => rfl
  rw [hv, toNat_wd, wrapAddr, Nat.mod_eq_of_lt (k.clamp_lt _ (BitVec.isLt _))]

/-- The capacity as loaded (R23, R27). -/
theorem loadedValue_capacity (ws : List Word) : (loadedValue ws Setting.jnlCapacity.index).toNat =
    clampCapacity (min (wordAt ws (Setting.placement 0 false).index).toNat 0xFFFFF) (min (wordAt ws (Setting.placement 0 true).index).toNat 0xFFFFF)
      (wordAt ws Setting.jnlCapacity.index).toNat := by
  have hmin (v : Nat) : clampTo 0 0xFFFFF v = min v 0xFFFFF := by
    unfold clampTo
    (repeat' split) <;> omega
  have hv : loadedValue ws Setting.jnlCapacity.index =
      wd (clampCapacity (clampTo 0 0xFFFFF (wordAt ws (Setting.placement 0 false).index).toNat)
        (clampTo 0 0xFFFFF (wordAt ws (Setting.placement 0 true).index).toNat) (wordAt ws Setting.jnlCapacity.index).toNat) := rfl
  rw [hv, hmin, hmin, toNat_wd, wrapAddr, Nat.mod_eq_of_lt (clampCapacity_lt _ _ _)]

/-- A ceiling as loaded, its two halves together (R23, R27). -/
theorem loadedValue_ceiling (ws : List Word) (p : Fin 12) :
    nat64 (loadedValue ws (Setting.ceiling p false).index) (loadedValue ws (Setting.ceiling p true).index) =
      min ((wordAt ws (Setting.ceiling p false).index).toNat + 4294967296 * (wordAt ws (Setting.ceiling p true).index).toNat) 999999999999 := by
  have hv (upper : Bool) : loadedValue ws (Setting.ceiling p upper).index =
      wd (if upper then clampCeiling ((wordAt ws (Setting.ceiling p false).index).toNat +
          Config.wordModulus * (wordAt ws (Setting.ceiling p true).index).toNat) / Config.wordModulus
        else clampCeiling ((wordAt ws (Setting.ceiling p false).index).toNat +
          Config.wordModulus * (wordAt ws (Setting.ceiling p true).index).toNat)) := by
    unfold loadedValue
    rw [settingAt_index]
  have hclamp (n : Nat) : clampCeiling n = min n 999999999999 := by
    exact (min_def _ _).symm
  rw [hv, hv, hclamp]
  simp only [nat64, toNat_wd, wrapAddr, Config.wordModulus, Bool.false_eq_true, if_false, if_true]
  omega

/-- A word that is no setting's is loaded as it is. -/
theorem loadedValue_unassigned (ws : List Word) {i : Nat} (h : settingAt i = none) : loadedValue ws i = wordAt ws i := by
  unfold loadedValue
  rw [h]

/-! ### The parts of the end of LOADING -/

/-- SU's list of accesses has grown at most. -/
def Chip.Grows (c d : Chip) : Prop := ∃ more, d.own[rSU.val] = c.own[rSU.val] ++ more

theorem Chip.Grows.trans {c d e : Chip} (h : c.Grows d) (h' : d.Grows e) : c.Grows e := by
  obtain ⟨m, hm⟩ := h
  obtain ⟨m', hm'⟩ := h'
  exact ⟨m ++ m', by rw [hm', hm, List.append_assoc]⟩

/-- What was asked for is. -/
theorem Chip.Grows.mem {c d : Chip} (h : c.Grows d) {r : OwnReq} (hr : r ∈ (c.own[rSU.val] : List OwnReq)) :
    r ∈ (d.own[rSU.val] : List OwnReq) := by
  obtain ⟨more, hm⟩ := h
  rw [hm]
  exact List.mem_append_left _ hr

/-- An access just asked for is. -/
theorem Chip.mem_push (c : Chip) (op : OwnOp) (tag : Tag) : ⟨op, tag, false⟩ ∈ ((c.push rSU op tag).own[rSU.val] : List OwnReq) := by
  show _ ∈ ((vupd c.own rSU (· ++ [⟨op, tag, false⟩]))[rSU.val] : List OwnReq)
  rw [vupd_get_same]
  exact List.mem_append_right _ (List.mem_singleton.mpr rfl)

/-- So are several. -/
theorem Chip.mem_pushAll (c : Chip) {rs : List OwnReq} {r : OwnReq} (h : r ∈ rs) : r ∈ ((c.pushAll rSU rs).own[rSU.val] : List OwnReq) := by
  show _ ∈ ((vupd c.own rSU (· ++ rs))[rSU.val] : List OwnReq)
  rw [vupd_get_same]
  exact List.mem_append_right _ h

/-- The settings words loaded, brought into range (R27). -/
def loadedImage (ws : List Word) : Vector Word 255 := vofList 255 0 ((List.range 255).map (loadedValue ws))

theorem loadedImage_get (ws : List Word) (i : Nat) (h : i < 255) : (loadedImage ws)[i] = loadedValue ws i := vofList_map_range 0 _ i h

/-- The settings put in force change the image alone, and what is asked for (R27). -/
theorem Chip.takeSettings_own (c : Chip) (ws : List Word) : c.takeSettings ws = { c with
    su := { c.su with image := loadedImage ws }
    own := (c.takeSettings ws).own } := by
  unfold Chip.takeSettings
  dsimp only
  split <;> rfl

/-- A word that differs is asked for, and a CRC rewrite (R27). -/
theorem Chip.takeSettings_asked (c : Chip) (ws : List Word) {i : Fin 255} (h : loadedValue ws i.val ≠ wordAt ws i.val) :
    ⟨.settingWords i.val 1, .plain, false⟩ ∈ ((c.takeSettings ws).own[rSU.val] : List OwnReq) ∧
    ⟨.settingsCrc, .plain, false⟩ ∈ ((c.takeSettings ws).own[rSU.val] : List OwnReq) := by
  have hmem : i.val ∈ (List.range 255).filter fun j => wordAt ((List.range 255).map (loadedValue ws)) j != wordAt ws j := by
    have hat : wordAt ((List.range 255).map (loadedValue ws)) i.val = loadedValue ws i.val := by
      rw [wordAt, List.getD_eq_getElem _ _ (by simp), List.getElem_map, List.getElem_range]
    exact List.mem_filter.mpr ⟨List.mem_range.mpr i.isLt, by rw [hat]; exact bne_iff_ne.mpr h⟩
  unfold Chip.takeSettings
  dsimp only
  rw [if_neg (fun he => by rw [List.isEmpty_iff.mp he] at hmem; exact List.not_mem_nil hmem)]
  refine ⟨Chip.Grows.mem (Chip.push_adds _ _ _ _ _).own (Chip.mem_pushAll _ (List.mem_map.mpr ⟨i.val, hmem, rfl⟩)), Chip.mem_push _ _ _⟩

/-- The whole area is asked for, and a CRC rewrite (R28). -/
theorem Chip.defaultSettings_asked (c : Chip) : (∀ k < 32, ⟨.settingWords (8 * k) 8, .plain, false⟩ ∈ (c.defaultSettings.own[rSU.val] : List OwnReq)) ∧
    ⟨.settingsCrc, .plain, false⟩ ∈ (c.defaultSettings.own[rSU.val] : List OwnReq) :=
  ⟨fun k hk => Chip.Grows.mem (Chip.push_adds _ _ _ _ _).own (Chip.mem_pushAll _ (List.mem_map.mpr ⟨k, List.mem_range.mpr hk, rfl⟩)),
    Chip.mem_push _ _ _⟩

/-- The image of the outcome. -/
def LoadProg.image (l : LoadProg) : Vector Word 255 := if l.outcome = .loaded then loadedImage l.settings else defaultImage

/-- The day record of the outcome. -/
def LoadProg.dayRecord (l : LoadProg) : DayRecord :=
  match l.outcome, dayStateOfCode (wordAt l.day 0).toNat with
  | .loaded, some st => dayOfWords l.day st
  | _, _ => defaultDay

/-- What has been put in place: the settings, the day record and the outcome (R27, R28). -/
structure Chip.Loaded (c d : Chip) : Prop where
  su : d.su = { c.su with image := c.su.load.image, outcome := some c.su.load.outcome }
  cu : d.cu = { c.cu with day := c.su.load.dayRecord }
  ap : d.ap = c.ap
  ju : d.ju = c.ju
  back : c.su.load.outcome = .loaded → ∀ i : Fin 255, loadedValue c.su.load.settings i.val ≠ wordAt c.su.load.settings i.val →
    ⟨.settingWords i.val 1, .plain, false⟩ ∈ (d.own[rSU.val] : List OwnReq) ∧ ⟨.settingsCrc, .plain, false⟩ ∈ (d.own[rSU.val] : List OwnReq)
  whole : c.su.load.outcome ≠ .loaded → (∀ k < 32, ⟨.settingWords (8 * k) 8, .plain, false⟩ ∈ (d.own[rSU.val] : List OwnReq)) ∧
    ⟨.settingsCrc, .plain, false⟩ ∈ (d.own[rSU.val] : List OwnReq)

/-- The day record and the outcome put in place beside the settings. -/
def Chip.withDay (c : Chip) (o : StartOutcome) (d : DayRecord) : Chip :=
  ((c.onCu fun cu => { cu with day := d }).onSu fun u => { u with outcome := some o }).writeStatus 0x00C (wd o.code)

/-- What was asked for still is. -/
theorem Chip.withDay_grows (c : Chip) (o : StartOutcome) (d : DayRecord) : c.Grows (c.withDay o d) :=
  (Chip.push_adds ((c.onCu fun cu => { cu with day := d }).onSu fun u => { u with outcome := some o }) _ _ _ _).own

/-- The settings and the day record of the outcome are put in place (R27, R28). -/
theorem Chip.takeLoaded_loaded (c : Chip) : c.Loaded (c.takeLoaded c.su.load.outcome) := by
  by_cases h : c.su.load.outcome = .loaded
  · have ht : c.takeLoaded c.su.load.outcome = (c.takeSettings c.su.load.settings).withDay c.su.load.outcome c.su.load.dayRecord := by
      unfold Chip.takeLoaded LoadProg.dayRecord
      rw [h, Chip.takeSettings_own]
      rfl
    have himage : c.su.load.image = loadedImage c.su.load.settings := if_pos h
    have hgrows := (c.takeSettings c.su.load.settings).withDay_grows c.su.load.outcome c.su.load.dayRecord
    have hown := c.takeSettings_own c.su.load.settings
    rw [ht]
    exact {
      su := by
        rw [himage]
        show { (c.takeSettings c.su.load.settings).su with outcome := some c.su.load.outcome } = _
        rw [hown]
      cu := by
        show { (c.takeSettings c.su.load.settings).cu with day := c.su.load.dayRecord } = _
        rw [hown]
      ap := by
        show (c.takeSettings c.su.load.settings).ap = _
        rw [hown]
      ju := by
        show (c.takeSettings c.su.load.settings).ju = _
        rw [hown]
      back := fun _ i hi => (c.takeSettings_asked c.su.load.settings hi).imp hgrows.mem hgrows.mem
      whole := fun hn => absurd h hn }
  · have ht : c.takeLoaded c.su.load.outcome = c.defaultSettings.withDay c.su.load.outcome c.su.load.dayRecord := by
      unfold Chip.takeLoaded LoadProg.dayRecord
      rw [if_neg (mt beq_iff_eq.mp h)]
      rfl
    have himage : c.su.load.image = defaultImage := if_neg h
    have hgrows := c.defaultSettings.withDay_grows c.su.load.outcome c.su.load.dayRecord
    rw [ht]
    exact {
      su := by rw [himage]; rfl
      cu := rfl
      ap := rfl
      ju := rfl
      back := fun hn => absurd hn h
      whole := fun _ => ⟨fun k hk => hgrows.mem (c.defaultSettings_asked.1 k hk), hgrows.mem c.defaultSettings_asked.2⟩ }

end Sys2Proof.Machine
end

section
/-! PROOF. The end of LOADING: what it leaves, and the release of the host (O17). -/

namespace Sys2Proof.Machine

/-! ### The report ring, the reports and the table -/

/-- SU's rings emptied, and no other unit's state touched. -/
structure Chip.RingSet (c d : Chip) : Prop where
  su : ∃ r w f, d.su = { c.su with readIndex := r, writeIndex := w, overflow := f }
  cu : d.cu = c.cu
  ap : d.ap = c.ap
  ju : d.ju = c.ju
  own : c.Grows d

/-- The ring emptied at an index. -/
theorem Chip.ringAt_set (c : Chip) (v : Nat) : c.RingSet (c.ringAt v) where
  su := ⟨v, v, false, rfl⟩
  cu := rfl
  ap := rfl
  ju := rfl
  own := Chip.Grows.trans (c := c.onSu fun u => { u with readIndex := v, writeIndex := v, overflow := false })
    (Chip.push_adds _ _ _ _ _).own (Chip.push_adds _ _ _ _ _).own

/-- The ring emptied from a read index. -/
theorem Chip.ringFrom_set (c : Chip) (v : Nat) : c.RingSet (c.ringFrom v) := by
  unfold Chip.ringFrom
  split
  · obtain ⟨hsu, hcu, hap, hju, hown⟩ := (c.push rSU (.write (c.setupAddr 0x148) [0]) .silent).ringAt_set 0
    exact ⟨hsu, hcu, hap, hju, Chip.Grows.trans (c.push_adds _ _ _ _).own hown⟩
  · exact c.ringAt_set v

/-- The report ring emptied (R29). -/
theorem Chip.emptyRing_set (c : Chip) : c.RingSet c.emptyRing := by
  rw [Chip.emptyRing_eq]
  split
  · exact c.ringFrom_set _
  · obtain ⟨hsu, hcu, hap, hju, hown⟩ := c.draw.2.ringFrom_set c.draw.1.toNat
    exact ⟨hsu, hcu, hap, hju, hown⟩

/-- The reports of a start-up (R29). -/
theorem Chip.startReports_adds (c : Chip) (o : StartOutcome) : c.Adds (c.startReports o) := by
  unfold Chip.startReports
  dsimp only
  split
  · exact c.report_adds _ _ _
  · exact (c.report_adds _ _ _).trans (Chip.report_adds _ _ _ _)

/-- With room for both they are made (R33). -/
theorem Chip.startReports_of_room (c : Chip) (o : StartOutcome) (h : c.su.reports.length < 15) : (c.startReports o).su.reports =
    c.su.reports ++ [⟨.reset, 0, o.code, c.su.ms⟩] ++ (if o = .loaded then [] else [⟨.setupDefaulted, 0, o.code, c.su.ms⟩]) := by
  unfold Chip.startReports
  rw [Chip.report_of_room _ _ _ _ (by omega)]
  by_cases ho : o = .loaded
  · rw [if_pos ho, List.append_nil]
    exact congrArg (fun c : Chip => c.su.reports) (if_pos (beq_iff_eq.mpr ho))
  · rw [if_neg ho]
    have hroom : (c.su.reports ++ [(⟨.reset, 0, o.code, c.su.ms⟩ : Report)]).length < 16 := by
      rw [List.length_append, List.length_singleton]
      omega
    let d : Chip := { c with su := { c.su with reports := c.su.reports ++ [⟨.reset, 0, o.code, c.su.ms⟩] } }
    have hr := d.report_of_room .setupDefaulted 0 o.code hroom
    exact congrArg (fun c : Chip => c.su.reports) ((if_neg (mt beq_iff_eq.mp ho)).trans hr)

theorem Chip.startReports_cu (c : Chip) (o : StartOutcome) : (c.startReports o).cu = c.cu := by
  unfold Chip.startReports
  dsimp only
  split <;> simp

theorem Chip.startReports_ap (c : Chip) (o : StartOutcome) : (c.startReports o).ap = c.ap := congrArg Gist.ap (c.startReports_gist o)

/-- The table as the settings in force have it, and the usable mark (R2, R3). -/
theorem Chip.takeTable_spec (c : Chip) : (∀ w, c.takeTable.placement w = c.placementSet w) ∧
    c.takeTable.ap.journalUsable = c.takeTable.usableNow ∧ c.takeTable.ap.host = c.ap.host ∧ c.takeTable.ap.held = c.ap.held ∧
    c.takeTable.ap.setupPage = c.ap.setupPage := by
  refine ⟨fun w => ?_, rfl, rfl, rfl, rfl⟩
  show (vofList 6 disabledPlacement ([0, 1, 2, 3, 4, 5].map c.placementSet))[w.val] = _
  rw [vofList_get _ _ _ _ w.isLt]
  match w with
  | 0 => rfl
  | 1 => rfl
  | 2 => rfl
  | 3 => rfl
  | 4 => rfl
  | 5 => rfl

/-! ### The unit state entered -/

/-- A day record whose running part is 0 (R27, R91). -/
def DayRecord.unwalked (d : DayRecord) : DayRecord :=
  { d with next := d.first, recordCount := 0, hash := 0, cashIn := .zero, cashOut := .zero, noncashIn := .zero,
           noncashOut := .zero, sumsSaturated := false, differenceTotal := 0 }

/-- The walk that begins, or that has stopped at once in a JOURNAL that is not usable (R91, R94). -/
def Walk.begun (first : Nat) (usable : Bool) : Walk :=
  if usable = true then ⟨first, 0, .ready, false, false⟩ else ⟨first, 0, .ended, true, true⟩

/-- CU's writes of a start-up in NO_DAY leave its records. -/
theorem Chip.cuLoadedNoDay_cu (c : Chip) (b : Bool) : (c.cuLoadedNoDay b).cu = c.cu := by
  unfold Chip.cuLoadedNoDay
  dsimp only
  rw [Chip.writeRunning_cu, Chip.writeMirrors_cu]
  split
  · exact c.writeAnchor_cu _
  · rfl

/-- A walk that stops DAMAGED marks the day (R94). -/
theorem Chip.walkDamaged_cu (c : Chip) (w : Walk) : (c.walkDamaged w).cu = { c.cu with
    day := { c.cu.day with damaged := true, next := w.expected }
    walk := some { w with stopped := true, anchorChanged := true, phase := .ended } } := by
  have hends (d : Chip) (w : Walk) : (d.walkEnds w).cu = { d.cu with walk := some { w with phase := .ended } } := rfl
  unfold Chip.walkDamaged
  dsimp only
  rw [hends, Chip.report_cu]
  rfl

/-- The records from which rebuild begins (R91). -/
def Chip.unwalked (c : Chip) : Chip := c.onCu fun cu => { cu with drawers := Vector.replicate 13 .reset, day := cu.day.unwalked }

/-- Rebuild begins (R91). -/
theorem Chip.rebuildStart_cu (c : Chip) : c.rebuildStart.cu = { c.cu with
    drawers := Vector.replicate 13 .reset
    day := { c.cu.day.unwalked with damaged := c.cu.day.damaged || !c.ap.journalUsable }
    walk := some (.begun c.cu.day.first c.ap.journalUsable) } := by
  have hstart : c.rebuildStart = if c.ap.journalUsable then
      c.unwalked.onCu fun cu => { cu with walk := some ⟨c.cu.day.first, 0, .ready, false, false⟩ }
      else c.unwalked.walkDamaged ⟨c.cu.day.first, 0, .ready, false, false⟩ := rfl
  rw [hstart]
  cases c.ap.journalUsable with
  | true =>
    rw [if_pos rfl]
    show CuState.mk _ { c.cu.day.unwalked with damaged := c.cu.day.damaged } _ _ _ _ _ _ _ = _
    rw [Bool.not_true, Bool.or_false]
    rfl
  | false =>
    rw [if_neg Bool.false_ne_true, Chip.walkDamaged_cu, Bool.not_false, Bool.or_true]
    rfl

/-- CU's records at the end of LOADING (R29, R91). -/
theorem Chip.enterState_cu (c : Chip) (o : StartOutcome) : (c.enterState o).cu = if c.cu.day.state = .noDay then c.cu else { c.cu with
    drawers := Vector.replicate 13 .reset
    day := { c.cu.day.unwalked with damaged := c.cu.day.damaged || !c.ap.journalUsable }
    walk := some (.begun c.cu.day.first c.ap.journalUsable) } := by
  have hseq (d : Chip) : d.juLoadedNoDay.cu = d.cu := by
    unfold Chip.juLoadedNoDay
    dsimp only
    split
    · exact Chip.resolveSlots_cu _
    · rfl
  unfold Chip.enterState
  by_cases h : c.cu.day.state = .noDay
  · rw [if_pos (beq_iff_eq.mpr h), if_pos h, hseq, Chip.cuLoadedNoDay_cu]
    rfl
  · rw [if_neg (mt beq_iff_eq.mp h), if_neg h, Chip.rebuildStart_cu]
    rfl

/-- The slots' resolution asked for adds to JU's accesses (R57). -/
theorem Chip.resolveSlots_adds (c : Chip) : c.Adds c.resolveSlots := by
  have hfrom (d : Chip) (k base : Nat) : d.Adds (d.resolveFrom k base) := by
    have hju (d : Chip) : d.Adds (d.onJu fun j => { j with resolving := j.resolving - 1 }) := .of_eq rfl rfl rfl
    have hposting (d : Chip) : d.Adds (match d.ju.posting with
        | some po => if d.ju.resolving == 0 && po.phase == .waiting then d.readSlot po.slot else d
        | none => d) := by
      split
      · split
        · have hrunning : d.Adds (d.onPosting fun po => { po with phase := .running }) := .of_eq rfl rfl rfl
          exact hrunning.trans (Chip.push_adds _ _ _ _ _)
        · exact .refl d
      · exact .refl d
    unfold Chip.resolveFrom
    split
    · exact d.push_adds _ _ _ _
    · exact (hju d).trans (hposting _)
  have hju : c.Adds (c.onJu fun j => { j with resolving := j.resolving + 1 }) := .of_eq rfl rfl rfl
  exact hju.trans (hfrom _ _ _)

/-- CU's writes of a start-up in NO_DAY (Table 5-10). -/
theorem Chip.cuLoadedNoDay_adds (c : Chip) (b : Bool) : c.Adds (c.cuLoadedNoDay b) := by
  have hanchor : c.Adds (if b then c.writeAnchor .defaults else c) := by
    split
    · exact c.pushAll_adds _ _
    · exact .refl c
  have hmirrors (d : Chip) : d.Adds (d.writeMirrors drawerIndices .nothing) := by
    unfold Chip.writeMirrors
    split
    · exact (d.pushAll_adds _ _).trans (Chip.pushAll_adds _ _ _)
    · exact .refl d
  exact hanchor.trans ((hmirrors _).trans (Chip.pushAll_adds _ _ _))

/-- The unit state entered: what SU has, its accesses, and JU's next number (R29, R57). -/
structure Chip.Entered (c d : Chip) : Prop where
  su : ∃ st more flag, d.su = { c.su with unitState := st, reports := c.su.reports ++ more, overflow := flag }
  own : c.Grows d
  next : c.cu.day.state = .noDay → d.ju.nextSeq = c.cu.day.first

/-- JU in NO_DAY: the next number, and the slots' resolution (R57). -/
theorem Chip.juLoadedNoDay_adds (c : Chip) :
    (c.onJu fun j => { j with nextSeq := c.cu.day.first, nearFull := false }).Adds c.juLoadedNoDay := by
  unfold Chip.juLoadedNoDay
  generalize (c.onJu fun j => { j with nextSeq := c.cu.day.first, nearFull := false }) = d
  dsimp only
  split
  · exact d.resolveSlots_adds
  · exact .refl d

/-- Rebuild begins with no more than a report (R91). -/
theorem Chip.rebuildStart_adds (c : Chip) : c.Adds c.rebuildStart := by
  have hcu (d : Chip) (f : CuState → CuState) : d.Adds (d.onCu f) := .of_eq rfl rfl rfl
  have hdamaged (d : Chip) (w : Walk) : d.Adds (d.walkDamaged w) := by
    have hreport := (d.onCu (·.onDay fun day => { day with damaged := true, next := w.expected })).report_adds .dayDamaged 0 w.expected
    have hends (e : Chip) (w : Walk) : e.Adds (e.walkEnds w) := hcu e _
    exact (hcu d _).trans (hreport.trans (hends _ _))
  have hstart : c.rebuildStart = if c.ap.journalUsable then
      c.unwalked.onCu fun cu => { cu with walk := some ⟨c.cu.day.first, 0, .ready, false, false⟩ }
      else c.unwalked.walkDamaged ⟨c.cu.day.first, 0, .ready, false, false⟩ := rfl
  have hunwalked : c.Adds c.unwalked := hcu c _
  rw [hstart]
  split
  · exact hunwalked.trans (hcu _ _)
  · exact hunwalked.trans (hdamaged _ _)

/-- READY in NO_DAY, REBUILDING otherwise (R29). -/
theorem Chip.enterState_entered (c : Chip) (o : StartOutcome) : c.Entered (c.enterState o) := by
  unfold Chip.enterState
  by_cases h : c.cu.day.state = .noDay
  · rw [if_pos (beq_iff_eq.mpr h)]
    have hcu := (c.onSu fun u => { u with unitState := .ready }).cuLoadedNoDay_adds (o != .loaded)
    have hday : ((c.onSu fun u => { u with unitState := .ready }).cuLoadedNoDay (o != .loaded)).cu = c.cu :=
      Chip.cuLoadedNoDay_cu _ _
    generalize (c.onSu fun u => { u with unitState := .ready }).cuLoadedNoDay (o != .loaded) = d at hcu hday
    obtain ⟨⟨more, flag, hsu⟩, hown, -⟩ := hcu
    obtain ⟨⟨more', flag', hsu'⟩, hown', hnext⟩ := d.juLoadedNoDay_adds
    exact {
      su := ⟨.ready, more ++ more', flag', by
        rw [hsu', show (d.onJu fun j => { j with nextSeq := d.cu.day.first, nearFull := false }).su = d.su from rfl, hsu,
          ← List.append_assoc]
        rfl⟩
      own := Chip.Grows.trans (c := c) (d := d) hown hown'
      next := fun _ => by rw [hnext, ← hday]; rfl }
  · rw [if_neg (mt beq_iff_eq.mp h)]
    obtain ⟨⟨more, flag, hsu⟩, hown, -⟩ := (c.onSu fun u => { u with unitState := .rebuilding }).rebuildStart_adds
    exact { su := ⟨.rebuilding, more, flag, hsu⟩, own := hown, next := fun hn => absurd hn h }

end Sys2Proof.Machine
end

section
/-! PROOF. The end of LOADING settled, and the release of the host (O17). -/

namespace Sys2Proof.Machine

/-! ### The part after the end of LOADING -/

/-- The part before the unit state is entered: what it has, and what it has asked for. -/
structure Chip.Up (c d : Chip) : Prop where
  su : ∃ r w f more, d.su = { c.su with
    image := c.su.load.image, outcome := some c.su.load.outcome, readIndex := r, writeIndex := w, overflow := f
    reports := c.su.reports ++ more }
  reports : c.su.reports.length < 15 → d.su.reports = c.su.reports ++ [⟨.reset, 0, c.su.load.outcome.code, c.su.ms⟩] ++
    (if c.su.load.outcome = .loaded then [] else [⟨.setupDefaulted, 0, c.su.load.outcome.code, c.su.ms⟩])
  cu : d.cu = { c.cu with day := c.su.load.dayRecord }
  table : (∀ w, d.placement w = d.placementSet w) ∧ d.ap.journalUsable = d.usableNow ∧ d.ap.host = c.ap.host ∧ d.ap.held = c.ap.held ∧
    d.ap.setupPage = c.ap.setupPage
  own : (c.takeLoaded c.su.load.outcome).Grows d
  result : ⟨.write (c.setupAddr 0x120) [0, 0, 0, 0], .plain, false⟩ ∈ (d.own[rSU.val] : List OwnReq)

theorem Chip.loadedUp_up (c : Chip) : c.Up (c.loadedUp c.su.load.outcome) := by
  obtain ⟨hasu, hacu, haap, -, -, -⟩ := c.takeLoaded_loaded
  generalize ha : c.takeLoaded c.su.load.outcome = a at hasu hacu haap
  obtain ⟨⟨r, w, f, hbsu⟩, hbcu, hbap, -, hbown⟩ := a.emptyRing_set
  generalize hb : a.emptyRing = b at hbsu hbcu hbap hbown
  have hdadds := b.startReports_adds c.su.load.outcome
  have hdroom := b.startReports_of_room c.su.load.outcome
  have hdcu := b.startReports_cu c.su.load.outcome
  have hdap := b.startReports_ap c.su.load.outcome
  generalize hd : b.startReports c.su.load.outcome = d at hdadds hdroom hdcu hdap
  have hup : c.loadedUp c.su.load.outcome = (d.push rSU (.write (d.setupAddr 0x120) [0, 0, 0, 0]) .plain).takeTable := by
    rw [← hd, ← hb, ← ha]
    rfl
  obtain ⟨⟨more, flag, hdsu⟩, hdown, -⟩ := hdadds
  have hap : d.ap = c.ap := hdap.trans (hbap.trans haap)
  have hsu : d.su = { c.su with
      image := c.su.load.image, outcome := some c.su.load.outcome, readIndex := r, writeIndex := w, overflow := flag
      reports := c.su.reports ++ more } := by
    rw [hdsu, hbsu, hasu]
  obtain ⟨hplace, husable, hhost, hheld, hpage⟩ := (d.push rSU (.write (d.setupAddr 0x120) [0, 0, 0, 0]) .plain).takeTable_spec
  rw [hup]
  exact {
    su := ⟨r, w, flag, more, hsu⟩
    reports := fun hroom => by
      have hbreports : b.su.reports = c.su.reports := by rw [hbsu, hasu]
      have hbms : b.su.ms = c.su.ms := by rw [hbsu, hasu]
      show d.su.reports = _
      rw [hdroom (by rwa [hbreports]), hbreports, hbms]
    cu := hdcu.trans (hbcu.trans hacu)
    table := ⟨hplace, husable, hhost.trans (congrArg ApState.host hap), hheld.trans (congrArg ApState.held hap),
      hpage.trans (congrArg ApState.setupPage hap)⟩
    own := by
      rw [ha]
      exact Chip.Grows.trans (hbown.trans (e := d) hdown) (Chip.push_adds d rSU _ _ _).own
    result := by
      have hmem := d.mem_push (.write (d.setupAddr 0x120) [0, 0, 0, 0]) .plain
      have haddr : d.setupAddr 0x120 = c.setupAddr 0x120 := by
        unfold Chip.setupAddr
        rw [hap]
      rw [haddr] at hmem ⊢
      exact hmem }

/-- The part after the end of LOADING. -/
structure Chip.Ended (c t : Chip) : Prop where
  image : t.su.image = c.su.load.image
  outcome : t.su.outcome = some c.su.load.outcome
  reports : c.su.reports.length < 15 → ∃ more, t.su.reports = c.su.reports ++ [⟨.reset, 0, c.su.load.outcome.code, c.su.ms⟩] ++
    (if c.su.load.outcome = .loaded then [] else [⟨.setupDefaulted, 0, c.su.load.outcome.code, c.su.ms⟩]) ++ more
  cu : t.cu = if c.su.load.dayRecord.state = .noDay then { c.cu with day := c.su.load.dayRecord } else { c.cu with
    drawers := Vector.replicate 13 .reset
    day := { c.su.load.dayRecord.unwalked with damaged := c.su.load.dayRecord.damaged || !t.ap.journalUsable }
    walk := some (.begun c.su.load.dayRecord.first t.ap.journalUsable) }
  next : c.su.load.dayRecord.state = .noDay → t.ju.nextSeq = c.su.load.dayRecord.first
  placed : ∀ w, t.placement w = t.placementSet w
  usable : t.ap.journalUsable = t.usableNow
  host : t.ap.host = c.ap.host
  held : t.ap.held = c.ap.held
  ring : t.su.writeIndex = t.su.readIndex ∧ t.su.readIndex ≤ 63
  unit : t.su.unitState = if c.su.load.dayRecord.state = .noDay then .ready else .rebuilding
  own : (c.takeLoaded c.su.load.outcome).Grows t
  result : ⟨.write (c.setupAddr 0x120) [0, 0, 0, 0], .plain, false⟩ ∈ (t.own[rSU.val] : List OwnReq)
  state : ⟨.write (c.setupAddr 0x008) [wd t.su.unitState.code], .loadingState, false⟩ ∈ (t.own[rSU.val] : List OwnReq)

/-- The units that follow leave AP and CU's records. -/
theorem Chip.unitsLoaded_leave (c : Chip) : c.scuLoaded.slcLoaded.pruLoaded.callIfReady.ap = c.ap ∧
    c.scuLoaded.slcLoaded.pruLoaded.callIfReady.cu = c.cu := by
  constructor
  · rw [Chip.callIfReady_ap, Chip.pruLoaded_ap, Chip.slcLoaded_ap, Chip.scuLoaded_ap]
  · rw [Chip.callIfReady_cu, Chip.pruLoaded_cu, Chip.slcLoaded_cu, Chip.scuLoaded_cu]

/-- A placement and the usable mark depend on the table and the image. -/
theorem Chip.placed_congr {c d : Chip} (ha : d.ap = c.ap) (hi : d.su.image = c.su.image)
    (hp : ∀ w, c.placement w = c.placementSet w) (hj : c.ap.journalUsable = c.usableNow) :
    (∀ w, d.placement w = d.placementSet w) ∧ d.ap.journalUsable = d.usableNow := by
  constructor
  · intro w
    have hplace : d.placement w = c.placement w := congrArg (fun a : ApState => a.placed[w.val]) ha
    have hset : d.placementSet w = c.placementSet w := congrArg₂ Placement.mk (Chip.setting_congr hi _) (Chip.setting_congr hi _)
    rw [hplace, hset, hp]
  · rw [Chip.usableNow_congr (congrArg ApState.placed ha) hi, ha, hj]

/-- SU asks for the write of the unit state word (R29). -/
theorem Chip.mem_entered (c : Chip) (o : StartOutcome) :
    ⟨.write ((c.enterState o).setupAddr 0x008) [wd (c.enterState o).su.unitState.code], .loadingState, false⟩ ∈
      ((c.entered o).own[rSU.val] : List OwnReq) := by
  unfold Chip.entered
  exact Chip.mem_push _ _ _

theorem Chip.entered_unit (c : Chip) (o : StartOutcome) : (c.entered o).su.unitState = (c.enterState o).su.unitState := by
  unfold Chip.entered
  rw [Chip.push_su]

/-- The end of LOADING, from the part before the unit state is entered (R29). -/
theorem Chip.Up.ended {c u t : Chip} (h : c.Up u) (hring : u.su.writeIndex = u.su.readIndex ∧ u.su.readIndex ≤ 63)
    (ht : t = (u.entered c.su.load.outcome).scuLoaded.slcLoaded.pruLoaded.callIfReady) : c.Ended t := by
  obtain ⟨⟨r, w, f, up, husu⟩, hureports, hucu, ⟨huplace, huusable, huhost, huheld, hupage⟩, huown, huresult⟩ := h
  have hegist := u.enterState_gist c.su.load.outcome
  have hecu := u.enterState_cu c.su.load.outcome
  obtain ⟨⟨st, emore, eflag, hesu⟩, heown, henext⟩ := u.enterState_entered c.su.load.outcome
  obtain ⟨htap, htcu⟩ := (u.entered c.su.load.outcome).unitsLoaded_leave
  obtain ⟨⟨tmore, tflag, htsu⟩, htown, htnext⟩ := (u.entered c.su.load.outcome).unitsLoaded_adds
  rw [← ht] at htap htcu htsu htown htnext
  have hpushed := ((u.enterState c.su.load.outcome).push_adds rSU
    (.write ((u.enterState c.su.load.outcome).setupAddr 0x008) [wd (u.enterState c.su.load.outcome).su.unitState.code]) .loadingState false).own
  have heap : (u.enterState c.su.load.outcome).ap = u.ap := by
    refine Eq.trans (congrArg Gist.ap hegist) ?_
    split <;> rfl
  have hap : t.ap = u.ap := htap.trans heap
  have hunit : t.su.unitState = if u.cu.day.state = .noDay then .ready else .rebuilding := by
    have heunit : (u.enterState c.su.load.outcome).su.unitState = _ := congrArg Gist.unit hegist
    rw [htsu]
    refine Eq.trans heunit ?_
    split <;> rfl
  have htesu : t.su = { u.su with unitState := st, reports := u.su.reports ++ (emore ++ tmore), overflow := tflag } := by
    have hpsu : (u.entered c.su.load.outcome).su = { u.su with unitState := st, reports := u.su.reports ++ emore, overflow := eflag } := hesu
    rw [htsu, hpsu, ← List.append_assoc]
  have huday : u.cu.day = c.su.load.dayRecord := by rw [hucu]
  have himage : t.su.image = u.su.image := by rw [htesu]
  obtain ⟨htplace, htusable⟩ := Chip.placed_congr hap himage huplace huusable
  have hgrows : u.Grows t := heown.trans (Chip.Grows.trans (d := u.entered c.su.load.outcome) hpushed htown)
  rw [huday] at hunit hecu henext
  exact {
    image := by rw [himage, husu]
    outcome := by rw [htesu, husu]
    reports := fun hroom => ⟨emore ++ tmore, by rw [htesu, hureports hroom]⟩
    cu := by
      refine htcu.trans (Eq.trans hecu ?_)
      rw [hap, hucu]
    next := fun hn => htnext.trans (henext hn)
    placed := htplace
    usable := htusable
    host := (congrArg ApState.host hap).trans huhost
    held := (congrArg ApState.held hap).trans huheld
    ring := by rw [htesu]; exact hring
    unit := hunit
    own := huown.trans hgrows
    result := hgrows.mem huresult
    state := by
      have haddr : (u.enterState c.su.load.outcome).setupAddr 0x008 = c.setupAddr 0x008 := by
        unfold Chip.setupAddr
        rw [heap, hupage]
      have hcode : (u.enterState c.su.load.outcome).su.unitState = t.su.unitState := by
        rw [htsu]
        exact (u.entered_unit c.su.load.outcome).symm
      rw [← haddr, ← hcode]
      exact Chip.Grows.mem htown (u.mem_entered c.su.load.outcome) }

theorem Chip.endLoading_ended (c : Chip) : c.Ended c.endLoading := by
  obtain ⟨i, d, q, n, hn, hgist⟩ := c.loadedUp_gist c.su.load.outcome
  have hwrite : (c.loadedUp c.su.load.outcome).su.writeIndex = n := congrArg Gist.writeIndex hgist
  have hread : (c.loadedUp c.su.load.outcome).su.readIndex = n := congrArg Gist.readIndex hgist
  exact c.loadedUp_up.ended ⟨hwrite.trans hread.symm, hread.trans_le hn⟩ c.endLoading_eq

/-! ### The values loaded -/

/-- A setting in force is its word of the image. -/
theorem Chip.setting_of_image {c : Chip} {v : Vector Word 255} (h : c.su.image = v) (k : Setting) : c.setting k = (v[k.place.val]).toNat := by
  rw [Chip.setting_eq, h]

/-- The settings as loaded (R21, R23, R27). -/
theorem Chip.loaded_settings {c : Chip} {ws : List Word} (h : c.su.image = loadedImage ws) :
    let word (k : Setting) : Nat := (wordAt ws k.index).toNat
    (∀ k : Setting, k ≠ .jnlCapacity → (∀ p b, k ≠ .ceiling p b) → c.setting k = k.clamp (word k)) ∧
    (let cap := max 1024 (min 65536 (word .jnlCapacity / 64 * 64))
     let base := min (word (.placement 0 false)) 0xFFFFF
     let limit := min (word (.placement 0 true)) 0xFFFFF
     c.capacity = if base ≤ limit then min cap (journalFit base limit) else cap) ∧
    (∀ p : Fin 12, c.ceilingOf p = min (word (.ceiling p false) + 4294967296 * word (.ceiling p true)) 999999999999) ∧
    ∀ i : Fin 255, settingAtOffset (0x200 + 4 * i.val) = none → c.su.image[i.val] = wordAt ws i.val := by
  intro word
  have hget (k : Setting) : c.setting k = (loadedValue ws k.index).toNat := by
    rw [Chip.setting_of_image h, loadedImage_get _ _ k.place.isLt]
    rfl
  refine ⟨fun k hj hc => (hget k).trans (loadedValue_setting ws hj hc), ?_, fun p => ?_, fun i hi => ?_⟩
  · exact ((hget .jnlCapacity).trans (loadedValue_capacity ws)).trans (clampCapacity_eq _ _ _)
  · unfold Chip.ceilingOf
    rw [hget, hget]
    exact loadedValue_ceiling ws p
  · rw [settingAtOffset_word i.isLt] at hi
    rw [h, loadedImage_get _ _ i.isLt, loadedValue_unassigned ws hi]

/-- The default of a setting (Table 2-2). -/
def defaultOf (k : Setting) : Nat := (wordAt defaultSettings k.index).toNat

/-- The defaults of the settings there are one of (Table 2-2). -/
theorem defaultOf_one : ∀ e ∈ [(Setting.jnlCapacity, 16384), (.decimals, 2), (.separators, 0), (.branchNo, 0), (.idleBlank, 300),
    (.releaseTime, 250), (.openLong, 60), (.bcstSet, 0xFFF), (.bcstRow, 0), (.pollInterval, 100), (.link .window, 4), (.link .ackTime, 5),
    (.link .frameRetries, 5), (.link .errThreshold, 3), (.link .helloTime, 2), (.link .keepalive, 30), (.link .resumeTime, 10),
    (.link .verdictTime, 120)], defaultOf e.1 = e.2 := by decide +kernel

/-- The defaults of the placements, the faces, the drawers and the lines (Table 2-2). -/
theorem defaultOf_indexed : (∀ (w : Fin 6), defaultOf (.placement w false) = 0xFFFFF ∧ defaultOf (.placement w true) = 0) ∧
    (∀ x : Fin 10, defaultOf (.face x) = 0) ∧
    (∀ p : Fin 12, (∀ b, defaultOf (.ceiling p b) = 0) ∧ defaultOf (.scanDir p) = 0 ∧
      defaultOf (.capOverride p) = 0 ∧ defaultOf (.colour p) = 1 ∧ defaultOf (.remoteRelease p) = 0) ∧
    ∀ x : Fin 3, defaultOf (.lineRate x) = 38400 ∧ defaultOf (.lineGap x) = 4 ∧ defaultOf (.replyTime x) = 30 := by decide +kernel

/-- The defaults of a printer's block (Table 2-2). -/
theorem defaultOf_printer : ∀ (n : Fin 4), ∀ e ∈ [(PrnSetting.present, 0), (.linesPerPage, 24), (.pitch, 40), (.topMargin, 120),
    (.amountCol, 44), (.encPrescale, 4), (.pwmPrescale, 1), (.pwmPeriod, 239), (.runDuty, 720), (.approachDuty, 300), (.rampStep, 8),
    (.deadBand, 12), (.approachDist, 20), (.stallTime, 200), (.alignTravel, 2000), (.ejectTravel, 1500), (.headTimeout, 2000), (.safeA, 0),
    (.safeB, 0), (.autoRestart, 0), (.outPolarity, 0)], defaultOf (.printer n e.1) = e.2 := by decide +kernel

/-- The words that are no setting's are 0 by default (R28). -/
theorem defaultSettings_unassigned : ∀ i : Fin 255, settingAt i.val = none → wordAt defaultSettings i.val = 0 := by decide +kernel

/-- A setting of the default image has its default. -/
theorem setting_by_default {c : Chip} (h : c.su.image = defaultImage) (k : Setting) : c.setting k = defaultOf k := by
  rw [Chip.setting_of_image h]
  exact congrArg BitVec.toNat (vofList_get 255 0 defaultSettings _ k.place.isLt)

/-- The settings by default (R28, Table 2-2). -/
theorem settings_by_default {c : Chip} (h : c.su.image = defaultImage) :
    (∀ w : Fin 6, c.placementSet w = ⟨0xFFFFF, 0⟩) ∧ (∀ x : Fin 10, c.setting (.face x) = 0) ∧
    (∀ e ∈ [(Setting.jnlCapacity, 16384), (.decimals, 2), (.separators, 0), (.branchNo, 0), (.idleBlank, 300), (.releaseTime, 250),
      (.openLong, 60), (.bcstSet, 0xFFF), (.bcstRow, 0), (.pollInterval, 100), (.link .window, 4), (.link .ackTime, 5),
      (.link .frameRetries, 5), (.link .errThreshold, 3), (.link .helloTime, 2), (.link .keepalive, 30), (.link .resumeTime, 10),
      (.link .verdictTime, 120)], c.setting e.1 = e.2) ∧
    (∀ p : Fin 12, c.ceilingOf p = 0 ∧ c.setting (.scanDir p) = 0 ∧ c.setting (.capOverride p) = 0 ∧
      c.setting (.colour p) = 1 ∧ c.setting (.remoteRelease p) = 0) ∧
    (∀ x : Fin 3, c.setting (.lineRate x) = 38400 ∧ c.setting (.lineGap x) = 4 ∧ c.setting (.replyTime x) = 30) ∧
    (∀ (n : Fin 4), ∀ e ∈ [(PrnSetting.present, 0), (.linesPerPage, 24), (.pitch, 40), (.topMargin, 120), (.amountCol, 44),
      (.encPrescale, 4), (.pwmPrescale, 1), (.pwmPeriod, 239), (.runDuty, 720), (.approachDuty, 300), (.rampStep, 8), (.deadBand, 12),
      (.approachDist, 20), (.stallTime, 200), (.alignTravel, 2000), (.ejectTravel, 1500), (.headTimeout, 2000), (.safeA, 0), (.safeB, 0),
      (.autoRestart, 0), (.outPolarity, 0)], c.prn n e.1 = e.2) ∧
    ∀ i : Fin 255, settingAtOffset (0x200 + 4 * i.val) = none → c.su.image[i.val] = 0 := by
  have hget := setting_by_default h
  obtain ⟨hplace, hface, hdrawer, hline⟩ := defaultOf_indexed
  refine ⟨fun w => congrArg₂ Placement.mk ((hget _).trans (hplace w).1) ((hget _).trans (hplace w).2), fun x => (hget _).trans (hface x),
    fun e he => (hget _).trans (defaultOf_one e he), fun p => ?_, fun x => ?_, fun n e he => (hget _).trans (defaultOf_printer n e he),
    fun i hi => ?_⟩
  · obtain ⟨hceiling, hscan, hcap, hcolour, hremote⟩ := hdrawer p
    refine ⟨?_, (hget _).trans hscan, (hget _).trans hcap, (hget _).trans hcolour, (hget _).trans hremote⟩
    unfold Chip.ceilingOf
    rw [hget, hget, hceiling, hceiling, Nat.mul_zero]
  · obtain ⟨hrate, hgap, hreply⟩ := hline x
    exact ⟨(hget _).trans hrate, (hget _).trans hgap, (hget _).trans hreply⟩
  · rw [settingAtOffset_word i.isLt] at hi
    rw [h]
    exact (vofList_get 255 0 defaultSettings _ i.isLt).trans (defaultSettings_unassigned i hi)

end Sys2Proof.Machine
end

section
/-! PROOF. The day record as loaded, and the end of LOADING settled (O17). -/

namespace Sys2Proof.Machine

/-! ### The day record as loaded -/

/-- A count of a list of words, two in each. -/
theorem getD_unpackHalves (ws : List Word) (i : Nat) : (unpackHalves ws).getD i 0 = field (ws.getD (i / 2) 0) (16 * (i % 2)) 16 := by
  induction ws generalizing i with
  | nil =>
    show ([] : List Nat).getD i 0 = field (([] : List Word).getD (i / 2) 0) _ 16
    rw [List.getD_nil, List.getD_nil]
    exact (by simp [field] : (0 : Nat) = field 0 _ 16)
  | cons w rest ih =>
    have hcons : unpackHalves (w :: rest) = field w 0 16 :: field w 16 16 :: unpackHalves rest := rfl
    rw [hcons]
    match i with
    | 0 => rfl
    | 1 => rfl
    | i + 2 =>
      rw [List.getD_cons_succ, List.getD_cons_succ, ih, Nat.add_div_right i (by omega), Nat.add_mod_right, List.getD_cons_succ]

/-- A word of a stretch of a list. -/
theorem getD_take_drop {α : Type} (l : List α) (d : α) {n k i : Nat} (h : i < k) : ((l.drop n).take k).getD i d = l.getD (n + i) d := by
  rw [List.getD_eq_getElem?_getD, List.getElem?_take_of_lt h, List.getElem?_drop, ← List.getD_eq_getElem?_getD]

/-- A failure reason a code names; NONE for one that names none (log 20). -/
theorem failReasonOfCode_code (n : Nat) : (failReasonOfCode n).code = if n ≤ 8 then n else 0 := by
  unfold failReasonOfCode
  split <;> simp_all [FailReason.code]
  omega

/-- The counts of a day record as loaded (Table 12-2). -/
theorem dayOfWords_counts (ws : List Word) (st : DayState) (x : Fin 10) :
    countAt (dayOfWords ws st).openCounts x = field (wordAt ws (4 + x.val / 2)) (16 * (x.val % 2)) 16 ∧
    countAt (dayOfWords ws st).closingCounts x = (wordAt ws (9 + x.val)).toNat := by
  have hx := x.isLt
  constructor
  · refine (vofList_get 10 0 _ _ hx).trans ?_
    rw [getD_unpackHalves, getD_take_drop _ _ (by omega)]
    rfl
  · refine (vofList_get 10 0 _ _ hx).trans ?_
    have hmap : (((ws.drop 9).take 10).map (·.toNat)).getD x.val 0 = (((ws.drop 9).take 10).getD x.val 0).toNat :=
      List.getD_map _ (0 : Word) (fun w : Word => w.toNat)
    rw [hmap, getD_take_drop _ _ hx]
    rfl

/-- The day as it stands after a LOADING (R27, R28, R91). -/
theorem Chip.Ended.day {c t : Chip} (h : c.Ended t) : t.cu.day = if c.su.load.dayRecord.state = .noDay then c.su.load.dayRecord else
    { c.su.load.dayRecord.unwalked with damaged := c.su.load.dayRecord.damaged || !t.ap.journalUsable } := by
  rw [h.cu]
  split <;> rfl

/-- What the walk and the missing JOURNAL do not touch of a day that was loaded. -/
theorem Chip.Ended.day_loaded {c t : Chip} (h : c.Ended t) {st : DayState} (hd : c.su.load.dayRecord = dayOfWords c.su.load.day st) :
    t.cu.day = { dayOfWords c.su.load.day st with
      damaged := flagAt (wordAt c.su.load.day 19) 0 || (st != .noDay && !t.ap.journalUsable) } := by
  have hstate : (dayOfWords c.su.load.day st).state = st := rfl
  rw [h.day, hd, hstate]
  by_cases hn : st = .noDay
  · rw [if_pos hn, hn]
    show _ = { dayOfWords c.su.load.day .noDay with damaged := flagAt (wordAt c.su.load.day 19) 0 || false }
    rw [Bool.or_false]
    rfl
  · rw [if_neg hn, bne_iff_ne.mpr hn, Bool.true_and]
    rfl

/-- The anchor part as read (R27). -/
theorem Chip.Ended.anchor {c t : Chip} (h : c.Ended t) (hl : c.su.load.outcome = .loaded) :
    t.cu.day.state.code = (wordAt c.su.load.day 0).toNat ∧ t.cu.day.date = (wordAt c.su.load.day 1).toNat ∧
    t.cu.day.previousDate = (wordAt c.su.load.day 2).toNat ∧ t.cu.day.first = (wordAt c.su.load.day 3).toNat ∧
    t.cu.day.next = t.cu.day.first ∧ t.cu.day.recordCount = 0 ∧ t.cu.day.hash = 0 ∧ t.cu.day.differenceTotal = 0 ∧
    (∀ x ∈ [t.cu.day.cashIn, t.cu.day.cashOut, t.cu.day.noncashIn, t.cu.day.noncashOut], x = .zero) ∧
    (∀ x : Fin 10, countAt t.cu.day.openCounts x = field (wordAt c.su.load.day (4 + x.val / 2)) (16 * (x.val % 2)) 16 ∧
      countAt t.cu.day.closingCounts x = (wordAt c.su.load.day (9 + x.val)).toNat) ∧
    t.cu.day.damaged = (flagAt (wordAt c.su.load.day 19) 0 || (t.cu.day.state != .noDay && !t.ap.journalUsable)) ∧
    t.cu.day.openingDiff = flagAt (wordAt c.su.load.day 19) 1 ∧ t.cu.day.batch = (wordAt c.su.load.day 20).toNat ∧
    t.cu.day.failure.code = if (wordAt c.su.load.day 21).toNat ≤ 8 then (wordAt c.su.load.day 21).toNat else 0 := by
  obtain ⟨st, hst⟩ := LoadProg.day_of_loaded hl
  have hrecord : c.su.load.dayRecord = dayOfWords c.su.load.day st := by
    unfold LoadProg.dayRecord
    rw [hl, hst]
  rw [h.day_loaded hrecord]
  refine ⟨DayState.code_of_named hst, rfl, rfl, rfl, rfl, rfl, rfl, rfl, ?_, dayOfWords_counts _ st, rfl, rfl, rfl, failReasonOfCode_code _⟩
  intro x hx
  simp only [List.mem_cons, List.not_mem_nil, or_false] at hx
  obtain rfl | rfl | rfl | rfl := hx <;> rfl

/-- The default day record (R28). -/
theorem Chip.Ended.day_defaulted {c t : Chip} (h : c.Ended t) (hl : c.su.load.outcome ≠ .loaded) :
    t.cu.day = { DayRecord.reset with first := 1, next := 1 } := by
  have hrecord : c.su.load.dayRecord = defaultDay := by
    unfold LoadProg.dayRecord
    split
    · next heq _ => exact absurd heq hl
    · rfl
  rw [h.day, hrecord]
  exact if_pos rfl

/-- What a day under way has at the end of LOADING: the walk (R91). -/
theorem Chip.Ended.walk {c t : Chip} (h : c.Ended t) (hd : t.cu.day.state ≠ .noDay) : (∀ i : Fin 13, t.drawer i = .reset) ∧
    t.cu.walk = some (if t.ap.journalUsable = true then ⟨t.cu.day.first, 0, .ready, false, false⟩ else ⟨t.cu.day.first, 0, .ended, true, true⟩) := by
  have hstate : c.su.load.dayRecord.state ≠ .noDay := fun hn => hd (by rw [h.day, if_pos hn]; exact hn)
  have hcu := h.cu
  rw [if_neg hstate] at hcu
  constructor
  · intro i
    unfold Chip.drawer
    rw [hcu]
    exact Vector.getElem_replicate i.isLt
  · rw [hcu]
    rfl

/-- The state of the day decides the unit state and the next number. -/
theorem Chip.Ended.day_state {c t : Chip} (h : c.Ended t) : t.cu.day.state = c.su.load.dayRecord.state ∧ t.cu.day.first = c.su.load.dayRecord.first := by
  rw [h.day]
  split <;> exact ⟨rfl, rfl⟩

/-! ### The host's release -/

/-- The host held back is decoded once the unit state word is written (R13, R29). -/
theorem Chip.releaseHost_spec (c : Chip) (m : List Host.Cell) : (c.ap.host = none → c.releaseHost m = { c with ap := { c.ap with held := false } }) ∧
    ∀ p, c.ap.host = some p → p.phase = .heldLoading → c.releaseHost m = ({ c with ap := { c.ap with held := false } } : Chip).arrive m p.access := by
  unfold Chip.releaseHost
  dsimp only
  constructor
  · intro hn
    split
    · next p hp => exact absurd (hn.symm.trans hp) nofun
    · rfl
  · intro p hp hphase
    split
    · next q hq =>
      cases hq.symm.trans hp
      exact if_pos (beq_iff_eq.mpr hphase)
    · next hn => exact absurd (hn.symm.trans hp) nofun

/-- Settles O17: the end of LOADING is followed part by part (`endLoading_ended`), the values by the outcome of R27; the answer
to the write of the unit state word releases the host. -/
theorem loadingEnds : Obligations.LoadingEnds := by
  refine ⟨fun s hs hc => ?_, fun s hs hc => ?_, fun s op okay hs hport => ?_⟩
  · have hnothing : s.chip.loadingEnd = s.chip := if_neg (by rw [hc]; exact Bool.false_ne_true)
    show Host.Outcome.next (s.act Chip.loadingEnd) = _
    rw [State.act_of_not_prompt s _ hs, hnothing]
  · have hends : s.chip.loadingEnd = s.chip.endLoading := if_pos hc
    have hexec : exec .loadingEnd s = .next { s with chip := s.chip.endLoading } := by
      show Host.Outcome.next (s.act Chip.loadingEnd) = _
      rw [State.act_of_not_prompt s _ hs, hends]
    refine ⟨_, hexec, ?_⟩
    have hended := s.chip.endLoading_ended
    have hloaded := s.chip.takeLoaded_loaded
    generalize s.chip.endLoading = d at hended
    beta_reduce
    intro l ws dw word o day asked
    have ho : o = s.chip.su.load.outcome := (LoadProg.outcome_eq _).symm
    have hfrom (he : s.chip.su.load.outcome = .loaded) : d.su.image = loadedImage ws := hended.image.trans (if_pos he)
    have hdefault (he : s.chip.su.load.outcome ≠ .loaded) : d.su.image = defaultImage := hended.image.trans (if_neg he)
    obtain ⟨hstate, hfirst⟩ := hended.day_state
    rw [ho]
    refine ⟨hended.outcome, fun he => ?_, fun he => ?_, hended.reports, fun hn => ?_, hended.walk, hended.placed, hended.usable,
      hended.ring.1, hended.ring.2, hended.result, ?_, hended.state, hended.host, hended.held, ⟨rfl, rfl, rfl, rfl⟩⟩
    · obtain ⟨hsettings, hcapacity, hceilings, hrest⟩ := Chip.loaded_settings (hfrom he)
      refine ⟨hsettings, hcapacity, hceilings, hrest, fun i hi => ?_, hended.anchor he⟩
      have hdiffers : loadedValue ws i.val ≠ wordAt ws i.val := by
        rw [← loadedImage_get ws i.val i.isLt, ← hfrom he]
        exact hi
      exact (hloaded.back he i hdiffers).imp hended.own.mem hended.own.mem
    · obtain ⟨hplacements, hfaces, hones, hdrawers, hlines, hprinters, hrest⟩ := settings_by_default (hdefault he)
      obtain ⟨hwhole, hcrc⟩ := hloaded.whole he
      exact ⟨hplacements, hfaces, hones, hdrawers, hlines, hprinters, hrest, fun k hk => hended.own.mem (hwhole k hk),
        hended.own.mem hcrc, hended.day_defaulted he⟩
    · exact (hended.next (hstate.symm.trans hn)).trans hfirst.symm
    · refine hended.unit.trans ?_
      rw [← hstate]
  · refine State.completes_answer hs hport okay ?_
    intro told freed
    have htold : told.ap.host = s.chip.ap.host := by
      show (if okay = true then s.chip else s.chip.report .storeError 8 0x008).ap.host = _
      split
      · rfl
      · rw [Chip.report_ap]
    obtain ⟨hnone, hsome⟩ := told.releaseHost_spec (op.answered s.mem okay)
    exact ⟨fun hn => hnone (htold.trans hn), fun p hp hphase => hsome p (htold.trans hp) hphase⟩

end Sys2Proof.Machine
end

section
/-! PROOF. The answer to the read of a key read index, with SU's report list full (O22). -/

namespace Sys2Proof.Machine

/-- The part in READY with SCREENS at 0x40 and REPORT at 0x52, nothing waiting for the store, 16 reports pending and the overflow
flag clear, and the port answering the read of screen 0's key read index. -/
def crowded : State :=
  { State.reset with
    prompt := false
    arb := { Arbiter.reset with port := .own (rSLC 0) (.read 0 4 1) (.keyInit 0 0) false }
    chip := { State.reset.chip with
      own := Vector.replicate 9 []
      su := { SuState.reset with unitState := .ready, reports := List.replicate 16 ⟨.reset, 0, 0, 0⟩ }
      ap := { ApState.reset 0 with
        held := false
        placed := vofList 6 disabledPlacement [disabledPlacement, disabledPlacement, ⟨0x40, 0x4B⟩, disabledPlacement, disabledPlacement, ⟨0x52, 0x52⟩] } } }

/-- The state meets what O22 asks of it. -/
theorem crowded_meets : crowded.prompt = false ∧
    crowded.arb.port = .own (rSLC (lineOf 0)) (.read 0 4 1) (.keyInit 0 (crowded.chip.drop 0).keyEpoch) false ∧
    (crowded.chip.line (lineOf 0)).keys = [] ∧ crowded.chip.screenPresent 0 = true := by decide +kernel

/-- SU has nothing to make before the ERROR, and the write of the overflow flag after it (R33). -/
theorem crowded_overflows : (crowded.chip.own[rSU.val] : List OwnReq) = [] ∧
    ((crowded.answer false).chip.own[rSU.val] : List OwnReq) = [⟨.write (crowded.chip.setupAddr 0x144) [1], .silent, false⟩] := by
  decide +kernel

/-- Refutes O22: a key read index read with ERROR is reported, and with 16 reports pending the report is dropped and SU's write of
the overflow flag asked for (R33), so that not only the line's accesses have changed. -/
theorem not_placementsMove : ¬ Obligations.PlacementsMove := by
  rintro ⟨-, -, -, -, hkeyInit, -⟩
  obtain ⟨hprompt, hport, hkeys, hpresent⟩ := crowded_meets
  obtain ⟨t, ht, -, hown⟩ := hkeyInit crowded 0 0 false hprompt hport hkeys hpresent
  obtain ⟨hbefore, hafter⟩ := crowded_overflows
  obtain rfl : crowded.answer false = t := Host.Outcome.next.inj ((exec_storeAnswer crowded false hprompt).symm.trans ht)
  have hkept : (crowded.answer false).chip.own[rSU.val] = crowded.chip.own[rSU.val] := by
    rw [hown]
    exact vupd_get_ne _ _ _ _ (by decide)
  rw [hkept, hbefore] at hafter
  cases hafter

end Sys2Proof.Machine
end

section
/-! PROOF. The settings' ranges (O14). -/

namespace Sys2Proof.Machine

/-! ### The ranges as functions -/

/-- A clamp at both ends. -/
theorem clampTo_eq {lo hi : Nat} (h : lo ≤ hi) (v : Nat) : clampTo lo hi v = max lo (min v hi) := by
  unfold clampTo
  (repeat' split) <;> omega

/-- A clamp from 0 on is one at the upper end alone. -/
theorem clampTo_zero (hi v : Nat) : clampTo 0 hi v = min v hi := by
  rw [clampTo_eq (Nat.zero_le hi), Nat.zero_max]

/-- Off or on, off by default. -/
theorem clampFlag_off (v : Nat) : clampFlag 0 v = if v = 1 then 1 else 0 := by
  unfold clampFlag
  (repeat' split) <;> omega

/-- Off or on, on by default. -/
theorem clampFlag_on (v : Nat) : clampFlag 1 v = if v = 0 then 0 else 1 := by
  unfold clampFlag
  (repeat' split) <;> omega

/-- A prescale is 1, 4 or 16. -/
theorem clampPrescale_eq (v : Nat) : clampPrescale v = if v = 1 ∨ v = 4 then v else 16 := by
  unfold clampPrescale
  simp only [Bool.or_eq_true, beq_iff_eq]

/-- Seconds, 0 for none. -/
theorem clampSeconds_eq {hi : Nat} (h : 10 ≤ hi) (v : Nat) : clampSeconds hi v = if v = 0 then 0 else max 10 (min v hi) := by
  unfold clampSeconds
  rw [clampTo_eq h]
  simp only [beq_iff_eq]

/-! ### A value in range stays -/

/-- A clamp made twice is made once. -/
theorem clampTo_clampTo {lo hi : Nat} (h : lo ≤ hi) (v : Nat) : clampTo lo hi (clampTo lo hi v) = clampTo lo hi v := by
  simp only [clampTo_eq h]
  omega

/-- So for a flag with a default of its own range. -/
theorem clampFlag_clampFlag {d : Nat} (h : d ≤ 1) (v : Nat) : clampFlag d (clampFlag d v) = clampFlag d v := by
  unfold clampFlag
  (repeat' split) <;> omega

/-- So for a prescale. -/
theorem clampPrescale_clampPrescale (v : Nat) : clampPrescale (clampPrescale v) = clampPrescale v := by
  simp only [clampPrescale_eq]
  (repeat' split) <;> omega

/-- So for seconds. -/
theorem clampSeconds_clampSeconds {hi : Nat} (h : 10 ≤ hi) (v : Nat) : clampSeconds hi (clampSeconds hi v) = clampSeconds hi v := by
  simp only [clampSeconds_eq h]
  (repeat' split) <;> omega

/-- A printer setting brought into range stays (R21). -/
theorem PrnSetting.clamp_clamp (k : PrnSetting) (v : Nat) : k.clamp (k.clamp v) = k.clamp v := by
  cases k
  case present | safeA | safeB | autoRestart => exact clampFlag_clampFlag (by decide) v
  case encPrescale | pwmPrescale => exact clampPrescale_clampPrescale v
  case outPolarity =>
    simp only [PrnSetting.clamp]
    (repeat' split) <;> omega
  all_goals exact clampTo_clampTo (by decide) v

/-- A link setting brought into range stays (R21). -/
theorem LinkSetting.clamp_clamp (k : LinkSetting) (v : Nat) : k.clamp (k.clamp v) = k.clamp v := by
  cases k <;> exact clampTo_clampTo (by decide) v

/-- DECIMALS takes 0, 2 and 3. -/
theorem clamp_decimals (v : Nat) : Setting.decimals.clamp v = if v = 0 then 0 else if v ≤ 2 then 2 else 3 := by
  simp only [Setting.clamp, beq_iff_eq]
  (repeat' split) <;> omega

/-- SEPARATORS takes 0 to 3. -/
theorem clamp_separators (v : Nat) : Setting.separators.clamp v = if v ≤ 3 then v else 0 := by
  simp only [Setting.clamp]
  (repeat' split) <;> omega

/-- LINE_RATE_l takes the four rates. -/
theorem clamp_lineRate (l : Fin 3) (v : Nat) :
    (Setting.lineRate l).clamp v = if v = 19200 ∨ v = 76800 ∨ v = 153600 then v else 38400 := by
  simp only [Setting.clamp, Bool.or_eq_true, beq_iff_eq, or_assoc]

/-- A setting brought into range stays (R21). -/
theorem Setting.clamp_clamp (k : Setting) (v : Nat) : k.clamp (k.clamp v) = k.clamp v := by
  cases k with
  | decimals => simp only [clamp_decimals]; (repeat' split) <;> omega
  | separators => simp only [clamp_separators]; (repeat' split) <;> omega
  | lineRate l => simp only [clamp_lineRate]; (repeat' split) <;> omega
  | bcstSet => exact Nat.mod_mod _ _
  | idleBlank | openLong => exact clampSeconds_clampSeconds (by decide) v
  | scanDir _ | capOverride _ | colour _ | remoteRelease _ => exact clampFlag_clampFlag (by decide) v
  | printer _ k => exact k.clamp_clamp v
  | link k => exact k.clamp_clamp v
  | jnlCapacity | ceiling _ _ => rfl
  | _ => exact clampTo_clampTo (by decide) v

/-! ### The statement -/

/-- The printer settings of one range, row by row (Table 2-2). -/
theorem PrnSetting.clamp_eq :
    (∀ v, ∀ k ∈ [PrnSetting.present, .safeA, .safeB, .autoRestart], k.clamp v = if v = 1 then 1 else 0) ∧
    (∀ v, ∀ k ∈ [PrnSetting.encPrescale, .pwmPrescale], k.clamp v = if v = 1 ∨ v = 4 then v else 16) ∧
    (∀ v, ∀ k ∈ [PrnSetting.pwmPeriod, .approachDist], k.clamp v = max 1 (min v 255)) ∧
    (∀ v, ∀ k ∈ [PrnSetting.runDuty, .approachDuty], k.clamp v = min v 1023) ∧
    ∀ v, ∀ k ∈ [PrnSetting.alignTravel, .ejectTravel], k.clamp v = max 100 (min v 4095) := by
  simp only [List.forall_mem_cons, List.not_mem_nil, false_implies, implies_true, and_true]
  exact ⟨fun v => ⟨clampFlag_off v, clampFlag_off v, clampFlag_off v, clampFlag_off v⟩,
    fun v => ⟨clampPrescale_eq v, clampPrescale_eq v⟩, fun v => ⟨clampTo_eq (by decide) v, clampTo_eq (by decide) v⟩,
    fun v => ⟨clampTo_zero _ v, clampTo_zero _ v⟩, fun v => ⟨clampTo_eq (by decide) v, clampTo_eq (by decide) v⟩⟩

/-- Settles O14: each row by what its clamp is, and a clamp made twice by cases on the setting. -/
theorem settingRanges : Obligations.SettingRanges := by
  have hto {lo hi : Nat} (h : lo ≤ hi) (v : Nat) : clampTo lo hi v = max lo (min v hi) := clampTo_eq h v
  obtain ⟨hflag, hprescale, hfromOne, hduty, htravel⟩ := PrnSetting.clamp_eq
  refine ⟨fun v _ _ => clampTo_zero _ v, clampCapacity_eq, fun v => ?ceiling, clamp_decimals, clamp_separators, fun v _ => clampTo_zero _ v,
    clampTo_zero _, clampSeconds_eq (by decide), hto (by decide), clampSeconds_eq (by decide), fun _ => rfl, clampTo_zero _,
    fun v _ => clampFlag_off v, fun v _ => clampFlag_off v, fun v _ => clampFlag_on v, fun v _ => clampFlag_off v,
    fun v l => clamp_lineRate l v, fun v _ => hto (by decide) v, fun v _ => hto (by decide) v, hto (by decide),
    fun v _ => hflag v, fun v _ => hto (by decide) v, fun v _ => hto (by decide) v, fun v _ => clampTo_zero _ v,
    fun v _ => clampTo_zero _ v, fun v _ => hprescale v, fun v _ => hfromOne v,
    fun v _ => hduty v, fun v _ => hto (by decide) v, fun v _ => clampTo_zero _ v, fun v _ => hto (by decide) v,
    fun v _ => htravel v, fun v _ => hto (by decide) v, fun v _ => rfl, hto (by decide), hto (by decide),
    fun v k hk => ?retries, hto (by decide), hto (by decide), hto (by decide), hto (by decide), Setting.clamp_clamp⟩
  case ceiling =>
    show (if v ≤ 999999999999 then v else 999999999999) = _
    split <;> omega
  case retries =>
    simp only [List.mem_cons, List.not_mem_nil, or_false] at hk
    obtain rfl | rfl := hk <;> exact hto (by decide) v

end Sys2Proof.Machine
end

section
/-! PROOF. Reports made, written to the ring and delivered (O42). -/

namespace Sys2Proof.Machine

/-! ### The overflow flag -/

/-- SU's state once a report has been dropped: the flag of an enabled REPORT is set (R33). -/
theorem Chip.setOverflow_su (c : Chip) :
    c.setOverflow.su = { c.su with overflow := c.su.overflow || c.windowEnabled .report } := by
  unfold Chip.setOverflow
  split
  · next h =>
    have hflag : (c.su.overflow || c.windowEnabled .report) = true := by grind
    rw [hflag]
    rfl
  · next h =>
    have hflag : (c.su.overflow || c.windowEnabled .report) = c.su.overflow := by grind
    rw [hflag]

/-- With REPORT enabled the flag's word is written where the flag was clear (R34). -/
theorem Chip.setOverflow_own (c : Chip) (hw : c.windowEnabled .report = true) : c.setOverflow.own =
    if c.su.overflow = true then c.own else vupd c.own rSU (· ++ [⟨.write (c.setupAddr 0x144) [1], .silent, false⟩]) := by
  unfold Chip.setOverflow
  cases ho : c.su.overflow
  · simp [hw]
  · simp

/-- A report made with 16 waiting is dropped (R33). -/
theorem Chip.report_of_full (c : Chip) (k : ReportKind) (i d : Nat) (h : 16 ≤ c.su.reports.length) : c.report k i d = c.setOverflow :=
  if_neg (not_lt.mpr h)

/-! ### The oldest report -/

/-- The part with the oldest report taken from the list. -/
def Chip.withReports (c : Chip) (rest : List Report) : Chip := c.onSu fun u => { u with reports := rest }

/-- REPORT_WRITE with a report waiting and none being written (R34). -/
theorem Chip.reportWrite_eq {c : Chip} {r : Report} {rest : List Report} (hw : c.su.writing = none) (hr : c.su.reports = r :: rest) :
    c.reportWrite =
      if c.windowEnabled .report = false then c.withReports rest
      else if (c.su.writeIndex + 1) % 64 = c.su.readIndex then (c.withReports rest).setOverflow
      else (c.onSu fun u => { u with reports := rest, writing := some r }).push rSU
        (.write (c.windowBase .report + 16 * c.su.writeIndex) [wd r.kind.code, wd r.index, wd r.detail, wd r.count])
        (.repEntry c.su.epoch) := by
  unfold Chip.reportWrite
  rw [hw, hr]
  have henabled : (!c.windowEnabled .report) = true ↔ c.windowEnabled .report = false := by simp
  exact if_congr henabled rfl (if_congr beq_iff_eq rfl rfl)

/-- REPORT_WRITE acts on the part. -/
theorem exec_reportWrite (s : State) (h : s.prompt = false) : exec .reportWrite s = .next { s with chip := s.chip.reportWrite } :=
  congrArg Host.Outcome.next (State.act_of_not_prompt s Chip.reportWrite h)

/-- REPORT_WRITE, by whether REPORT is enabled and the ring full (R34). -/
theorem reportWrite_written (s : State) (r : Report) (rest : List Report) (hp : s.prompt = false) (hw : s.chip.su.writing = none)
    (hr : s.chip.su.reports = r :: rest) :
    let c := s.chip
    let full := (c.su.writeIndex + 1) % 64 = c.su.readIndex
    (c.windowEnabled .report = false → exec .reportWrite s = .next { s with chip := c.onSu fun u => { u with reports := rest } }) ∧
    (c.windowEnabled .report = true → full → Completes .reportWrite s fun t =>
      t.chip.su = { c.su with reports := rest, overflow := true } ∧ s.Only [.su, .own] t ∧
      t.chip.own = (if c.su.overflow = true then c.own
        else vupd c.own rSU (· ++ [⟨.write (c.setupAddr 0x144) [1], .silent, false⟩]))) ∧
    (c.windowEnabled .report = true → ¬ full → exec .reportWrite s = .next
      { s with chip := (c.onSu fun u => { u with reports := rest, writing := some r }).push rSU
                  (.write (c.windowBase .report + 16 * c.su.writeIndex) [wd r.kind.code, wd r.index, wd r.detail, wd r.count])
                  (.repEntry c.su.epoch) }) := by
  intro c full
  have hexec := exec_reportWrite s hp
  rw [Chip.reportWrite_eq hw hr] at hexec
  refine ⟨fun he => ?_, fun he hfull => ?_, fun he hfull => ?_⟩
  · rw [hexec, if_pos he]
    rfl
  · rw [if_neg (by rw [he]; decide), if_pos hfull] at hexec
    have he' : (c.withReports rest).windowEnabled .report = true := he
    refine ⟨_, hexec, ?_, ⟨⟨rfl, rfl, rfl, rfl⟩, ?_⟩, (c.withReports rest).setOverflow_own he'⟩
    · show (c.withReports rest).setOverflow.su = _
      rw [Chip.setOverflow_su, he', Bool.or_true]
      rfl
    · constructor <;> simp [Chip.withReports]
  · rw [hexec, if_neg (by rw [he]; decide), if_neg hfull]

/-! ### The answers -/

/-- The answer to the entry's write asks for the index word (R34). -/
theorem Chip.entryAnswered_eq (c : Chip) (okay : Bool) : c.entryAnswered c.su.epoch okay = if okay = true then
    c.push rSU (.write (c.setupAddr 0x140) [wd ((c.su.writeIndex + 1) % 64)]) (.repIndex c.su.epoch)
    else c.onSu fun u => { u with writing := none } := by
  unfold Chip.entryAnswered
  exact if_neg (by simp)

/-- The answer to the index word's write ends the report, delivered by an OKAY (R34). -/
theorem Chip.indexAnswered_eq (c : Chip) (okay : Bool) : c.indexAnswered c.su.epoch okay = c.onSu fun u =>
    { u with writing := none, writeIndex := if okay = true then (u.writeIndex + 1) % 64 else u.writeIndex } := by
  unfold Chip.indexAnswered
  refine (if_neg (by simp)).trans ?_
  cases okay <;> rfl

/-- Settles O42: a report made with room or without, the oldest one taken, and the two answers of its writes. -/
theorem reportsWritten : Obligations.ReportsWritten := by
  refine ⟨fun c k i d => ⟨c.report_of_room k i d, fun hfull => ?_⟩, reportWrite_written, fun s op okay hp => ⟨fun hport => ?_, fun hport => ?_⟩⟩
  · rw [c.report_of_full k i d hfull, Chip.setOverflow_su]
  · exact State.completes_answer hp hport okay (s.chip.entryAnswered_eq okay)
  · exact State.completes_answer hp hport okay (s.chip.indexAnswered_eq okay)

end Sys2Proof.Machine
end

section
/-! PROOF. The step on an empty queue: a CLK period, and a millisecond after 24,000 of them (O2). -/

namespace Sys2Proof.Machine

/-! ### Lines, printers and Feed Drives in a CLK period -/

/-- What a CLK period makes of a line (R119, R133). -/
def Line.Ticked (a b : Line) : Prop :=
  b.pointer = a.pointer ∧ b.keys = a.keys ∧ b.rate = a.rate ∧ b.gap = a.gap ∧
  (∀ d f left reply, a.use = .sending d f left reply → b.use = .sending d f (left - 1) reply ∧ b.quiet = a.quiet) ∧
  (∀ byte bit left, a.use = .stopping byte bit (left + 2) → b.use = .stopping byte bit (left + 1)) ∧
  (∀ byte bit left, a.use = .stopping byte bit left → left ≤ 1 → b.use = .free ∧ b.quiet = 0) ∧
  (∀ d f, a.use = .free ∨ a.use = .gap d f → b.use = a.use ∧ b.quiet = a.quiet + 1)

/-- A line that awaits no answer does not see the millisecond (R120). -/
theorem Line.msTick_of_ne {a : Line} (h : ∀ d f left, a.use ≠ .awaiting d f left) : a.msTick = a := by
  unfold Line.msTick
  split
  · next he => exact absurd he (h _ _ _)
  · rfl

/-- The millisecond leaves all of a line but its use. -/
theorem Line.msTick_keeps (a : Line) : a.msTick.pointer = a.pointer ∧ a.msTick.keys = a.keys ∧ a.msTick.rate = a.rate ∧
    a.msTick.gap = a.gap := by
  unfold Line.msTick
  split <;> exact ⟨rfl, rfl, rfl, rfl⟩

/-- A line moves on by a CLK period. -/
theorem Line.tick_ticked (a : Line) : a.Ticked a.tick := by
  unfold Line.Ticked Line.tick
  cases hu : a.use with
  | stopping b bit left =>
    by_cases hl : left ≤ 1
    · simp [hl]
      omega
    · simp [hl]
      omega
  | _ => simp +contextual

/-- A millisecond beside it changes nothing of that. -/
theorem Line.Ticked.ms {a b : Line} (h : a.Ticked b) : a.Ticked b.msTick := by
  obtain ⟨hpointer, hkeys, hrate, hgap, hsending, hstopping, hstopped, hidle⟩ := h
  obtain ⟨hp, hk, hr, hg⟩ := b.msTick_keeps
  have kept {u : LineUse} (hu : b.use = u) (hne : ∀ d f left, u ≠ .awaiting d f left) : b.msTick = b :=
    Line.msTick_of_ne fun d f left => hu ▸ hne d f left
  refine ⟨hp.trans hpointer, hk.trans hkeys, hr.trans hrate, hg.trans hgap, fun d f left reply hu => ?_, fun byte bit left hu => ?_,
    fun byte bit left hu hl => ?_, fun d f hu => ?_⟩
  · rw [kept (hsending d f left reply hu).1 nofun]
    exact hsending d f left reply hu
  · rw [kept (hstopping byte bit left hu) nofun]
    exact hstopping byte bit left hu
  · rw [kept (hstopped byte bit left hu hl).1 nofun]
    exact hstopped byte bit left hu hl
  · rw [kept (hidle d f hu).1 (by obtain hu | hu := hu <;> rw [hu] <;> nofun)]
    exact hidle d f hu

/-- A CLK period leaves a line that awaits an answer as it is, but for the quiet time; a millisecond moves its reply time (R120). -/
theorem Line.awaiting_ms {a : Line} {d : Fin 4} {f : LineFrame} {left : Nat} (h : a.use = .awaiting d f left) :
    a.tick.msTick.use = .awaiting d f (left - 1) := by
  simp [Line.tick, Line.msTick, h]

/-- What a CLK period makes of a printer (R144, R147). -/
def Printer.Ticked (a b : Printer) : Prop :=
  b.state = a.state ∧ b.queue = a.queue ∧ b.service = a.service ∧
  (∀ m left, a.head = .sending m left → b.head = .sending m (left - 1)) ∧
  (∀ char left, a.head = .stopping char left → b.head = if left ≤ 1 then .idle else .stopping char (left - 1))

/-- A printer moves on by a CLK period. -/
theorem Printer.tick_ticked (a : Printer) : a.Ticked a.tick := by
  unfold Printer.Ticked Printer.tick
  cases hh : a.head <;> simp

/-- A millisecond leaves all of a printer but its head. -/
theorem Printer.msTick_keeps (a : Printer) : a.msTick.state = a.state ∧ a.msTick.queue = a.queue ∧ a.msTick.service = a.service := by
  unfold Printer.msTick
  split <;> exact ⟨rfl, rfl, rfl⟩

/-- A head that is not awaited does not see the millisecond (R144). -/
theorem Printer.msTick_of_ne {a : Printer} (h : ∀ left, a.head ≠ .awaiting left) : a.msTick = a := by
  unfold Printer.msTick
  split
  · next he => exact absurd he (h _)
  · rfl

/-- A millisecond beside a CLK period changes nothing of a message. -/
theorem Printer.Ticked.ms {a b : Printer} (h : a.Ticked b) : a.Ticked b.msTick := by
  obtain ⟨hstate, hqueue, hservice, hsending, hstopping⟩ := h
  obtain ⟨hs, hq, hv⟩ := b.msTick_keeps
  have kept {x : HeadUse} (hx : b.head = x) (hne : ∀ left, x ≠ .awaiting left) : b.msTick.head = x := by
    rw [Printer.msTick_of_ne fun left => hx ▸ hne left, hx]
  refine ⟨hs.trans hstate, hq.trans hqueue, hv.trans hservice, fun m left hu => kept (hsending m left hu) nofun,
    fun char left hu => kept (hstopping char left hu) fun k => ?_⟩
  split <;> nofun

/-- A millisecond moves the wait for the head's answer (R144). -/
theorem Printer.awaiting_ms {a : Printer} {left : Nat} (h : a.head = .awaiting left) : a.tick.msTick.head = .awaiting (left - 1) := by
  simp [Printer.tick, Printer.msTick, h]

/-- What a CLK period makes of a Feed Drive with prescale `prescale` and `period` steps in a period (R152). -/
def Feed.Ticked (prescale period : Nat) (a b : Feed) : Prop :=
  b.mode = a.mode ∧ b.duty = a.duty ∧ b.position = a.position ∧ b.travel = a.travel ∧ b.latch = a.latch ∧
  (a.stepClk + 1 < prescale → b.stepClk = a.stepClk + 1 ∧ b.step = a.step ∧ ∀ o : Fin 4, b.output o = a.output o) ∧
  (prescale ≤ a.stepClk + 1 → b.stepClk = 0 ∧ b.step = min period (a.step + 1) ∧
    ∀ o : Fin 4, (b.output o).active = (a.output o).active ∧ (b.output o).wait = (a.output o).wait.map (· - 1))

/-- A Feed Drive moves on by a CLK period. -/
theorem Feed.tick_ticked (a : Feed) (prescale period : Nat) : Feed.Ticked prescale period a (a.tick prescale period) := by
  unfold Feed.tick
  by_cases h : a.stepClk + 1 < prescale
  · rw [if_pos h]
    exact ⟨rfl, rfl, rfl, rfl, rfl, fun _ => ⟨rfl, rfl, fun _ => rfl⟩, fun hle => absurd h (not_lt.mpr hle)⟩
  · rw [if_neg h]
    refine ⟨rfl, rfl, rfl, rfl, rfl, fun hlt => absurd hlt h, fun _ => ⟨rfl, rfl, fun o => ?_⟩⟩
    match o with
    | 0 => exact ⟨rfl, rfl⟩
    | 1 => exact ⟨rfl, rfl⟩
    | 2 => exact ⟨rfl, rfl⟩
    | 3 => exact ⟨rfl, rfl⟩

/-- A CLK period leaves the mode and the stall timer. -/
theorem Feed.tick_keeps (a : Feed) (prescale period : Nat) :
    (a.tick prescale period).mode = a.mode ∧ (a.tick prescale period).stallMs = a.stallMs := by
  unfold Feed.tick
  split <;> exact ⟨rfl, rfl⟩

/-- A millisecond moves the stall timer of a Feed Drive that drives, and nothing else (R160). -/
theorem Feed.msTick_eq (a : Feed) :
    a.msTick = { a with stallMs := if a.mode = .forward ∨ a.mode = .reverse then a.stallMs + 1 else a.stallMs } := by
  have hdrives : a.mode.drives = true ↔ a.mode = .forward ∨ a.mode = .reverse := by
    cases a.mode <;> simp [BridgeMode.drives]
  unfold Feed.msTick
  by_cases h : a.mode = .forward ∨ a.mode = .reverse
  · rw [if_pos (hdrives.mpr h), if_pos h]
  · rw [if_neg (mt hdrives.mp h), if_neg h]

/-- A millisecond beside a CLK period changes nothing of the modulation. -/
theorem Feed.Ticked.ms {prescale period : Nat} {a b : Feed} (h : Feed.Ticked prescale period a b) :
    Feed.Ticked prescale period a b.msTick := by
  rw [Feed.msTick_eq]
  exact h

/-! ### The part in a CLK period -/

/-- The four Feed Drives at a CLK period. -/
theorem Chip.feedTicks_feed (c : Chip) (n : Fin 4) :
    c.feedTicks.feed n = (c.feed n).tick (c.prn n .pwmPrescale) (c.period n) := by
  match n with
  | 0 => simp [Chip.feedTicks, printers, Chip.feed, Chip.onFeed, vupd_get]
  | 1 => simp [Chip.feedTicks, printers, Chip.feed, Chip.onFeed, vupd_get]; rfl
  | 2 => simp [Chip.feedTicks, printers, Chip.feed, Chip.onFeed, vupd_get]; rfl
  | 3 => simp [Chip.feedTicks, printers, Chip.feed, Chip.onFeed, vupd_get]; rfl

/-- The part once Feed Drives, lines and head messages have moved on by a CLK period (R119, R144, R152). -/
def Chip.clkTick (c : Chip) : Chip :=
  { c with
    fd := c.feedTicks.fd
    slc := { c.slc with lines := vmap Line.tick c.slc.lines }
    pru := { c.pru with printers := vmap Printer.tick c.pru.printers } }

/-- Within a millisecond the CLK count goes up (R30). -/
theorem Chip.tick_within {c : Chip} (h : c.su.clk + 1 < 24000) : c.tick = c.clkTick.onSu fun u => { u with clk := u.clk + 1 } :=
  if_pos h

/-- Every 24,000th makes a millisecond (R30). -/
theorem Chip.tick_millisecond {c : Chip} (h : 24000 ≤ c.su.clk + 1) : c.tick = c.clkTick.msTick := if_neg (not_lt.mpr h)

/-- In both cases only what has a clock changes. -/
theorem Chip.tick_only (c : Chip) : c.Only [.su, .scu, .slc, .pru, .fd, .hlc] c.tick := by
  obtain h | h := Nat.lt_or_ge (c.su.clk + 1) 24000
  · rw [Chip.tick_within h]
    constructor <;> simp [Chip.clkTick]
  · rw [Chip.tick_millisecond h]
    constructor <;> simp [Chip.clkTick, Chip.msTick]

/-- A line in a CLK period, with the millisecond or without. -/
theorem Chip.tick_line (c : Chip) (l : Fin 3) : (c.line l).Ticked (c.tick.line l) := by
  have hclk : c.clkTick.line l = (c.line l).tick := vmap_get _ _ _ _
  obtain h | h := Nat.lt_or_ge (c.su.clk + 1) 24000
  · rw [Chip.tick_within h, Chip.line_onSu, hclk]
    exact (c.line l).tick_ticked
  · have hms : c.clkTick.msTick.line l = (c.clkTick.line l).msTick := vmap_get _ _ _ _
    rw [Chip.tick_millisecond h, hms, hclk]
    exact (c.line l).tick_ticked.ms

/-- A printer in a CLK period, with the millisecond or without. -/
theorem Chip.tick_printer (c : Chip) (n : Fin 4) : (c.printer n).Ticked (c.tick.printer n) := by
  have hclk : c.clkTick.printer n = (c.printer n).tick := vmap_get _ _ _ _
  obtain h | h := Nat.lt_or_ge (c.su.clk + 1) 24000
  · rw [Chip.tick_within h, Chip.printer_onSu, hclk]
    exact (c.printer n).tick_ticked
  · have hms : c.clkTick.msTick.printer n = (c.clkTick.printer n).msTick := vmap_get _ _ _ _
    rw [Chip.tick_millisecond h, hms, hclk]
    exact (c.printer n).tick_ticked.ms

/-- A Feed Drive in a CLK period, with the millisecond or without. -/
theorem Chip.tick_feed (c : Chip) (n : Fin 4) :
    Feed.Ticked (c.prn n .pwmPrescale) (4 * (c.prn n .pwmPeriod + 1)) (c.feed n) (c.tick.feed n) := by
  have hclk : c.clkTick.feed n = (c.feed n).tick (c.prn n .pwmPrescale) (c.period n) := c.feedTicks_feed n
  obtain h | h := Nat.lt_or_ge (c.su.clk + 1) 24000
  · rw [Chip.tick_within h, Chip.feed_onSu, hclk]
    exact (c.feed n).tick_ticked _ _
  · have hms : c.clkTick.msTick.feed n = (c.clkTick.feed n).msTick := vmap_get _ _ _ _
    rw [Chip.tick_millisecond h, hms, hclk]
    exact ((c.feed n).tick_ticked _ _).ms

/-- The stall timer in a CLK period without the millisecond, and with it (R160). -/
theorem Chip.clkTick_stall (c : Chip) (n : Fin 4) : (c.clkTick.feed n).stallMs = (c.feed n).stallMs ∧
    (c.clkTick.msTick.feed n).stallMs =
      if (c.feed n).mode = .forward ∨ (c.feed n).mode = .reverse then (c.feed n).stallMs + 1 else (c.feed n).stallMs := by
  have hclk : c.clkTick.feed n = (c.feed n).tick (c.prn n .pwmPrescale) (c.period n) := c.feedTicks_feed n
  have hms : c.clkTick.msTick.feed n = (c.clkTick.feed n).msTick := vmap_get _ _ _ _
  obtain ⟨hmode, hstall⟩ := (c.feed n).tick_keeps (c.prn n .pwmPrescale) (c.period n)
  rw [hms, hclk, Feed.msTick_eq, hmode, hstall]
  exact ⟨rfl, rfl⟩

/-- Settles O2: the parts of a CLK period, and of the millisecond that every 24,000th makes. -/
theorem idleStepIsTick : Obligations.IdleStepIsTick := by
  intro s hpending hp
  have hidle : step s = .next s.idleStep := by
    unfold step
    rw [hpending]
  have hstep : step s = .next { s with chip := s.chip.tick } :=
    hidle.trans (congrArg Host.Outcome.next (State.act_of_not_prompt s Chip.tick hp))
  refine ⟨_, hstep, ⟨⟨rfl, rfl, rfl, rfl⟩, s.chip.tick_only⟩, s.chip.tick_line, s.chip.tick_printer, s.chip.tick_feed,
    fun h => ?within, fun h => ?millisecond⟩
  case within =>
    rw [Chip.tick_within h]
    exact ⟨rfl, rfl, rfl, rfl, fun n => (s.chip.clkTick_stall n).1⟩
  case millisecond =>
    have hline (l : Fin 3) : s.chip.clkTick.msTick.line l = (s.chip.line l).tick.msTick :=
      (vmap_get _ _ _ _).trans (congrArg Line.msTick (vmap_get _ _ _ _))
    have hprinter (n : Fin 4) : s.chip.clkTick.msTick.printer n = (s.chip.printer n).tick.msTick :=
      (vmap_get _ _ _ _).trans (congrArg Printer.msTick (vmap_get _ _ _ _))
    rw [Chip.tick_millisecond h]
    refine ⟨rfl, fun p => vmap_get _ _ _ _, fun p => vmap_get _ _ _ _, fun l d f left hu => ?_, fun n left hh => ?_,
      fun n => (s.chip.clkTick_stall n).2, rfl⟩
    · rw [hline]
      exact Line.awaiting_ms hu
    · rw [hprinter]
      exact Printer.awaiting_ms hh

end Sys2Proof.Machine
end

section
/-! PROOF. Requests: held, judged, served with their operands, and ended (O32; also for O24 and O34). -/

namespace Sys2Proof.Machine

/-! ### Frames -/

/-- What two steps change together. -/
theorem Chip.Only.trans {ps qs rs : List Part} {c d e : Chip} (h : c.Only ps d) (h' : d.Only qs e) (hp : ∀ x ∈ ps, x ∈ rs)
    (hq : ∀ x ∈ qs, x ∈ rs) : c.Only rs e := by
  have out {x : Part} (hx : x ∉ rs) : x ∉ ps ∧ x ∉ qs := ⟨fun h => hx (hp x h), fun h => hx (hq x h)⟩
  exact ⟨fun n => (h'.ap (out n).2).trans (h.ap (out n).1), fun n => (h'.own (out n).2).trans (h.own (out n).1),
    fun n => (h'.su (out n).2).trans (h.su (out n).1), fun n => (h'.ju (out n).2).trans (h.ju (out n).1),
    fun n => (h'.cu (out n).2).trans (h.cu (out n).1), fun n => (h'.scu (out n).2).trans (h.scu (out n).1),
    fun n => (h'.slc (out n).2).trans (h.slc (out n).1), fun n => (h'.pru (out n).2).trans (h.pru (out n).1),
    fun n => (h'.fd (out n).2).trans (h.fd (out n).1), fun n => (h'.hlc (out n).2).trans (h.hlc (out n).1),
    fun n => (h'.pins (out n).2).trans (h.pins (out n).1), fun n => (h'.free (out n).2).trans (h.free (out n).1)⟩

/-! ### A request held -/

/-- Every request command writes its code to the request word. -/
theorem exec_requestWritten {i : Instr} {code : Nat} (h : requestWritten i = some code) :
    ∃ w : Word, w.toNat = code ∧ exec i = fun s => .next (s.host fun m c => c.writeRequest m w) := by
  cases i <;> cases h <;> exact ⟨_, rfl, rfl⟩

/-- The part with a request in service and the host access `p` held for it. -/
def Chip.inService (c : Chip) (p : HostProg) (code : Nat) : Chip :=
  (c.withHost (some p) none).onSu fun u => { u with request := some code }

/-- Only AP and SU know of the request in service. -/
theorem Chip.inService_only (c : Chip) (p : HostProg) (code : Nat) : c.Only [.ap, .su] (c.inService p code) := by
  constructor <;> simp [Chip.inService]

/-- A code written to the request word that the host reaches is held, and judged (R31). The access needs nothing of the
store. -/
theorem State.HostFree.request_held {s : State} (hs : s.HostFree) (hw : s.chip.SetupWord 0x100) {i : Instr} {w : Word}
    (hi : exec i = fun s => .next (s.host fun m c => c.writeRequest m w)) :
    ∃ p : HostProg, p.nextOp = none ∧ exec i s = .next { s with chip := (s.chip.withHost (some p) none).requestHeld w } := by
  have hwr : s.Writes i .setup 0x100 w allBytes :=
    hs.writes (addr := fun c => c.setupAddr 0x100) (congrFun hi s) (s.chip.setupAddr_eq _) hw (by decide)
  have hans : s.chip.setupAnswer s.mem 0x100 w = .hold (.request w) :=
    (Chip.setupAnswer_of_none (by decide)).trans (if_pos rfl)
  exact ⟨_, rfl, hwr.held hs (by decide) (fun _ => rfl) hans⟩

/-- The part with the result of a request asked for: DONE, or refused (R32). -/
def Chip.endsWith (c : Chip) (code : Nat) (reason : Option Reason) (detail : Nat) : Chip :=
  { c with own := vupd c.own rSU (· ++ [resultAsked c code reason detail]) }

/-- Only SU's accesses know of it. -/
theorem Chip.endsWith_only (c : Chip) (code : Nat) (reason : Option Reason) (detail : Nat) :
    c.Only [.own] (c.endsWith code reason detail) := by
  constructor <;> simp [Chip.endsWith]

/-- SU writes the result area of the request in service (R32). -/
theorem Chip.finishRequest_eq {c : Chip} {code : Nat} (h : c.su.request = some code) (reason : Option Reason) (detail : Nat) :
    c.finishRequest reason detail = c.endsWith code reason detail := by
  unfold Chip.finishRequest
  rw [h]
  rfl

/-- DONE (R31). -/
theorem Chip.requestDone_eq {c : Chip} {code : Nat} (h : c.su.request = some code) : c.requestDone = c.endsWith code none 0 :=
  Chip.finishRequest_eq h none 0

/-- Refused (R31). -/
theorem Chip.requestRefused_eq {c : Chip} {code : Nat} (h : c.su.request = some code) (why : Reason) (detail : Nat) :
    c.requestRefused why detail = c.endsWith code (some why) detail := Chip.finishRequest_eq h (some why) detail

/-- BAD_OPERAND (R31). -/
theorem Chip.badOperand_eq {c : Chip} {code : Nat} (h : c.su.request = some code) :
    c.badOperand = c.endsWith code (some .badOperand) 0 := Chip.requestRefused_eq h .badOperand 0

/-- A code that names no request is refused (R31). -/
theorem Chip.requestHeld_unnamed (c : Chip) (p : HostProg) {w : Word} (h : requestOfCode w.toNat = none) :
    (c.withHost (some p) none).requestHeld w = (c.inService p w.toNat).endsWith w.toNat (some .badRequest) 0 := by
  unfold Chip.requestHeld
  dsimp only
  rw [h]
  exact Chip.requestRefused_eq rfl .badRequest 0

/-- REBUILDING refuses a request that it does not serve (R31). -/
theorem Chip.requestHeld_notReady {c : Chip} (p : HostProg) {w : Word} {r : Request} (h : requestOfCode w.toNat = some r)
    (hu : c.su.unitState = .rebuilding) (hr : r.whileRebuilding = false) :
    (c.withHost (some p) none).requestHeld w = (c.inService p w.toNat).endsWith w.toNat (some .notReady) 0 := by
  have hcond : (c.su.unitState == .rebuilding && !r.whileRebuilding) = true := by
    rw [hu, hr]
    rfl
  unfold Chip.requestHeld
  dsimp only
  rw [h]
  exact (if_pos hcond).trans (Chip.requestRefused_eq rfl .notReady 0)

/-- Any other request without operands is served at once (R31). -/
theorem Chip.requestHeld_bare {c : Chip} (p : HostProg) {w : Word} {r : Request} (h : requestOfCode w.toNat = some r)
    (hu : c.su.unitState ≠ .rebuilding ∨ r.whileRebuilding = true) (hr : r.hasOperands = false) :
    (c.withHost (some p) none).requestHeld w = (c.inService p w.toNat).serveBare r := by
  have hcond : ¬ (c.su.unitState == .rebuilding && !r.whileRebuilding) = true := by
    simpa [imp_iff_not_or] using hu
  unfold Chip.requestHeld
  dsimp only
  rw [h]
  exact (if_neg hcond).trans (if_neg (by rw [hr]; exact Bool.false_ne_true))

/-- Any other request with operands has them read (R31). -/
theorem Chip.requestHeld_operands {c : Chip} (p : HostProg) {w : Word} {r : Request} (h : requestOfCode w.toNat = some r)
    (hu : c.su.unitState ≠ .rebuilding ∨ r.whileRebuilding = true) (hr : r.hasOperands = true) :
    (c.withHost (some p) none).requestHeld w =
      (c.inService p w.toNat).push rSU (.read (c.setupAddr 0x104) 4 2) (.operands r.code) := by
  have hcond : ¬ (c.su.unitState == .rebuilding && !r.whileRebuilding) = true := by
    simpa [imp_iff_not_or] using hu
  unfold Chip.requestHeld
  dsimp only
  rw [h]
  exact (if_neg hcond).trans (if_pos hr)

/-! ### LINK_RESET -/

/-- A DOWN link calls when the line is ready (R177). -/
theorem Chip.callIfReady_hlc {c : Chip} (hl : c.hlc.link = .down) (hu : c.su.unitState ≠ .loading) :
    c.callIfReady.hlc.link = (if c.lineReady = true then .calling else .down) ∧ c.callIfReady.hlc.errors = c.hlc.errors ∧
    c.callIfReady.hlc.send = c.hlc.send := by
  have hcond : (c.su.unitState != .loading && c.hlc.link == .down && c.lineReady) = c.lineReady := by simp [hl, hu]
  unfold Chip.callIfReady
  rw [hcond]
  split
  · exact ⟨rfl, rfl, rfl⟩
  · exact ⟨hl, rfl, rfl⟩

/-- The link goes DOWN by LINK_RESET: no errors, an ACTIVE or HELD send SUSPENDED, and CALLING at once when the line is ready
(R178, R193). -/
theorem Chip.linkDown_reset_hlc {c : Chip} (hu : c.su.unitState ≠ .loading) :
    (c.linkDown .reset).hlc.link = (if c.lineReady = true then .calling else .down) ∧ (c.linkDown .reset).hlc.errors = 0 ∧
    (c.linkDown .reset).hlc.send = c.hlc.send.map fun x => if x.state = .active ∨ x.state = .held then
      { x with state := .suspended, resend := none, ackTimer := none, holdTimer := none,
               resumeTimer := some (c.linkSet .resumeTime * 60000) } else x := by
  unfold Chip.linkDown
  dsimp only
  generalize hd : c.onHlc _ = d
  generalize he : (if (c.hlc.link == .up) = true then d.report .linkDown 0 LinkCause.reset.code else d) = e
  have hgist : e.gist = d.gist := by
    rw [← he]
    split <;> simp
  have hhlc : e.hlc = d.hlc := by
    rw [← he]
    split <;> simp
  have hpins : e.pins = c.pins := by
    rw [← he, ← hd]
    split <;> simp
  have himage : e.su.image = c.su.image := (congrArg Gist.image hgist).trans (by rw [← hd]; rfl)
  have hunit : e.su.unitState = c.su.unitState := (congrArg Gist.unit hgist).trans (by rw [← hd]; rfl)
  have hready : e.suspendSend.lineReady = c.lineReady := by
    unfold Chip.lineReady
    rw [Chip.suspendSend_pins, hpins]
  have htime : e.linkSet .resumeTime = c.linkSet .resumeTime := Chip.setting_congr himage _
  have hdown : e.hlc.link = .down ∧ e.hlc.errors = 0 ∧ e.hlc.send = c.hlc.send := by
    rw [hhlc, ← hd]
    exact ⟨rfl, rfl, rfl⟩
  obtain ⟨hlink, herrors, hsend⟩ := hdown
  obtain ⟨hl, her, hse⟩ := Chip.callIfReady_hlc (c := e.suspendSend) hlink (by rw [Chip.suspendSend_su, hunit]; exact hu)
  refine ⟨hl.trans (by rw [hready]), her.trans herrors, hse.trans ?_⟩
  show e.hlc.send.map _ = _
  rw [hsend]
  refine congrArg (Option.map · c.hlc.send) (funext fun x => ?_)
  unfold Chip.resumeTime
  rw [htime]
  exact if_congr (by rw [Bool.or_eq_true, beq_iff_eq, beq_iff_eq]) rfl rfl

/-- LINK_RESET as it is served: the link (R193, R178), and the request about to end DONE. -/
theorem Chip.serveLinkReset_spec {c : Chip} {code : Nat} (hu : c.su.unitState ≠ .loading) (hr : c.su.request = some code) :
    c.serveLinkReset.hlc.link = (if c.lineReady = true then .calling else .down) ∧ c.serveLinkReset.hlc.errors = 0 ∧
    c.serveLinkReset.hlc.send = (if c.hlc.link = .down then c.hlc.send
      else c.hlc.send.map fun x => if x.state = .active ∨ x.state = .held then
        { x with state := .suspended, resend := none, ackTimer := none, holdTimer := none,
                 resumeTimer := some (c.linkSet .resumeTime * 60000) } else x) ∧
    (c.serveLinkReset.own[rSU.val] : List OwnReq).getLast? = some (resultAsked c code none 0) ∧
    c.Only [.su, .hlc, .own] c.serveLinkReset := by
  have hserve : c.serveLinkReset =
      (if c.hlc.link = .down then (c.onHlc fun h => { h with errors := 0 }).callIfReady else c.linkDown .reset).requestDone :=
    congrArg Chip.requestDone (if_congr beq_iff_eq rfl rfl)
  rw [hserve]
  generalize hd : (if c.hlc.link = .down then (c.onHlc fun h => { h with errors := 0 }).callIfReady else c.linkDown .reset) = d
  have hreq : d.su.request = some code := by
    have hgist : d.gist = c.gist := by
      rw [← hd]
      split
      · exact (Chip.callIfReady_gist _).trans (c.onHlc_gist _ rfl)
      · exact c.linkDown_gist _
    exact (congrArg Gist.request hgist).trans hr
  have hap : d.ap = c.ap := by
    rw [← hd]
    split <;> simp
  have hdone : d.requestDone = { d with own := vupd d.own rSU (· ++ [resultAsked c code none 0]) } := by
    have hasked : resultAsked d code none 0 = resultAsked c code none 0 := by
      unfold resultAsked Chip.setupAddr
      rw [hap]
    rw [Chip.requestDone_eq hreq, ← hasked]
    rfl
  have hlink : d.hlc.link = (if c.lineReady = true then .calling else .down) ∧ d.hlc.errors = 0 ∧
      d.hlc.send = (if c.hlc.link = .down then c.hlc.send
        else c.hlc.send.map fun x => if x.state = .active ∨ x.state = .held then
          { x with state := .suspended, resend := none, ackTimer := none, holdTimer := none,
                   resumeTimer := some (c.linkSet .resumeTime * 60000) } else x) := by
    rw [← hd]
    split
    · next hdown => exact Chip.callIfReady_hlc (c := c.onHlc fun h => { h with errors := 0 }) hdown hu
    · exact Chip.linkDown_reset_hlc hu
  rw [hdone]
  obtain ⟨hl, he, hs⟩ := hlink
  refine ⟨hl, he, hs, ?_, ?_⟩
  · rw [vupd_get_same, List.getLast?_concat]
  · rw [← hd]
    split <;> constructor <;> simp

/-! ### Operands -/

/-- The requests with operands, by their codes (Table 2-5, Table 12-12). -/
theorem requestOfCode_operands {code : Nat} (h5 : 5 ≤ code) (h12 : code ≤ 12) :
    ∃ r, requestOfCode code = some r ∧ r.code = code ∧ r.hasOperands = true := by
  interval_cases code <;> exact ⟨_, rfl, rfl, rfl⟩

/-- An operand that is out of range names nothing. -/
theorem operandFin_eq_none {n : Nat} {w : Word} (h : n ≤ w.toNat) : operandFin n w = none := dif_neg (not_lt.mpr h)

/-- An operand in range. -/
theorem operandFin_wd {n : Nat} (x : Fin n) (hn : n ≤ Config.wordModulus) : operandFin n (wd x.val) = some x := by
  have hx : (wd x.val).toNat = x.val := by
    rw [toNat_wd]
    exact Nat.mod_eq_of_lt (lt_of_lt_of_le x.isLt hn)
  unfold operandFin finOf
  rw [dif_pos (by rw [hx]; exact x.isLt)]
  exact congrArg some (Fin.ext hx)

/-- Where the first operand of two is in range, bad operands have a second that is not 0. -/
theorem second_operand_bad {n : Nat} {op0 op1 : Word} {x : Fin n} (hx : operandFin n op0 = some x)
    (h : n - 1 < op0.toNat ∨ op1 ≠ 0) : ¬ (op1 == 0) = true := by
  have hlt : op0.toNat < n := by
    by_contra hge
    rw [operandFin_eq_none (not_lt.mp hge)] at hx
    cases hx
  simpa using h.resolve_left (by omega)

/-- A request whose operand names no printer, or whose second operand is not 0, is refused (R31). -/
theorem Chip.servePrinterRequest_bad (c : Chip) (serve : Chip → Fin 4 → Chip) {op0 op1 : Word} (h : 3 < op0.toNat ∨ op1 ≠ 0) :
    c.servePrinterRequest serve op0 op1 = c.badOperand := by
  unfold Chip.servePrinterRequest
  split
  · next hx => exact if_neg (second_operand_bad hx h)
  · rfl

/-- A mode operand with a field that Table 12-3 does not assign, or a code that names no mode, is none (R31). -/
theorem modeOperand_bad {w : Word} (h : w &&& 0x001F1F07 ≠ w ∨ field w 0 2 = 3) : modeOperand w = none := by
  unfold modeOperand
  dsimp only
  split
  · rfl
  · next hmask =>
    have hcode : field w 0 2 = 3 := h.resolve_left fun hne => hmask (by simpa [modeOperandMask] using hne)
    rw [hcode]
    rfl

/-- The operands that a request with operands refuses (Table 2-5, Table 12-3). -/
def badOperands (code : Nat) (op0 op1 : Word) : Prop :=
  (code ≤ 8 ∧ (3 < op0.toNat ∨ op1 ≠ 0)) ∨
  (code = 9 ∧ (11 < op0.toNat ∨ op1 &&& 0x001F1F07 ≠ op1 ∨ field op1 0 2 = 3)) ∨
  (code = 11 ∧ (2 < op0.toNat ∨ op1 ≠ 0)) ∨ (code ∈ [10, 12] ∧ (11 < op0.toNat ∨ op1 ≠ 0))

/-- Such operands refuse it with BAD_OPERAND (R31). -/
theorem Chip.serveWith_bad (c : Chip) {r : Request} {op0 op1 : Word} (hr : r.hasOperands = true) (h : badOperands r.code op0 op1) :
    c.serveWith r op0 op1 = c.badOperand := by
  cases r with
  | closeDay | startSend | clearDay | linkReset => rfl
  | printerClear | printerRestart | printerHalt | eject =>
    exact c.servePrinterRequest_bad _ (by simpa [badOperands, Request.code] using h)
  | screenRefresh | drawerRelease =>
    have h : 11 < op0.toNat ∨ op1 ≠ 0 := by simpa [badOperands, Request.code] using h
    unfold Chip.serveWith
    dsimp only
    split
    · next hx => exact if_neg (second_operand_bad hx h)
    · rfl
  | lineReset =>
    have h : 2 < op0.toNat ∨ op1 ≠ 0 := by simpa [badOperands, Request.code] using h
    unfold Chip.serveWith
    dsimp only
    split
    · next hx => exact if_neg (second_operand_bad hx h)
    · rfl
  | screenMode =>
    have h : 11 < op0.toNat ∨ op1 &&& 0x001F1F07 ≠ op1 ∨ field op1 0 2 = 3 := by simpa [badOperands, Request.code] using h
    unfold Chip.serveWith
    dsimp only
    obtain h0 | h1 := h
    · rw [operandFin_eq_none h0]
    · rw [modeOperand_bad h1]
      cases operandFin 12 op0 <;> rfl

/-- The operands read, the request is served with them (R31). -/
theorem Chip.operandsAnswered_okay {c : Chip} {code code' : Nat} {r : Request} (hs : c.su.request = some code')
    (hr : requestOfCode code = some r) (data : List Word) :
    c.operandsAnswered code true data = c.serveWith r (wordAt data 0) (wordAt data 1) := by
  unfold Chip.operandsAnswered
  rw [hs, hr]
  rfl

/-- Operands that could not be read refuse it with STORE_ERROR (R31). -/
theorem Chip.operandsAnswered_error {c : Chip} {code code' : Nat} {r : Request} (hs : c.su.request = some code')
    (hr : requestOfCode code = some r) (data : List Word) :
    c.operandsAnswered code false data = c.endsWith code' (some .storeError) 0 := by
  unfold Chip.operandsAnswered
  rw [hs, hr]
  exact Chip.requestRefused_eq hs .storeError 0

/-- The operands of a request, read with an ERROR or found bad (R31). -/
theorem operands_refused (s : State) (op : StoreOp) (addr code : Nat) (hp : s.prompt = false) (hs : s.chip.su.request = some code)
    (h5 : 5 ≤ code) (h12 : code ≤ 12) :
    let op0 := readWord s.mem addr
    let op1 := readWord s.mem (addr + 4)
    let refused (okay : Bool) (why : Reason) : Prop := Completes (.storeAnswer okay) s fun t => t.mem = s.mem ∧
      t.chip = s.chip.endsWith code (some why) 0
    (s.arb.port = .own rSU op (.operands code) false → refused false .storeError) ∧
    (s.arb.port = .own rSU (.read addr 4 2) (.operands code) false → badOperands code op0 op1 → refused true .badOperand) := by
  intro op0 op1 refused
  obtain ⟨r, hr, hcode, hops⟩ := requestOfCode_operands h5 h12
  refine ⟨fun hport => State.completes_answer hp hport false ⟨rfl, Chip.operandsAnswered_error hs hr _⟩,
    fun hport hbad => State.completes_answer hp hport true ⟨rfl, ?_⟩⟩
  have h0 : wordAt (StoreOp.data s.mem (.read addr 4 2)) 0 = op0 := wordAt_readWords s.mem addr 2 0 (by decide)
  have h1 : wordAt (StoreOp.data s.mem (.read addr 4 2)) 1 = op1 := wordAt_readWords s.mem addr 2 1 (by decide)
  refine (Chip.operandsAnswered_okay hs hr _).trans ?_
  rw [h0, h1, Chip.serveWith_bad _ hops (hcode ▸ hbad)]
  exact Chip.badOperand_eq hs

/-! ### The end of the hold -/

/-- The result area written, the hold ends with the host's answer (R32). -/
theorem Chip.resultAnswered_eq {c : Chip} {code : Nat} (h : c.su.request = some code) (done okay : Bool) (addr : Nat) :
    c.resultAnswered done okay addr =
      ((if okay = true then c else c.reportStore rSU addr).onSu fun u => { u with request := none }).answerHost done [] := by
  unfold Chip.resultAnswered
  refine if_pos ?_
  have hgist : (if okay = true then c else c.reportStore rSU addr).gist = c.gist := by split <;> simp
  have hreq : (if okay = true then c else c.reportStore rSU addr).su.request = some code := (congrArg Gist.request hgist).trans h
  rw [hreq]
  rfl

/-- The answer to the write of the result area (R32). -/
theorem result_answered (s : State) (op : StoreOp) (code : Nat) (done okay : Bool) (hp : s.prompt = false)
    (hs : s.chip.su.request = some code) (hport : s.arb.port = .own rSU op (.result done) false) :
    Completes (.storeAnswer okay) s fun t =>
      t.chip.ap.host = none ∧ t.chip.ap.answer = some ⟨done, []⟩ ∧ t.chip.su.request = none ∧
      s.chip.Reports t.chip (if okay = true then [] else [(.storeError, rSU.val, pageOf op.addr)]) ∧
      (okay = true → s.chip.Only [.ap, .su] t.chip ∧ t.chip.su = { s.chip.su with request := none }) := by
  refine State.completes_answer hp hport okay ?_
  have hchip : (s.answered rSU op (.result done) okay).chip = _ := Chip.resultAnswered_eq hs done okay op.addr
  rw [hchip]
  refine ⟨rfl, rfl, rfl, ?_, fun ho => ?_⟩
  · cases okay with
    | true => exact fun _ => (List.append_nil _).symm
    | false =>
      intro hroom
      have hlt : s.chip.su.reports.length < 16 := hroom
      show (s.chip.report .storeError rSU.val (pageOf op.addr)).su.reports = _
      rw [Chip.report_of_room _ _ _ _ hlt]
      rfl
  · subst ho
    refine ⟨?_, rfl⟩
    constructor <;> simp

/-! ### The statement -/

/-- The codes that name no request (Table 12-12). -/
theorem requestOfCode_eq_none {code : Nat} (h : code = 0 ∨ 12 < code) : requestOfCode code = none := by
  obtain rfl | hpast := h
  · rfl
  · obtain ⟨n, rfl⟩ := Nat.exists_eq_add_of_le' (Nat.succ_le_of_lt hpast)
    rfl

/-- The requests that REBUILDING does not serve (R31). -/
theorem requestOfCode_notReady {code : Nat} (h1 : 1 ≤ code) (h12 : code ≤ 12) (h : code ∉ [9, 10, 11]) :
    ∃ r, requestOfCode code = some r ∧ r.whileRebuilding = false := by
  interval_cases code <;> simp_all [requestOfCode, Request.whileRebuilding]

/-- LINK_RESET served at once in READY (R193). -/
theorem linkReset_served (s : State) (hs : s.HostFree) (hw : s.chip.SetupWord 0x100) (hu : s.chip.su.unitState = .ready) :
    Completes .linkReset s fun t =>
      t.chip.hlc.link = (if s.chip.lineReady = true then .calling else .down) ∧
      t.chip.hlc.errors = 0 ∧
      t.chip.hlc.send = (if s.chip.hlc.link = .down then s.chip.hlc.send
        else s.chip.hlc.send.map fun x => if x.state = .active ∨ x.state = .held then
          { x with state := .suspended, resend := none, ackTimer := none, holdTimer := none,
                   resumeTimer := some (s.chip.linkSet .resumeTime * 60000) } else x) ∧
      (t.chip.own[rSU.val] : List OwnReq).getLast? = some (resultAsked s.chip 4 none 0) ∧
      s.Only [.ap, .su, .hlc, .own] t := by
  obtain ⟨w, hcode, hi⟩ := exec_requestWritten (i := .linkReset) rfl
  obtain ⟨p, -, hexec⟩ := hs.request_held hw hi
  have hr : requestOfCode w.toNat = some .linkReset := by rw [hcode]; rfl
  rw [Chip.requestHeld_bare p hr (.inl (by rw [hu]; decide)) rfl, hcode] at hexec
  obtain ⟨hlink, herrors, hsend, hlast, honly⟩ := Chip.serveLinkReset_spec (c := s.chip.inService p 4) hs.loaded rfl
  refine ⟨_, hexec, hlink, herrors, hsend, hlast, ⟨rfl, rfl, rfl, rfl⟩, ?_⟩
  exact (s.chip.inService_only p 4).trans honly (by decide) (by decide)

/-- A request refused as it is held: its code, and the result asked for (R31, R32). -/
theorem Chip.inService_endsWith (c : Chip) (p : HostProg) (code : Nat) (why : Reason) :
    c.Only [.ap, .su, .own] ((c.inService p code).endsWith code (some why) 0) := by
  constructor <;> simp [Chip.inService, Chip.endsWith]

/-- Settles O32: LINK_RESET, the requests refused as they are held, those refused by their operands, and the end of the hold. -/
theorem linkResetAndBadRequests : Obligations.LinkResetAndBadRequests := by
  refine ⟨linkReset_served, fun s code hs hw hbad => ?_, fun s i code hs hw hu hi hnot h1 h12 => ?_, operands_refused, result_answered⟩
  · obtain ⟨w, hcode, hi⟩ := exec_requestWritten (i := .badRequest code) rfl
    obtain rfl : w = code := BitVec.eq_of_toNat_eq hcode
    obtain ⟨p, -, hexec⟩ := hs.request_held hw hi
    have hnone : requestOfCode w.toNat = none := requestOfCode_eq_none (hbad.imp_left fun h => congrArg BitVec.toNat h)
    rw [Chip.requestHeld_unnamed _ p hnone] at hexec
    exact ⟨_, hexec, ⟨⟨rfl, rfl, rfl, rfl⟩, s.chip.inService_endsWith p _ _⟩, rfl, rfl⟩
  · obtain ⟨w, rfl, hexec⟩ := exec_requestWritten hi
    obtain ⟨p, -, hexec⟩ := hs.request_held hw hexec
    obtain ⟨r, hr, hwhile⟩ := requestOfCode_notReady h1 h12 hnot
    rw [Chip.requestHeld_notReady p hr hu hwhile] at hexec
    exact ⟨_, hexec, ⟨⟨rfl, rfl, rfl, rfl⟩, s.chip.inService_endsWith p _ _⟩, rfl⟩

end Sys2Proof.Machine
end

section
/-! PROOF. A request with operands served alone, and an accepted setting's change (for O23, O24 and O34). -/

namespace Sys2Proof.Machine

/-! ### A request with operands, served alone -/

/-- Where no unit waits and one asks for an access, that access is granted next (R16). -/
theorem State.grant_only {s : State} {u : Fin 9} {r : OwnReq} (hp : s.arb.port = .idle) (hh : s.chip.hostWaiting = none)
    (hu : s.chip.waiting[u.val] = [r]) (hother : ∀ v : Fin 9, v ≠ u → s.chip.waiting[v.val] = []) : s.grant = s.grantOwn u r := by
  have hn : ¬ s.chip.NoneWaits := fun hn => by
    have := hn u
    rw [hu] at this
    cases this
  obtain ⟨v, x, hfirst, hgrant⟩ := State.grant_of_own hp hn (.inl hh)
  obtain ⟨-, rest, -, hv, -⟩ := firstWaiting_eq_some hfirst
  obtain rfl : v = u := by
    by_contra hne
    rw [hother v hne] at hv
    cases hv
  rw [hu] at hv
  cases hv
  exact hgrant

/-- With no own access asked for, one of SU's is the only one that waits. -/
theorem Chip.waiting_push_su {c : Chip} (hn : ∀ u : Fin 9, c.own[u.val] = []) (op : OwnOp) (tag : Tag) :
    (c.push rSU op tag).waiting = vput c.own rSU [⟨op, tag, false⟩] := by
  have hsu : (c.push rSU op tag).own = vput c.own rSU [⟨op, tag, false⟩] := by
    rw [Chip.push_eq, vupd, vput]
    rw [hn rSU]
    rfl
  rw [Chip.waiting_eq, hsu]
  refine Vector.ext fun j hj => ?_
  rw [vupd_get]
  split
  · next hcu =>
    subst hcu
    rw [vput_get_ne _ _ _ _ (by decide : rCU ≠ rSU), hn rCU]
    rfl
  · rfl

/-- Granting it leaves none. -/
theorem waiting_drop {own : Vector (List OwnReq) 9} (hn : ∀ u : Fin 9, own[u.val] = []) (r : OwnReq) :
    vupd (vput own rSU [r]) rSU (·.drop 1) = own := by
  refine Vector.ext fun j hj => ?_
  rw [vupd_get, vput_get_same]
  split
  · next h =>
    subst h
    exact (hn rSU).symm
  · next h => exact (vput_get _ _ _ _ _).trans (if_neg h)

/-- A request with operands, with nothing else at the store port: its operands are read, and it is served with them (R31). `d` is
the part with the request in service. -/
theorem State.Alone.served {s : State} (hs : s.Alone) (hw : s.chip.SetupWord 0x100) {i : Instr} {r : Request}
    (hi : requestWritten i = some r.code) (hr : r.hasOperands = true)
    (hu : s.chip.su.unitState ≠ .rebuilding ∨ r.whileRebuilding = true) {op0 op1 : Word} (hops : s.chip.OperandsAre s.mem op0 op1)
    {P : State → Prop} (hP : ∀ p a, P { s with chip := (s.chip.inService p r.code).serveWith r op0 op1, arb := a }) :
    CompletesStored i s P := by
  have hcode : requestOfCode r.code = some r := by cases r <;> rfl
  obtain ⟨w, hwcode, hexec⟩ := exec_requestWritten hi
  obtain ⟨p, hnext, hheld⟩ := hs.toHostFree.request_held hw hexec
  rw [Chip.requestHeld_operands p (hwcode ▸ hcode) hu hr, hwcode] at hheld
  let c := s.chip.inService p r.code
  let x : OwnReq := ⟨.read (s.chip.setupAddr 0x104) 4 2, .operands r.code, false⟩
  let s₁ : State := { s with chip := c.push rSU x.op x.tag }
  have hwaiting : s₁.chip.waiting = vput s.chip.own rSU [x] := Chip.waiting_push_su (c := c) hs.none x.op x.tag
  have hwaits : s₁.chip.hostWaiting = Option.none := by
    unfold Chip.hostWaiting
    show (if p.granted then Option.none else p.nextOp.map fun op => (p, op)) = Option.none
    rw [hnext]
    split <;> rfl
  have hgrant : s₁.grant = s₁.grantOwn rSU x := by
    refine State.grant_only hs.port hwaits ?_ fun v hv => ?_
    · rw [hwaiting, vput_get_same]
    · rw [hwaiting, vput_get_ne _ _ _ _ hv, hs.none v]
  have hchip : (s₁.grantOwn rSU x).chip = c := by
    show ({ s₁.chip with own := vupd s₁.chip.waiting rSU (·.drop 1) } : Chip) = c
    rw [hwaiting, waiting_drop hs.none]
    rfl
  refine ⟨s₁, hheld, s₁.grantOwn rSU x, (exec_arbiterGrant s₁ hs.prompt).trans (congrArg _ hgrant), ?_⟩
  refine State.completes_answer (s := s₁.grantOwn rSU x) (u := rSU) (op := .read (s.chip.setupAddr 0x104) 4 2) (tag := .operands r.code) hs.prompt rfl true ?_
  have h0 : wordAt (StoreOp.data s.mem (.read (s.chip.setupAddr 0x104) 4 2)) 0 = op0 :=
    (wordAt_readWords s.mem _ 2 0 (by decide)).trans hops.1
  have h1 : wordAt (StoreOp.data s.mem (.read (s.chip.setupAddr 0x104) 4 2)) 1 = op1 :=
    (wordAt_readWords s.mem _ 2 1 (by decide)).trans hops.2
  have hserved : (s₁.grantOwn rSU x).chip.operandsAnswered r.code true (StoreOp.data s.mem (.read (s.chip.setupAddr 0x104) 4 2)) =
      c.serveWith r op0 op1 := by
    rw [hchip, Chip.operandsAnswered_okay rfl hcode, h0, h1]
  show P { s with
    chip := (s₁.grantOwn rSU x).chip.operandsAnswered r.code true (StoreOp.data s.mem (.read (s.chip.setupAddr 0x104) 4 2))
    arb := _ }
  rw [hserved]
  exact hP p _

/-! ### An accepted setting -/

/-- The part `d` is `c` with the value of setting `k` taken as `n`, before its owner is told. -/
structure Chip.Took (c d : Chip) (k : Setting) (n : Nat) : Prop where
  only : c.Only [.ap, .su, .own] d
  su : ∃ v, d.su = { c.su with image := v }
  value : d.setting k = n
  others : ∀ k', k' ≠ k → d.setting k' = c.setting k'
  placed : d.ap.placed = c.ap.placed

/-- A setting of one word taken. -/
theorem Chip.withWord_took (c : Chip) (p : HostProg) (k : Setting) {n : Nat} (hn : n < Config.wordModulus) :
    c.Took ((c.withHost (some p) none).withWord k (wd n)) k n where
  only := by
    have hput : (c.withHost (some p) none).putImage k.index (wd n) = _ := Chip.putImage_eq _ k.place _
    unfold Chip.withWord
    rw [hput]
    constructor <;> simp
  su := by
    have hput : (c.withHost (some p) none).putImage k.index (wd n) = _ := Chip.putImage_eq _ k.place _
    unfold Chip.withWord
    rw [hput]
    exact ⟨_, rfl⟩
  value := by
    rw [Chip.setting_withWord, toNat_wd]
    exact Nat.mod_eq_of_lt hn
  others k' hne := by
    have himage : ((c.withHost (some p) none).withWord k (wd n)).su.image = vput c.su.image k.place (wd n) :=
      congrArg Gist.image (Chip.withWord_gist _ _ _)
    have hplace : k'.place ≠ k.place := fun h => hne (Setting.index_injective (congrArg Fin.val h))
    rw [Chip.setting_eq, Chip.setting_eq, himage, vput_get_ne _ _ _ _ hplace]
  placed := by
    have hap : ((c.withHost (some p) none).withWord k (wd n)).ap = (c.withHost (some p) none).ap :=
      congrArg Gist.ap (Chip.withWord_gist _ _ _)
    rw [hap]
    rfl

/-- The settings whose owners are told of a change: those of one word but for the placements and the capacity. -/
def Setting.plain : Setting → Bool
  | .placement _ _ => false
  | .jnlCapacity => false
  | .ceiling _ _ => false
  | _ => true

/-- Their owner is told when the value in force changes (R21). -/
theorem Chip.wordTaken_plain (c : Chip) {k : Setting} (w : Word) (h : k.plain = true) : c.wordTaken k w =
    if w.toNat = c.setting k then c.withWord k w else (c.withWord k w).settingChanged k := by
  have hif : (if w.toNat == c.setting k then c.withWord k w else (c.withWord k w).settingChanged k) =
      if w.toNat = c.setting k then c.withWord k w else (c.withWord k w).settingChanged k := if_congr beq_iff_eq rfl rfl
  cases k with
  | placement _ _ => cases h
  | jnlCapacity => cases h
  | ceiling _ _ => cases h
  | _ => exact hif

/-- A setting written whole: its value is taken, its owner told if that changes it, and the host has OKAY (R21). -/
theorem State.HostNext.setting_written {s : State} {i : Instr} {k : Setting} {v : Word} {P : State → Prop} (hs : s.HostNext)
    (hi : settingWritten i = some (k, v, allBytes)) (hk : k.plain = true) (hw : s.chip.SetupWord (0x200 + 4 * k.index))
    (hf : s.chip.frozen k.group = false)
    (hP : ∀ d m a, s.chip.Took d k (k.clamp v.toNat) → P { s with
      mem := m
      chip := (if k.clamp v.toNat = s.chip.setting k then d else d.settingChanged k).answerHost true []
      arb := a }) : CompletesStored i s P := by
  have hlt := k.clamp_lt v.toNat v.isLt
  have hceiling : ∀ p u, k ≠ .ceiling p u := fun p u h => by rw [h] at hk; cases hk
  have hcapacity : k ≠ .jnlCapacity := fun h => by rw [h] at hk; cases hk
  refine hs.setting_stored hi hw hceiling (Chip.judgeSetting_clamp hf hcapacity hceiling _ _) hlt fun st p m _ => ?_
  have hword : (wd (k.clamp v.toNat)).toNat = k.clamp v.toNat := by
    rw [toNat_wd]
    exact Nat.mod_eq_of_lt hlt
  rw [Chip.wordTaken_plain _ _ hk, hword]
  exact hP _ m _ (s.chip.withWord_took p k hlt)

/-! ### What a change of slots of a vector does -/

/-- A fold that changes, for each entry of a list without repetition, that entry alone. -/
theorem foldl_entries {n : Nat} {α : Type} (g : Chip → Fin n → α) (f : Chip → Fin n → Chip) (h : α → α)
    (hsame : ∀ c p, g (f c p) p = h (g c p)) (hne : ∀ c p q, q ≠ p → g (f c p) q = g c q) (l : List (Fin n)) (hl : l.Nodup)
    (c : Chip) (q : Fin n) : g (l.foldl f c) q = if q ∈ l then h (g c q) else g c q := by
  induction l generalizing c with
  | nil => rfl
  | cons p rest ih =>
    obtain ⟨hp, hrest⟩ := List.nodup_cons.mp hl
    rw [List.foldl_cons, ih hrest]
    by_cases hq : q = p
    · subst hq
      rw [if_neg hp, hsame, if_pos List.mem_cons_self]
    · rw [hne _ _ _ hq]
      simp [hq]

end Sys2Proof.Machine
end

section
/-! PROOF. The restart of a screen line, by LINE_RESET and by its settings (O24). -/

namespace Sys2Proof.Machine

/-! ### One drop -/

/-- The sensor becoming UNKNOWN clears the open-too-long timer (R130). -/
theorem Chip.setSensor_unknown (c : Chip) (p : Fin 12) : (c.setSensor p .unknown).slc = { c.slc with
    drops := vupd c.slc.drops p fun x => { x with
      sensor := .unknown, openTimer := if x.sensor = .unknown then x.openTimer else none } } := by
  unfold Chip.setSensor
  by_cases h : (c.drop p).sensor = .unknown
  · rw [if_pos (beq_iff_eq.mpr h)]
    have hsame : vupd c.slc.drops p (fun x => { x with
        sensor := .unknown, openTimer := if x.sensor = .unknown then x.openTimer else none }) = vupd c.slc.drops p id := by
      refine vupd_congr _ _ _ _ ?_
      have h : (c.slc.drops[p.val]).sensor = .unknown := h
      rw [h, if_pos rfl, ← h]
      rfl
    have hid : vupd c.slc.drops p id = c.slc.drops := by simp [vupd]
    rw [hsame, hid]
  · rw [if_neg (mt beq_iff_eq.mp h)]
    dsimp only
    have h : (c.slc.drops[p.val]).sensor ≠ .unknown := h
    simp only [Chip.onDrop, Chip.writeControl_slc, vupd_vupd]
    refine congrArg (fun d => ({ c.slc with drops := d } : SlcState)) (vupd_congr _ _ _ _ ?_)
    rw [if_neg h]

/-- A drop after the restart of its line (R133). -/
def Drop.restarted (x : Drop) : Drop := { x with
  terminal := .detached, resend := none, misses := 0, attachIn := 0, pulse := none, sensor := .unknown,
  openTimer := if x.sensor = .unknown then x.openTimer else none }

/-- A screen after the restart of its line (R103). -/
def Screen.restarted (x : Screen) : Screen := { x with sweeping := false, sweep := noRows, flight := none, dirty := allRows }

/-- A restart of one drop, among the lines and drops. -/
theorem Chip.dropRestart_slc (c : Chip) (p : Fin 12) :
    (c.dropRestart p).slc = { c.slc with drops := vupd c.slc.drops p Drop.restarted } := by
  unfold Chip.dropRestart
  dsimp only
  rw [Chip.scuLineReset_slc]
  simp only [Chip.withdraw, Chip.onDrop, Chip.setSensor_unknown, Chip.writeTerminal_slc, vupd_vupd]
  rfl

/-- Every row of an empty sweep with none in flight is marked by a write (R99). -/
theorem rowSet_true (f : Fin 25 → Bool) (h : ∀ r, f r = true) : rowSet f = allRows := by
  refine Vector.ext fun j hj => ?_
  have hrow : hasRow (rowSet f) ⟨j, hj⟩ = f ⟨j, hj⟩ := hasRow_rowSet f _
  have hall : allRows[j] = true := Vector.getElem_replicate hj
  rw [hall]
  exact hrow.trans (h _)

/-- No row is in the empty set. -/
theorem hasRow_noRows (r : Fin 25) : hasRow noRows r = false := Vector.getElem_replicate r.isLt

/-- It leaves the screens. -/
theorem Chip.setSensor_unknown_scu (c : Chip) (p : Fin 12) : (c.setSensor p .unknown).scu = c.scu := by
  unfold Chip.setSensor
  split
  · rfl
  · simp

/-- A sweep abandoned and all rows marked (R103). -/
theorem Screen.restarted_eq (x : Screen) : ({ x with
    dirty := rowSet (fun r => hasRow x.dirty r || hasRow x.sweep r || (x.flight.map (·.row)) == some r)
    sweep := noRows, flight := none, sweeping := false } : Screen).dirtyRows (fun _ => true) = x.restarted := by
  unfold Screen.dirtyRows Screen.restarted
  rw [rowSet_true _ fun r => by simp [Screen.marks, hasRow_noRows]]

/-- A restart of one drop, among the screens. -/
theorem Chip.dropRestart_screens (c : Chip) (p : Fin 12) :
    (c.dropRestart p).scu.screens = vupd c.scu.screens p Screen.restarted := by
  unfold Chip.dropRestart Chip.scuLineReset Chip.markAll Chip.abandonSweep
  simp only [Chip.onScreen_eq, vupd_vupd, Chip.withdraw_scu, Chip.setSensor_unknown_scu, Chip.writeTerminal_scu, Chip.onDrop_scu,
    Screen.restarted_eq]

/-! ### The line and its four drops -/

/-- The positions of a line (R118). -/
def positionsOf (l : Fin 3) : List (Fin 12) := dropsOfLine.map (posOf l)

/-- They are those of its drops, each once. -/
theorem mem_positionsOf : (∀ l, (positionsOf l).Nodup) ∧ (∀ l x, posOf l x ∈ positionsOf l) ∧
    ∀ l p, lineOf p ≠ l → p ∉ positionsOf l := by decide

/-- The line itself after its restart, its drops not yet restarted (R133). -/
def Chip.lineStopped (c : Chip) (l : Fin 3) : Chip := (c.stopRowRead l).onLine l fun ln => { ln with
  use := ln.stopped
  quiet := match ln.use with | .sending _ _ _ _ => 0 | _ => ln.quiet
  pointer := 3
  rate := c.setting (.lineRate l)
  gap := c.setting (.lineGap l) }

/-- A restart is that of the line, then of its drops. -/
theorem Chip.lineRestart_eq (c : Chip) (l : Fin 3) : c.lineRestart l = (positionsOf l).foldl Chip.dropRestart (c.lineStopped l) := by
  unfold positionsOf
  rw [List.foldl_map]
  rfl

/-- Restarts of drops leave the lines. -/
theorem Chip.dropRestarts_lines (c : Chip) (ps : List (Fin 12)) : (ps.foldl Chip.dropRestart c).slc.lines = c.slc.lines :=
  foldl_keeps (fun c => c.slc.lines) Chip.dropRestart (fun c p => by rw [Chip.dropRestart_slc]) ps c

/-- The settings in force are those before the restart. -/
theorem Chip.lineRestart_setting (c : Chip) (l : Fin 3) (k : Setting) : (c.lineRestart l).setting k = c.setting k := by
  rw [Chip.setting_eq, Chip.setting_eq, Chip.lineRestart_su]

/-- A frame that is given up stops after the byte in progress (R133). -/
theorem Line.stopped_eq (ln : Line) : ln.stopped = match ln.use with
    | .sending _ f left _ =>
      let bit := bitClk ln.rate
      let byte := 10 * bit
      if left % byte = 0 then .free else .stopping (f.bytes.getD ((byte * f.bytes.length - left) / byte) 0) bit (left % byte)
    | .stopping b bit left => .stopping b bit left
    | _ => .free := by
  unfold Line.stopped
  cases ln.use with
  | sending d f left reply => exact if_congr (beq_iff_eq (α := Nat)) rfl rfl
  | _ => rfl

/-- A line that only waits for the row it reads stops as one that is free. -/
theorem Line.stopped_unread (ln : Line) : ({ ln with
    epoch := ln.epoch + 1, use := match ln.use with | .reading _ _ => .free | u => u } : Line).stopped = ln.stopped := by
  unfold Line.stopped Line.charClk
  cases ln.use <;> rfl

/-- The line after its restart (R133). -/
theorem Chip.lineRestart_line (c : Chip) (l : Fin 3) : ((c.lineRestart l).line l).pointer = 3 ∧
    ((c.lineRestart l).line l).rate = c.setting (.lineRate l) ∧ ((c.lineRestart l).line l).gap = c.setting (.lineGap l) ∧
    ((c.lineRestart l).line l).keys = (c.line l).keys ∧ ((c.lineRestart l).line l).use = (c.line l).stopped := by
  have hline : (c.lineRestart l).line l = (c.lineStopped l).line l := by
    unfold Chip.line
    rw [Chip.lineRestart_eq, Chip.dropRestarts_lines]
  rw [hline, Chip.lineStopped, Chip.line_onLine_same, Chip.stopRowRead, Chip.line_onLine_same]
  exact ⟨rfl, rfl, rfl, rfl, (c.line l).stopped_unread⟩

/-- The other lines stand. -/
theorem Chip.lineRestart_otherLines (c : Chip) (l : Fin 3) : SameBut l c.slc.lines (c.lineRestart l).slc.lines := by
  rw [Chip.lineRestart_eq, Chip.dropRestarts_lines]
  unfold Chip.lineStopped Chip.stopRowRead
  rw [Chip.onLine_eq, Chip.onLine_eq, vupd_vupd]
  exact sameBut_vupd _ _ _

/-- The drops of the line, and the others, after its restart. -/
theorem Chip.lineRestart_drop (c : Chip) (l : Fin 3) (p : Fin 12) :
    (c.lineRestart l).drop p = if p ∈ positionsOf l then (c.drop p).restarted else c.drop p := by
  rw [Chip.lineRestart_eq]
  refine foldl_entries (fun c p => c.drop p) Chip.dropRestart Drop.restarted (fun c p => ?_) (fun c p q hq => ?_) _
    (mem_positionsOf.1 l) (c.lineStopped l) p
  · unfold Chip.drop
    rw [Chip.dropRestart_slc]
    exact vupd_get_same _ _ _
  · unfold Chip.drop
    rw [Chip.dropRestart_slc]
    exact vupd_get_ne _ _ _ _ hq

/-- The screens of the line, and the others, after its restart. -/
theorem Chip.lineRestart_screen (c : Chip) (l : Fin 3) (p : Fin 12) :
    (c.lineRestart l).screen p = if p ∈ positionsOf l then (c.screen p).restarted else c.screen p := by
  rw [Chip.lineRestart_eq]
  refine foldl_entries (fun c p => c.screen p) Chip.dropRestart Screen.restarted (fun c p => ?_) (fun c p q hq => ?_) _
    (mem_positionsOf.1 l) (c.lineStopped l) p
  · unfold Chip.screen
    rw [Chip.dropRestart_screens]
    exact vupd_get_same _ _ _
  · unfold Chip.screen
    rw [Chip.dropRestart_screens]
    exact vupd_get_ne _ _ _ _ hq

/-- What the restart of a line leaves (R133). -/
theorem Chip.lineRestart_restarted (c : Chip) (l : Fin 3) : c.LineRestarted (c.lineRestart l) l where
  line := by
    obtain ⟨hpointer, hrate, hgap, hkeys, -⟩ := c.lineRestart_line l
    exact ⟨hpointer, hrate.trans (c.lineRestart_setting l _).symm, hgap.trans (c.lineRestart_setting l _).symm, hkeys⟩
  use := by
    obtain ⟨-, -, -, -, huse⟩ := c.lineRestart_line l
    exact huse.trans (c.line l).stopped_eq
  drops x := by
    rw [Chip.lineRestart_drop, if_pos (mem_positionsOf.2.1 l x)]
    rfl
  timers x hx := by
    rw [Chip.lineRestart_drop, if_pos (mem_positionsOf.2.1 l x)]
    exact if_neg hx
  screens x := by
    rw [Chip.lineRestart_screen, if_pos (mem_positionsOf.2.1 l x)]
    rfl
  otherLines := c.lineRestart_otherLines l
  others p hp := by
    rw [Chip.lineRestart_drop, Chip.lineRestart_screen, if_neg (mem_positionsOf.2.2 l p hp), if_neg (mem_positionsOf.2.2 l p hp)]
    exact ⟨rfl, rfl⟩

/-- It is told by the lines, drops, screens and settings alone. -/
theorem Chip.LineRestarted.of_parts {c d c' d' : Chip} {l : Fin 3} (h : c.LineRestarted d l) (hc : c'.slc = c.slc)
    (hcs : c'.scu.screens = c.scu.screens) (hd : d'.slc = d.slc) (hds : d'.scu.screens = d.scu.screens)
    (hset : ∀ k, d'.setting k = d.setting k) : c'.LineRestarted d' l := by
  have hline : c'.line = c.line := by funext; unfold Chip.line; rw [hc]
  have hdrop : c'.drop = c.drop := by funext; unfold Chip.drop; rw [hc]
  have hscreen : c'.screen = c.screen := by funext; unfold Chip.screen; rw [hcs]
  have hline' : d'.line = d.line := by funext; unfold Chip.line; rw [hd]
  have hdrop' : d'.drop = d.drop := by funext; unfold Chip.drop; rw [hd]
  have hscreen' : d'.screen = d.screen := by funext; unfold Chip.screen; rw [hds]
  obtain ⟨line, use, drops, timers, screens, otherLines, others⟩ := h
  constructor
  case otherLines => rw [hc, hd]; exact otherLines
  all_goals simpa only [hline, hdrop, hscreen, hline', hdrop', hscreen', hset]

/-! ### The two ways in -/

/-- A request that ends at once has its result area asked for last (R32). -/
theorem Chip.requestDone_finishes {c : Chip} {code : Nat} (hreq : c.su.request = some code) (u : Fin 9) :
    c.requestDone.Finishes u code := by
  refine .inr ?_
  rw [Chip.requestDone_eq hreq, Chip.endsWith, vupd_get_same]
  exact List.getLast?_concat

/-- A request ends with the last word its unit rewrites, or at once (R31). -/
theorem Chip.finishWithLast_finishes {c : Chip} {code : Nat} (hreq : c.su.request = some code) (u : Fin 9) (before : Nat) :
    (c.finishWithLast u before).Finishes u code := by
  unfold Chip.finishWithLast
  dsimp only
  split
  · exact Chip.requestDone_finishes hreq u
  · split
    · exact Chip.requestDone_finishes hreq u
    · next r front _ =>
      refine .inl ⟨{ r with fin := true }, ?_, rfl⟩
      rw [vput_get_same]
      exact List.getLast?_concat

/-- The write that a line setting's value comes from. -/
theorem settingWritten_line (l : Fin 3) (gap : Bool) (v : Word) (e : BitVec 4) :
    settingWritten (.lineSettingWrite l gap v e) = some (if gap then .lineGap l else .lineRate l, v, e) := by
  cases gap <;> rfl

/-- A changed setting of a line restarts it (R133). -/
theorem Chip.settingChanged_line (c : Chip) (l : Fin 3) (gap : Bool) :
    c.settingChanged (if gap then .lineGap l else .lineRate l) = c.lineRestart l := by
  cases gap <;> rfl

/-- A line setting written (R133). -/
theorem State.HostNext.line_setting {s : State} (hs : s.HostNext) (l : Fin 3) (gap : Bool) (v : Word)
    (hw : s.chip.SetupWord (0x200 + 4 * (if gap then Setting.lineGap l else .lineRate l).index))
    (hnew : (if gap then Setting.lineGap l else .lineRate l).clamp v.toNat ≠
      s.chip.setting (if gap then Setting.lineGap l else .lineRate l)) :
    CompletesStored (.lineSettingWrite l gap v allBytes) s fun t => s.chip.LineRestarted t.chip l := by
  have hplain : (if gap then Setting.lineGap l else .lineRate l).plain = true := by cases gap <;> rfl
  have hgroup : s.chip.frozen (if gap then Setting.lineGap l else .lineRate l).group = false := by cases gap <;> rfl
  refine hs.setting_written (settingWritten_line l gap v allBytes) hplain hw hgroup fun d m a hd => ?_
  rw [if_neg hnew, Chip.settingChanged_line]
  show s.chip.LineRestarted ((d.lineRestart l).answerHost true []) l
  refine (d.lineRestart_restarted l).of_parts (hd.only.slc (by decide)).symm (congrArg ScuState.screens (hd.only.scu (by decide)).symm)
    (Chip.answerHost_slc _ _ _) (congrArg ScuState.screens (Chip.answerHost_scu _ _ _)) fun k => ?_
  rw [Chip.setting_eq, Chip.setting_eq, Chip.answerHost_su]

/-- LINE_RESET served (R133). -/
theorem Chip.serveWith_lineReset (c : Chip) (l : Fin 3) : c.serveWith .lineReset (wd l.val) 0 = c.serveLineReset l := by
  have h : c.serveWith .lineReset (wd l.val) 0 = match operandFin 3 (wd l.val) with
    | some l => if (0 : Word) == 0 then c.serveLineReset l else c.badOperand
    | none => c.badOperand := rfl
  rw [h, operandFin_wd l (by decide)]
  exact if_pos (beq_self_eq_true _)

/-- Settles O24. -/
theorem linesRestart : Obligations.LinesRestart := by
  unfold Obligations.LinesRestart
  refine ⟨fun s l gap v hs hw hnew => hs.line_setting l gap v hw hnew, fun s l hs hw hops => ?_⟩
  refine hs.served hw (r := .lineReset) rfl rfl (.inr rfl) hops fun p a => ?_
  let c := s.chip.inService p 11
  have hslc : c.slc = s.chip.slc := (s.chip.inService_only p 11).slc (by decide)
  have hscu : c.scu = s.chip.scu := (s.chip.inService_only p 11).scu (by decide)
  have hreq : (c.lineRestart l).su.request = some 11 := by rw [Chip.lineRestart_su]; rfl
  rw [show Request.lineReset.code = 11 from rfl, Chip.serveWith_lineReset, Chip.serveLineReset]
  dsimp only
  refine ⟨?_, rfl, Chip.finishWithLast_finishes hreq _ _⟩
  refine (c.lineRestart_restarted l).of_parts hslc.symm (by rw [hscu]) (Chip.finishWithLast_slc _ _ _)
    (congrArg ScuState.screens (Chip.finishWithLast_scu _ _ _)) fun k => ?_
  rw [Chip.setting_eq, Chip.setting_eq, Chip.finishWithLast_su]

end Sys2Proof.Machine
end

section
/-! PROOF. SCU's work list, and what a mode change leaves of a screen (for O23 and O34). -/

namespace Sys2Proof.Machine

/-! ### The work list -/

/-- The write of the mode word of screen `p` (R104). -/
def Chip.modeWrite (c : Chip) (p : Fin 12) (fin : Bool) : OwnReq :=
  ⟨.write (c.screenAddr p 4004) [(c.screen p).modeWord], .scuMode, fin⟩

/-- Nothing the work list `work` of `c` asks for is lost in `d`: a status row waits still, the mode word of a present screen waits
or is being written, and no screen is changed by it (R113). -/
structure Chip.WorkKept (c d : Chip) (work : List ScuWork) : Prop where
  screens : d.scu.screens = c.scu.screens
  own : ∀ x : OwnReq, x ∈ c.own[rSCU.val] → x ∈ d.own[rSCU.val]
  status : ∀ p, .status p ∈ work → .status p ∈ d.scu.work
  mode : ∀ p fin, .mode p fin ∈ work → c.screenPresent p = true →
    .mode p fin ∈ d.scu.work ∨ c.modeWrite p fin ∈ d.own[rSCU.val]

/-- A list that waits on as it is. -/
theorem Chip.WorkKept.waits {c d : Chip} {work : List ScuWork} (hs : d.scu.screens = c.scu.screens) (ho : d.own = c.own)
    (hw : d.scu.work = work) : c.WorkKept d work where
  screens := hs
  own x hx := by rw [ho]; exact hx
  status p hp := by rw [hw]; exact hp
  mode p fin hp _ := by rw [hw]; exact .inl hp

/-- An entry begun, its accesses asked for. -/
theorem Chip.WorkKept.begun {c d : Chip} {e : ScuWork} {rest : List ScuWork} (hs : d.scu.screens = c.scu.screens)
    (ho : ∀ x : OwnReq, x ∈ c.own[rSCU.val] → x ∈ d.own[rSCU.val]) (hw : d.scu.work = rest) (hstatus : ∀ p, e ≠ .status p)
    (hmode : ∀ p fin, e = .mode p fin → c.modeWrite p fin ∈ d.own[rSCU.val]) : c.WorkKept d (e :: rest) where
  screens := hs
  own := ho
  status p hp := by
    rw [hw]
    exact (List.mem_cons.mp hp).resolve_left fun h => hstatus p h.symm
  mode p fin hp _ := by
    rw [hw]
    obtain h | h := List.mem_cons.mp hp
    · exact .inr (hmode p fin h.symm)
    · exact .inl h

/-- An entry passed over: that of an absent screen. -/
theorem Chip.WorkKept.passed {c c' d : Chip} {e : ScuWork} {rest : List ScuWork} (h : c'.WorkKept d rest)
    (hs : c'.scu.screens = c.scu.screens) (ha : c'.ap = c.ap) (ho : c'.own[rSCU.val] = c.own[rSCU.val]) (hstatus : ∀ p, e ≠ .status p)
    (hmode : ∀ p fin, e = .mode p fin → c.screenPresent p = false) : c.WorkKept d (e :: rest) where
  screens := h.screens.trans hs
  own x hx := h.own x (ho ▸ hx)
  status p hp := h.status p ((List.mem_cons.mp hp).resolve_left fun h => hstatus p h.symm)
  mode p fin hp hpresent := by
    have hpresent' : c'.screenPresent p = c.screenPresent p := by
      unfold Chip.screenPresent Chip.windowEnabled Chip.placement
      rw [ha]
    have hwrite : c'.modeWrite p fin = c.modeWrite p fin := by
      simp only [Chip.modeWrite, Chip.screenAddr, Chip.windowBase, Chip.placement, Chip.screen, ha, hs]
    obtain hp | hp := List.mem_cons.mp hp
    · rw [hmode p fin hp.symm] at hpresent
      cases hpresent
    · rw [← hwrite]
      exact h.mode p fin hp (hpresent'.trans hpresent)

/-- Accesses asked for join those that wait. -/
theorem mem_pushed {own : Vector (List OwnReq) 9} {u : Fin 9} {x : OwnReq} (l : List OwnReq) (h : x ∈ own[u.val] ∨ x ∈ l) :
    x ∈ (vupd own u (· ++ l))[u.val] := by
  rw [vupd_get_same]
  exact List.mem_append.mpr h

/-- The end of a request leaves SCU's accesses. -/
theorem Chip.requestDone_ownSCU (c : Chip) : c.requestDone.own[rSCU.val] = c.own[rSCU.val] := by
  unfold Chip.requestDone Chip.finishRequest
  split
  · rfl
  · exact vupd_get_ne _ _ _ _ (by decide)

/-- SCU goes on with a list. -/
theorem Chip.scuTake_kept (c : Chip) (work : List ScuWork) : c.WorkKept (c.scuTake work) work := by
  induction work generalizing c with
  | nil => exact .waits rfl rfl rfl
  | cons e rest ih =>
    cases e with
    | status p => exact .waits rfl rfl rfl
    | count p =>
      unfold Chip.scuTake
      split
      · exact .begun rfl (fun x hx => mem_pushed _ (.inl hx)) rfl nofun nofun
      · exact (ih c).passed rfl rfl rfl nofun nofun
    | mode p fin =>
      unfold Chip.scuTake
      split
      · refine .begun rfl (fun x hx => mem_pushed _ (.inl hx)) rfl nofun fun q f h => ?_
        cases h
        exact mem_pushed _ (.inr List.mem_cons_self)
      · next habsent =>
        have hmode : ∀ q f, ScuWork.mode p fin = .mode q f → c.screenPresent q = false := fun q f h => by
          cases h
          exact Bool.eq_false_iff.mpr habsent
        split
        · exact (ih _).passed (congrArg ScuState.screens c.requestDone_scu) c.requestDone_ap c.requestDone_ownSCU nofun hmode
        · exact (ih c).passed rfl rfl rfl nofun hmode
    | fanRead => exact .begun rfl (fun x hx => mem_pushed _ (.inl hx)) rfl nofun nofun
    | fanWrite p =>
      unfold Chip.scuTake
      split
      · exact .begun rfl (fun x hx => mem_pushed _ (.inl hx)) rfl nofun nofun
      · exact (ih _).passed rfl rfl rfl nofun nofun

/-- SCU goes on with its list. -/
theorem Chip.scuPump_kept (c : Chip) : c.WorkKept c.scuPump c.scu.work := by
  unfold Chip.scuPump
  split
  · exact .waits rfl rfl rfl
  · exact c.scuTake_kept _

/-- An entry put on the list. -/
theorem Chip.addWork_kept (c : Chip) (e : ScuWork) : c.WorkKept (c.addWork e) (c.scu.work ++ [e]) := by
  obtain ⟨hs, ho, hstatus, hmode⟩ := Chip.scuPump_kept { c with scu := { c.scu with work := c.scu.work ++ [e] } }
  exact ⟨hs, ho, hstatus, hmode⟩

/-- A status row that waits waits on. -/
theorem Chip.addWork_status {c : Chip} {p : Fin 12} (e : ScuWork) (h : .status p ∈ c.scu.work) :
    .status p ∈ (c.addWork e).scu.work :=
  (c.addWork_kept e).status p (List.mem_append_left _ h)

/-- The work list of a chip whose flash phase is judged. -/
theorem Chip.judgeFlash_work (c : Chip) (p : Fin 12) : (c.judgeFlash p).scu.work = c.scu.work := by
  unfold Chip.judgeFlash
  dsimp only
  split <;> rfl

/-- An event of a status row puts it on the list, or leaves it there, and loses no other (R113). -/
theorem Chip.statusEvent_status (c : Chip) (p q : Fin 12) (h : q = p ∨ .status q ∈ c.scu.work) :
    .status q ∈ (c.statusEvent p).scu.work := by
  have hold : .status q ∈ c.scu.work → .status q ∈ (c.judgeFlash p).scu.work := fun h => (c.judgeFlash_work p) ▸ h
  unfold Chip.statusEvent
  dsimp only
  split
  · next hin =>
    obtain rfl | h := h
    · exact List.contains_iff_mem.mp hin
    · exact hold h
  · obtain rfl | h := h
    · exact (Chip.addWork_kept _ _).status q (List.mem_append_right _ List.mem_cons_self)
    · exact Chip.addWork_status _ (hold h)

/-- After events of the rows of a list, all of them wait. -/
theorem statusEvents_status (l : List (Fin 12)) (c : Chip) (q : Fin 12) (h : q ∈ l ∨ .status q ∈ c.scu.work) :
    .status q ∈ (l.foldl (fun c p => c.statusEvent p) c).scu.work := by
  induction l generalizing c with
  | nil => exact h.resolve_left List.not_mem_nil
  | cons p rest ih =>
    refine ih _ ?_
    obtain h | h := h
    · obtain rfl | h := List.mem_cons.mp h
      · exact .inr (c.statusEvent_status q q (.inl rfl))
      · exact .inl h
    · exact .inr (c.statusEvent_status p q (.inr h))

/-- An event of all status rows has them all wait (R113). -/
theorem Chip.statusEventAll_status (c : Chip) (q : Fin 12) : .status q ∈ c.statusEventAll.scu.work := by
  have hmem : ∀ q, q ∈ positions := by decide
  unfold Chip.statusEventAll
  exact statusEvents_status positions c q (.inl (hmem q))

/-! ### A mode change -/

/-- The sweep set keeps the rows the mode shows, and the rows newly shown become dirty (R106). -/
def Screen.reshown (x : Screen) (old : Mode) : Screen :=
  Screen.dirtyRows { x with
    modePending := true
    dirty := rowSet (fun r => hasRow x.dirty r || (hasRow x.sweep r && !x.mode.shows r))
    sweep := rowSet (fun r => hasRow x.sweep r && x.mode.shows r) } fun r => x.mode.shows r && !old.shows r

/-- Whether a sweep is complete (R102). -/
def Screen.complete (x : Screen) : Bool := x.sweeping && rowsEmpty x.sweep && x.flight.isNone

/-- A sweep that ends is counted (R102). -/
def Screen.counted (x : Screen) : Screen :=
  { x with sweeping := false, sweepCount := (x.sweepCount + 1) % Config.wordModulus }

/-- A sweep ends when it is complete (R102). -/
def Screen.swept (x : Screen) : Screen := if x.complete then x.counted else x

/-- A sweep is judged. -/
theorem Chip.sweepCheck_eq (c : Chip) (p : Fin 12) : c.sweepCheck p =
    if (c.screen p).complete then (c.onScreen p Screen.counted).addWork (.count p) else c := rfl

/-- A complete sweep of one screen ends; no other screen changes. -/
theorem Chip.sweepCheck_screens (c : Chip) (p : Fin 12) : (c.sweepCheck p).scu.screens = vupd c.scu.screens p Screen.swept := by
  rw [Chip.sweepCheck_eq]
  split
  · next h =>
    rw [(Chip.addWork_kept _ _).screens]
    have hswept : (c.screen p).counted = (c.screen p).swept := (if_pos h).symm
    exact vupd_congr c.scu.screens p _ Screen.swept hswept
  · next h =>
    have hid : vupd c.scu.screens p id = c.scu.screens := by simp [vupd]
    have hswept : c.screen p = (c.screen p).swept := (if_neg h).symm
    exact hid.symm.trans (vupd_congr c.scu.screens p id Screen.swept hswept)

/-- A release that may be withdrawn. -/
theorem Chip.withdraw_scu_if (c : Chip) (b : Bool) (p : Fin 12) : (if b then c.withdraw p else c).scu = c.scu := by
  split
  · exact c.withdraw_scu p
  · rfl

/-- A mode change, among the screens (R106). -/
theorem Chip.modeChanged_screens (c : Chip) (p : Fin 12) (old : Mode) (fin : Bool) :
    (c.modeChanged p old fin).scu.screens = vupd c.scu.screens p fun x => (x.reshown old).swept := by
  unfold Chip.modeChanged
  dsimp only
  rw [Chip.writeMode, (Chip.addWork_kept _ _).screens, Chip.sweepCheck_screens, Chip.withdraw_scu_if]
  simp only [Chip.onScreen_eq, vupd_vupd]
  rfl

/-- An entry of a mode word put on the list is there, or its word is being written (R104). -/
theorem Chip.writeMode_word {c : Chip} {p : Fin 12} (fin : Bool) (hp : c.screenPresent p = true) :
    .mode p fin ∈ (c.writeMode p fin).scu.work ∨ c.modeWrite p fin ∈ (c.writeMode p fin).own[rSCU.val] :=
  (c.addWork_kept (.mode p fin)).mode p fin (List.mem_append_right _ List.mem_cons_self) hp

/-- A screen's place is told by the placements alone. -/
theorem Chip.screenPlace_congr {c d : Chip} (h : d.ap.placed = c.ap.placed) (p : Fin 12) :
    d.screenPresent p = c.screenPresent p ∧ ∀ off, d.screenAddr p off = c.screenAddr p off := by
  unfold Chip.screenPresent Chip.windowEnabled Chip.screenAddr Chip.windowBase Chip.placement
  rw [h]
  exact ⟨rfl, fun _ => rfl⟩

/-- A mode word's write is told by the screen and its place. -/
theorem Chip.modeWrite_congr {c d : Chip} (h : d.ap.placed = c.ap.placed) {p : Fin 12} (hs : d.screen p = c.screen p) (fin : Bool) :
    d.modeWrite p fin = c.modeWrite p fin := by
  unfold Chip.modeWrite
  rw [(Chip.screenPlace_congr h p).2, hs]

/-- A mode put on the list leaves the screens. -/
theorem Chip.writeMode_screens (c : Chip) (p : Fin 12) (fin : Bool) : (c.writeMode p fin).scu.screens = c.scu.screens :=
  (c.addWork_kept _).screens

/-- The mode word of a changed mode is written, or waits (R104). -/
theorem Chip.modeChanged_word {c : Chip} {p : Fin 12} (old : Mode) (fin : Bool) (hp : c.screenPresent p = true) :
    .mode p fin ∈ (c.modeChanged p old fin).scu.work ∨
      (c.modeChanged p old fin).modeWrite p fin ∈ (c.modeChanged p old fin).own[rSCU.val] := by
  have hap : (c.modeChanged p old fin).ap.placed = c.ap.placed := by rw [Chip.modeChanged_ap]
  obtain ⟨d, hd⟩ : ∃ d : Chip, c.modeChanged p old fin = d.writeMode p fin := ⟨_, rfl⟩
  have hplaced : d.ap.placed = c.ap.placed := by
    rw [hd, Chip.writeMode_ap] at hap
    exact hap
  have hscreen : (d.writeMode p fin).screen p = d.screen p := by
    unfold Chip.screen
    rw [Chip.writeMode_screens]
  have hwrite : (d.writeMode p fin).modeWrite p fin = d.modeWrite p fin :=
    Chip.modeWrite_congr (congrArg ApState.placed (Chip.writeMode_ap _ _ _)) hscreen fin
  rw [hd, hwrite]
  exact Chip.writeMode_word fin ((Chip.screenPlace_congr hplaced p).1.trans hp)

/-! ### What it leaves -/

/-- The screen asked for a mode: as it was but for the mode words, with the rows shown dirty where PLAIN in force changes. -/
structure Screen.Asked (x y : Screen) : Prop where
  sweep : y.sweep = x.sweep
  flight : y.flight = x.flight
  sweeping : y.sweeping = x.sweeping
  count : y.sweepCount = x.sweepCount
  dirty : ∀ r : Fin 25, hasRow y.dirty r = (hasRow x.dirty r || (y.plain != x.plain && y.mode.shows r && x.marks r))

/-- A mode change keeps the settings of the screen. -/
theorem Screen.swept_reshown (y : Screen) (old : Mode) : (y.reshown old).swept = { y with
    modePending := true, dirty := (y.reshown old).dirty, sweep := (y.reshown old).sweep
    sweeping := (y.reshown old).swept.sweeping, sweepCount := (y.reshown old).swept.sweepCount } := by
  unfold Screen.swept
  split <;> rfl

/-- The sweep set after a mode change (R106). -/
theorem Screen.reshown_sweep (y : Screen) (old : Mode) (r : Fin 25) :
    hasRow (y.reshown old).sweep r = (hasRow y.sweep r && y.mode.shows r) := hasRow_rowSet _ r

/-- The dirty rows after a mode change (R106). -/
theorem Screen.reshown_dirty (y : Screen) (old : Mode) (r : Fin 25) : hasRow (y.reshown old).dirty r =
    (hasRow y.dirty r || (hasRow y.sweep r && !y.mode.shows r) || (y.mode.shows r && !old.shows r && y.marks r)) := by
  unfold Screen.reshown Screen.dirtyRows
  simp only [Screen.marks_eq, hasRow_rowSet]
  cases hshows : y.mode.shows r <;> simp

/-- The dirty rows of a screen asked for a mode, after the change. -/
theorem Screen.Asked.dirty_reshown {x y : Screen} (h : x.Asked y) (r : Fin 25) : hasRow (y.reshown x.mode).dirty r =
    (hasRow x.dirty r || (hasRow x.sweep r && !y.mode.shows r) ||
      (y.mode.shows r && !(hasRow x.sweep r || x.flight == some ⟨r, false⟩) && (!x.mode.shows r || y.plain != x.plain))) := by
  rw [Screen.reshown_dirty, h.dirty, Screen.marks_eq, Screen.marks_eq, h.sweep, h.flight]
  cases y.mode.shows r <;> cases x.mode.shows r <;> cases (y.plain != x.plain) <;> simp

/-- Whether a sweep is complete, in words. -/
theorem Screen.complete_iff (x : Screen) :
    x.complete = true ↔ x.sweeping = true ∧ x.flight = none ∧ ∀ r : Fin 25, hasRow x.sweep r = false := by
  unfold Screen.complete rowsEmpty
  rw [rows_eq]
  simp
  tauto

/-- A complete sweep is one that a mode change leaves with no row. -/
theorem Screen.Asked.complete_reshown {x y : Screen} (h : x.Asked y) : (y.reshown x.mode).complete = true ↔
    x.sweeping = true ∧ x.flight = none ∧ ∀ r : Fin 25, hasRow (y.reshown x.mode).sweep r = false := by
  rw [Screen.complete_iff]
  show y.sweeping = true ∧ y.flight = none ∧ _ ↔ _
  rw [h.sweeping, h.flight]

/-- The drops after a mode change: a screen now BLANKED has its release withdrawn (R104, R132). -/
theorem Chip.modeChanged_slc (c : Chip) (p : Fin 12) (old : Mode) (fin : Bool) : (c.modeChanged p old fin).slc =
    if (c.screen p).mode.kind == .blanked then (c.withdraw p).slc else c.slc := by
  unfold Chip.modeChanged
  dsimp only
  rw [Chip.writeMode_slc, Chip.sweepCheck_slc]
  simp only [Chip.screen_onScreen_same, Screen.dirtyRows, apply_ite Chip.slc]
  rfl

/-- A mode change of a screen asked for it has the effects of R106. `c` is the part before, `d` the part that was asked. -/
theorem Chip.modeChanged_effects {c d : Chip} {p : Fin 12} (hasked : (c.screen p).Asked (d.screen p)) (hplaced : d.ap.placed = c.ap.placed)
    (fin : Bool) : c.ModeChanged (d.modeChanged p (c.screen p).mode fin) p fin := by
  let e := d.modeChanged p (c.screen p).mode fin
  let y := (d.screen p).reshown (c.screen p).mode
  have hscreen : e.screen p = y.swept := by
    unfold Chip.screen
    rw [Chip.modeChanged_screens]
    exact vupd_get_same _ _ _
  have hsame := (d.screen p).swept_reshown (c.screen p).mode
  have hmode : (e.screen p).mode = (d.screen p).mode := by rw [hscreen, hsame]
  have hplain : (e.screen p).plain = (d.screen p).plain := by rw [hscreen, hsame]
  have hsweep : (e.screen p).sweep = y.sweep := by rw [hscreen, hsame]
  have hdirty : (e.screen p).dirty = y.dirty := by rw [hscreen, hsame]
  constructor
  case pending =>
    rw [hscreen, hsame]
    exact ⟨rfl, hasked.flight⟩
  case sweep =>
    intro r
    rw [hsweep, hmode, Screen.reshown_sweep, hasked.sweep]
  case dirty =>
    intro a b r
    rw [hdirty, hmode, hplain]
    exact hasked.dirty_reshown r
  case complete =>
    intro a ends
    have hends : ends ↔ y.complete = true := by
      rw [hasked.complete_reshown, ← hsweep]
    rw [hscreen, hends]
    refine ⟨fun h => ?_, fun h => ?_⟩
    · rw [Screen.swept, if_pos h]
      exact ⟨rfl, congrArg (fun n => (n + 1) % Config.wordModulus) hasked.count⟩
    · rw [Screen.swept, if_neg h]
      exact ⟨hasked.sweeping, hasked.count⟩
  case word =>
    intro hp
    have hplaced' : e.ap.placed = c.ap.placed := (congrArg ApState.placed (Chip.modeChanged_ap _ _ _ _)).trans hplaced
    have hword := Chip.modeChanged_word (c.screen p).mode fin ((Chip.screenPlace_congr hplaced p).1.trans hp)
    unfold Chip.modeWrite at hword
    rwa [(Chip.screenPlace_congr hplaced' p).2] at hword
  case release =>
    intro h
    have hblanked : (d.screen p).mode.kind = .blanked := by rw [← hmode]; exact h
    unfold Chip.drop
    rw [Chip.modeChanged_slc, if_pos (beq_iff_eq.mpr hblanked)]
    exact congrArg Drop.pulse (vupd_get_same _ _ _)

/-- The other screens stand. -/
theorem Chip.modeChanged_others (c : Chip) (p : Fin 12) (old : Mode) (fin : Bool) :
    SameBut p c.scu.screens (c.modeChanged p old fin).scu.screens := by
  rw [Chip.modeChanged_screens]
  exact sameBut_vupd _ _ _

end Sys2Proof.Machine
end

section
/-! PROOF. SCREEN_MODE and SCREEN_REFRESH (O34). -/

namespace Sys2Proof.Machine

/-! ### The mode operand -/

/-- The number operand 1 of SCREEN_MODE holds: bits 0 to 1 the kind, 2 PLAIN, 8 to 12 the first row, 16 to 20 the last. -/
def modeOperandNumber (kind : ModeKind) (first last : Fin 32) (plain : Bool) : Nat :=
  kind.code + 4 * flagBit plain + 256 * first.val + 65536 * last.val

/-- It is one of a word. -/
theorem modeOperandNumber_lt (kind : ModeKind) (first last : Fin 32) (plain : Bool) :
    modeOperandNumber kind first last plain < 2 ^ 21 := by
  have hlow : kind.code + 4 * flagBit plain < 8 := by cases kind <;> cases plain <;> decide
  unfold modeOperandNumber
  omega

/-- The word of operand 1 holds it. -/
theorem modeOperandNumber_toNat (kind : ModeKind) (first last : Fin 32) (plain : Bool) :
    (wd (modeOperandNumber kind first last plain)).toNat = modeOperandNumber kind first last plain := by
  have hlt := modeOperandNumber_lt kind first last plain
  rw [toNat_wd]
  exact Nat.mod_eq_of_lt (lt_trans hlt (by decide))

/-- Its bits outside those that Table 12-3 assigns are 0. -/
theorem modeOperandNumber_unassigned (kind : ModeKind) (first last : Fin 32) (plain : Bool) (i : Nat)
    (hi : (3 ≤ i ∧ i < 8) ∨ (13 ≤ i ∧ i < 16) ∨ (21 ≤ i ∧ i < 32)) :
    modeOperandNumber kind first last plain / 2 ^ i % 2 = 0 := by
  have hlow : kind.code + 4 * flagBit plain < 8 := by cases kind <;> cases plain <;> decide
  have hfirst := first.isLt
  have hlast := last.isLt
  unfold modeOperandNumber
  generalize kind.code + 4 * flagBit plain = low at hlow ⊢
  obtain ⟨h1, h2⟩ | ⟨h1, h2⟩ | ⟨h1, h2⟩ := hi
  all_goals interval_cases i <;> omega

/-- The operand keeps within the mask. -/
theorem modeOperandNumber_mask (kind : ModeKind) (first last : Fin 32) (plain : Bool) :
    wd (modeOperandNumber kind first last plain) &&& modeOperandMask = wd (modeOperandNumber kind first last plain) := by
  have hmask : ∀ i : Fin 32, modeOperandMask.getLsbD i.val = true ∨
      (3 ≤ i.val ∧ i.val < 8) ∨ (13 ≤ i.val ∧ i.val < 16) ∨ (21 ≤ i.val ∧ i.val < 32) := by decide
  refine BitVec.eq_of_getLsbD_eq fun i hi => ?_
  rw [BitVec.getLsbD_and]
  obtain h | h := hmask ⟨i, hi⟩
  · rw [h, Bool.and_true]
  · have hzero : (wd (modeOperandNumber kind first last plain)).getLsbD i = false := by
      rw [BitVec.getLsbD, modeOperandNumber_toNat, Nat.testBit_eq_decide_div_mod_eq, modeOperandNumber_unassigned _ _ _ _ i h]
      rfl
    rw [hzero, Bool.false_and]

/-- Its fields (Table 12-3). -/
theorem modeOperandNumber_fields (kind : ModeKind) (first last : Fin 32) (plain : Bool) :
    field (wd (modeOperandNumber kind first last plain)) 0 2 = kind.code ∧
    flagAt (wd (modeOperandNumber kind first last plain)) 2 = plain ∧
    field (wd (modeOperandNumber kind first last plain)) 8 5 = first.val ∧
    field (wd (modeOperandNumber kind first last plain)) 16 5 = last.val := by
  have hfirst := first.isLt
  have hlast := last.isLt
  unfold flagAt field
  rw [modeOperandNumber_toNat, modeOperandNumber]
  have hkind : kind.code ≤ 2 := by cases kind <;> decide
  have hplain : flagBit plain ≤ 1 := by cases plain <;> decide
  have hbit : (flagBit plain == 1) = plain := by cases plain <;> rfl
  have hflag : (kind.code + 4 * flagBit plain + 256 * first.val + 65536 * last.val) / 2 ^ 2 % 2 ^ 1 = flagBit plain := by omega
  rw [hflag, hbit]
  refine ⟨?_, rfl, ?_, ?_⟩ <;> omega

/-- The mode operand 1 asks for (R31, R107). -/
def modeAsked (kind : ModeKind) (first last : Fin 32) : Mode :=
  if kind = .partialRows then ⟨kind, first.val, last.val⟩ else ⟨kind, 0, 23⟩

/-- It is allowed where its rows rise to at most 23. -/
theorem modeOperand_asked (kind : ModeKind) (first last : Fin 32) (plain : Bool) :
    modeOperand (wd (modeOperandNumber kind first last plain)) =
      if (modeAsked kind first last).first ≤ (modeAsked kind first last).last ∧ (modeAsked kind first last).last ≤ 23
      then some (modeAsked kind first last) else none := by
  obtain ⟨hkind, -, hfirst, hlast⟩ := modeOperandNumber_fields kind first last plain
  unfold modeOperand
  dsimp only
  rw [modeOperandNumber_mask, hkind, hfirst, hlast]
  cases kind <;> simp [modeAsked, ModeKind.code, modeKindOfCode]

/-- SCREEN_MODE served by its operands (R31). -/
theorem Chip.serveWith_screenMode (c : Chip) (p : Fin 12) (kind : ModeKind) (first last : Fin 32) (plain : Bool) :
    c.serveWith .screenMode (wd p.val) (wd (modeOperandNumber kind first last plain)) =
      if (modeAsked kind first last).first ≤ (modeAsked kind first last).last ∧ (modeAsked kind first last).last ≤ 23
      then c.serveScreenMode p (modeAsked kind first last) plain else c.badOperand := by
  obtain ⟨-, hplain, -, -⟩ := modeOperandNumber_fields kind first last plain
  unfold Chip.serveWith
  dsimp only
  rw [operandFin_wd p (by decide), modeOperand_asked, hplain]
  by_cases h : (modeAsked kind first last).first ≤ (modeAsked kind first last).last ∧ (modeAsked kind first last).last ≤ 23
  · rw [if_pos h, if_pos h]
  · rw [if_neg h, if_neg h]

/-- SCREEN_REFRESH served by its operands (R31). -/
theorem Chip.serveWith_screenRefresh (c : Chip) (p : Fin 12) :
    c.serveWith .screenRefresh (wd p.val) 0 = c.serveScreenRefresh p := by
  unfold Chip.serveWith
  dsimp only
  rw [operandFin_wd p (by decide)]
  exact if_pos (beq_self_eq_true _)

/-! ### PLAIN and the mode asked for -/

/-- The screen with PLAIN in force as decided: the rows shown are dirty where that changes it (R105, R106). -/
def Screen.withPlain (x : Screen) (plain : Bool) : Screen :=
  if plain = x.plain then x else { x with plain := plain }.dirtyRows x.mode.shows

/-- The fields it leaves, and PLAIN. -/
theorem Screen.withPlain_eq (x : Screen) (plain : Bool) : x.withPlain plain = { x with
    plain := plain, dirty := (x.withPlain plain).dirty } := by
  unfold Screen.withPlain
  split
  · next h => subst h; rfl
  · rfl

/-- A screen with another mode and PLAIN is one that is asked for them. -/
theorem Screen.asked_withPlain {x y : Screen} (hd : y.dirty = x.dirty) (hs : y.sweep = x.sweep) (hf : y.flight = x.flight)
    (hw : y.sweeping = x.sweeping) (hn : y.sweepCount = x.sweepCount) (hp : y.plain = x.plain) (plain : Bool) :
    x.Asked (y.withPlain plain) := by
  rw [Screen.withPlain_eq]
  refine ⟨hs, hf, hw, hn, fun r => ?_⟩
  show hasRow (y.withPlain plain).dirty r = (hasRow x.dirty r || (plain != x.plain && y.mode.shows r && x.marks r))
  have hmarks : ({ y with plain := plain } : Screen).marks r = x.marks r := by
    rw [Screen.marks_eq, Screen.marks_eq]
    show (!(hasRow y.sweep r || y.flight == _)) = _
    rw [hs, hf]
  unfold Screen.withPlain
  split
  · next h =>
    rw [hd, h, hp]
    simp
  · next h =>
    have hne : (plain != x.plain) = true := bne_iff_ne.mpr (hp ▸ h)
    rw [Screen.dirtyRows, hasRow_rowSet, hmarks, hne]
    show (hasRow y.dirty r || _) = _
    rw [hd, Bool.true_and]

/-- PLAIN in force where what is asked of it is `plain`: decided afresh where that changes (R105). -/
def Chip.plainAsked (c : Chip) (p : Fin 12) (plain : Bool) : Bool :=
  if (c.screen p).askedPlain = plain then (c.screen p).plain else plain || !c.colourCapable p

/-- The screen with a mode and a PLAIN asked for: of an auto-blanked one the remembered mode (R107, R109). -/
def Screen.ask (x : Screen) (m : Mode) (plain : Bool) : Screen :=
  if x.autoBlanked = true then { x with remembered := some m, askedPlain := plain } else { x with mode := m, askedPlain := plain }

/-- Two changes of one screen. -/
theorem Chip.onScreen_onScreen (c : Chip) (p : Fin 12) (f g : Screen → Screen) :
    (c.onScreen p f).onScreen p g = c.onScreen p fun x => g (f x) := by
  unfold Chip.onScreen
  dsimp only
  rw [vupd_vupd]

/-- A change of one screen is told by what it makes of it. -/
theorem Chip.onScreen_congr (c : Chip) (p : Fin 12) {f g : Screen → Screen} (h : f (c.screen p) = g (c.screen p)) :
    c.onScreen p f = c.onScreen p g := by
  unfold Chip.onScreen
  rw [vupd_congr c.scu.screens p f g h]

/-- PLAIN decided for a screen that is changed first (R105). -/
theorem Chip.onScreen_withPlain (c : Chip) (p : Fin 12) (f : Screen → Screen) (plain : Bool) :
    (c.onScreen p fun x => (f x).withPlain plain) = if plain = (f (c.screen p)).plain then c.onScreen p f
      else (c.onScreen p f).onScreen p fun x => { x with plain := plain }.dirtyRows x.mode.shows := by
  split
  · next h => exact c.onScreen_congr p (if_pos h)
  · next h =>
    rw [Chip.onScreen_onScreen]
    exact c.onScreen_congr p (if_neg h)

/-- What is asked of PLAIN, decided for a screen that has been changed to ask for it. -/
theorem Chip.plainAsked_eq (c : Chip) (p : Fin 12) (f : Screen → Screen) {plain : Bool} (hf : (f (c.screen p)).askedPlain = plain) :
    (if ((c.screen p).askedPlain == plain) = true then (c.screen p).plain else (c.onScreen p f).plainOf p) = c.plainAsked p plain := by
  have hplain : (c.onScreen p f).plainOf p = (plain || !c.colourCapable p) := by
    unfold Chip.plainOf
    rw [Chip.screen_onScreen_same, hf]
    rfl
  rw [hplain]
  exact if_congr beq_iff_eq rfl rfl

/-- SCREEN_MODE is served (R104 to R107). -/
theorem Chip.serveScreenMode_eq (c : Chip) (p : Fin 12) (m : Mode) (plain : Bool) : c.serveScreenMode p m plain =
    let x := c.screen p
    let d := c.onScreen p fun x => (x.ask m plain).withPlain (c.plainAsked p plain)
    if x.autoBlanked = true then if c.plainAsked p plain = x.plain then d.writeMode p true else d.modeChanged p x.mode true
    else if x.mode = m ∧ x.askedPlain = plain then c.requestDone else d.modeChanged p x.mode true := by
  unfold Chip.serveScreenMode
  dsimp only
  by_cases hauto : (c.screen p).autoBlanked = true
  · have hask : (c.onScreen p fun x => x.ask m plain) = c.onScreen p fun x => { x with remembered := some m, askedPlain := plain } :=
      c.onScreen_congr p (if_pos hauto)
    have hold : ((c.screen p).ask m plain).plain = (c.screen p).plain := by rw [Screen.ask, if_pos hauto]
    rw [if_pos hauto, if_pos hauto, c.plainAsked_eq p (fun x => { x with remembered := some m, askedPlain := plain }) rfl,
      Chip.onScreen_withPlain, hask, hold]
    by_cases hsame : c.plainAsked p plain = (c.screen p).plain
    · rw [if_pos hsame, if_pos hsame, if_pos (beq_iff_eq.mpr hsame)]
    · rw [if_neg hsame, if_neg hsame, if_neg (mt beq_iff_eq.mp hsame)]
  · have hask : (c.onScreen p fun x => x.ask m plain) = c.onScreen p fun x => { x with mode := m, askedPlain := plain } :=
      c.onScreen_congr p (if_neg hauto)
    have hold : ((c.screen p).ask m plain).plain = (c.screen p).plain := by rw [Screen.ask, if_neg hauto]
    rw [if_neg hauto, if_neg hauto, c.plainAsked_eq p (fun x => { x with mode := m, askedPlain := plain }) rfl,
      Chip.onScreen_withPlain, hask, hold]
    refine if_congr (by simp) rfl (congrArg (fun d : Chip => d.modeChanged p (c.screen p).mode true) ?_)
    exact if_congr beq_iff_eq rfl rfl

/-- What it asks for, among the fields of the screen. -/
theorem Screen.ask_eq (x : Screen) (m : Mode) (plain : Bool) : x.ask m plain = { x with
    mode := if x.autoBlanked = true then x.mode else m
    remembered := if x.autoBlanked = true then some m else x.remembered
    askedPlain := plain } := by
  unfold Screen.ask
  split <;> rfl

/-- The screen asked, as a mode change takes it. -/
theorem Screen.asked_ask (x : Screen) (m : Mode) (plain new : Bool) : x.Asked ((x.ask m plain).withPlain new) := by
  rw [Screen.ask_eq]
  refine Screen.asked_withPlain ?_ ?_ ?_ ?_ ?_ ?_ new <;> rfl

/-- The mode words of a screen: what SCREEN_MODE sets of them. -/
structure Screen.HasAsked (x b : Screen) (m : Mode) (plain new : Bool) : Prop where
  mode : b.mode = if x.autoBlanked = true then x.mode else m
  remembered : b.remembered = if x.autoBlanked = true then some m else x.remembered
  askedPlain : b.askedPlain = plain
  autoBlanked : b.autoBlanked = x.autoBlanked
  plain : b.plain = new

/-- The screen asked has them. -/
theorem Screen.hasAsked_ask (x : Screen) (m : Mode) (plain new : Bool) :
    x.HasAsked ((x.ask m plain).withPlain new) m plain new := by
  rw [Screen.withPlain_eq, Screen.ask_eq]
  constructor <;> rfl

/-- A mode change keeps them. -/
theorem Screen.HasAsked.reshown {x y : Screen} {m : Mode} {plain new : Bool} (h : x.HasAsked y m plain new) (old : Mode) :
    x.HasAsked (y.reshown old).swept m plain new := by
  rw [Screen.swept_reshown]
  obtain ⟨hmode, hremembered, hasked, hauto, hplain⟩ := h
  constructor <;> assumption

/-- What SCREEN_MODE leaves of the screen's mode words (R104, R105, R107). -/
theorem Chip.serveScreenMode_asked (c : Chip) (p : Fin 12) (m : Mode) (plain : Bool) :
    (c.screen p).HasAsked ((c.serveScreenMode p m plain).screen p) m plain (c.plainAsked p plain) := by
  let d := c.onScreen p fun x => (x.ask m plain).withPlain (c.plainAsked p plain)
  have hd : (c.screen p).HasAsked (d.screen p) m plain (c.plainAsked p plain) := by
    rw [Chip.screen_onScreen_same]
    exact (c.screen p).hasAsked_ask m plain _
  have hwrite : (d.writeMode p true).screen p = d.screen p := by
    unfold Chip.screen
    rw [Chip.writeMode_screens]
  have hchange : (d.modeChanged p (c.screen p).mode true).screen p = ((d.screen p).reshown (c.screen p).mode).swept := by
    unfold Chip.screen
    rw [Chip.modeChanged_screens]
    exact vupd_get_same _ _ _
  rw [Chip.serveScreenMode_eq]
  dsimp only
  split
  · split
    · exact hwrite ▸ hd
    · exact hchange ▸ hd.reshown _
  · next hauto =>
    split
    · next hsame =>
      obtain ⟨hmode, hplain⟩ := hsame
      have hdone : c.requestDone.screen p = c.screen p := by
        unfold Chip.screen
        rw [Chip.requestDone_scu]
      rw [hdone]
      exact ⟨by rw [if_neg hauto, hmode], by rw [if_neg hauto], hplain, rfl, by rw [Chip.plainAsked, if_pos hplain]⟩
    · exact hchange ▸ hd.reshown _

/-- The other screens stand. -/
theorem Chip.serveScreenMode_others (c : Chip) (p : Fin 12) (m : Mode) (plain : Bool) :
    SameBut p c.scu.screens (c.serveScreenMode p m plain).scu.screens := by
  have hd := sameBut_vupd c.scu.screens p fun x => (x.ask m plain).withPlain (c.plainAsked p plain)
  have hchange : SameBut p c.scu.screens ((c.onScreen p fun x => (x.ask m plain).withPlain (c.plainAsked p plain)).modeChanged p
      (c.screen p).mode true).scu.screens := fun q hq => ((Chip.modeChanged_others _ p _ true) q hq).trans (hd q hq)
  rw [Chip.serveScreenMode_eq]
  dsimp only
  split
  · split
    · rw [Chip.writeMode_screens]
      exact hd
    · exact hchange
  · split
    · rw [Chip.requestDone_scu]
      exact fun _ _ => rfl
    · exact hchange

/-- What a mode change leaves is told by the screen and its place before it. -/
theorem Chip.ModeChanged.of_parts {c c' d : Chip} {p : Fin 12} {fin : Bool} (h : c.ModeChanged d p fin)
    (hs : c'.screen p = c.screen p) (hp : c'.ap.placed = c.ap.placed) : c'.ModeChanged d p fin := by
  obtain ⟨pending, sweep, dirty, complete, word, release⟩ := h
  obtain ⟨hpresent, haddr⟩ := Chip.screenPlace_congr hp p
  constructor
  case word => rw [hpresent, haddr]; exact word
  case release => exact release
  all_goals rw [hs]; assumption

/-- What SCREEN_MODE asks for of the mode or of PLAIN in force is a mode change (R106). -/
theorem Chip.serveScreenMode_effects (c : Chip) (p : Fin 12) (m : Mode) (plain : Bool)
    (h : (c.screen p).autoBlanked = true ∧ c.plainAsked p plain ≠ (c.screen p).plain ∨
      (c.screen p).autoBlanked = false ∧ ¬ ((c.screen p).mode = m ∧ (c.screen p).askedPlain = plain)) : c.ModeChanged (c.serveScreenMode p m plain) p true := by
  let d := c.onScreen p fun x => (x.ask m plain).withPlain (c.plainAsked p plain)
  have hchange : c.serveScreenMode p m plain = d.modeChanged p (c.screen p).mode true := by
    rw [Chip.serveScreenMode_eq]
    dsimp only
    obtain ⟨hauto, h⟩ | ⟨hauto, h⟩ := h
    · rw [if_pos hauto, if_neg h]
    · rw [if_neg (Bool.eq_false_iff.mp hauto), if_neg h]
  have hasked : (c.screen p).Asked (d.screen p) := by
    rw [Chip.screen_onScreen_same]
    exact (c.screen p).asked_ask m plain _
  have hplaced : d.ap.placed = c.ap.placed := congrArg ApState.placed (c.onScreen_ap p _)
  rw [hchange]
  exact Chip.modeChanged_effects hasked hplaced true

/-- On an auto-blanked screen, with PLAIN in force as before, only what is remembered changes, and the mode word is written
(R109). -/
theorem Chip.serveScreenMode_remembered (c : Chip) (p : Fin 12) (m : Mode) (plain : Bool) (hauto : (c.screen p).autoBlanked = true)
    (hplain : c.plainAsked p plain = (c.screen p).plain) :
    (c.serveScreenMode p m plain).screen p = { c.screen p with remembered := some m, askedPlain := plain } ∧
    (c.screenPresent p = true → .mode p true ∈ (c.serveScreenMode p m plain).scu.work ∨
      ⟨.write (c.screenAddr p 4004) [((c.serveScreenMode p m plain).screen p).modeWord], .scuMode, true⟩ ∈
        ((c.serveScreenMode p m plain).own[rSCU.val] : List OwnReq)) := by
  let d := c.onScreen p fun x => (x.ask m plain).withPlain (c.plainAsked p plain)
  have hserve : c.serveScreenMode p m plain = d.writeMode p true := by
    rw [Chip.serveScreenMode_eq]
    dsimp only
    rw [if_pos hauto, if_pos hplain]
  have hwrite : (d.writeMode p true).screen p = d.screen p := by
    unfold Chip.screen
    rw [Chip.writeMode_screens]
  have hd : d.screen p = { c.screen p with remembered := some m, askedPlain := plain } := by
    rw [Chip.screen_onScreen_same, Screen.withPlain, Screen.ask, if_pos hauto]
    split
    · rfl
    · next hnew => exact absurd hplain hnew
  rw [hserve, hwrite]
  exact ⟨hd, fun hp => Chip.writeMode_word (c := d) true hp⟩

/-! ### The two requests -/

/-- A request in service that ends at once, with nothing else asked of SU: its result is what SU is asked for (R32). -/
theorem Chip.inService_ends {c : Chip} (hn : c.own[rSU.val] = []) (p : HostProg) (code : Nat) (reason : Option Reason)
    (detail : Nat) : ((c.inService p code).endsWith code reason detail).own[rSU.val] = [resultAsked c code reason detail] := by
  refine (vupd_get_same _ _ _).trans ?_
  show c.own[rSU.val] ++ _ = _
  rw [hn]
  rfl

/-- Only AP, SU and SU's accesses know of it. -/
theorem Chip.inService_ends_only (c : Chip) (p : HostProg) (code : Nat) (reason : Option Reason) (detail : Nat) :
    c.Only [.ap, .su, .own] ((c.inService p code).endsWith code reason detail) := by
  constructor <;> simp [Chip.inService, Chip.endsWith]

/-- PLAIN asked for, in the words of R105. -/
theorem Chip.inService_plainAsked (c : Chip) (prog : HostProg) (code : Nat) (p : Fin 12) (plain : Bool) :
    (c.inService prog code).plainAsked p plain = if (c.screen p).askedPlain = plain then (c.screen p).plain
      else plain || !(if c.setting (.capOverride p) = 1 then c.setting (.colour p) == 1 else (c.drop p).colour) := by
  have hcolour : c.colourCapable p = if c.setting (.capOverride p) = 1 then c.setting (.colour p) == 1 else (c.drop p).colour :=
    if_congr beq_iff_eq rfl rfl
  rw [← hcolour]
  rfl

/-- All rows become dirty but those waiting to be read, and a MODE frame is due (R108). -/
theorem Chip.serveScreenRefresh_screen (c : Chip) (p : Fin 12) :
    (c.serveScreenRefresh p).scu.screens = vupd c.scu.screens p fun x => { x with modePending := true }.dirtyRows fun _ => true := by
  unfold Chip.serveScreenRefresh Chip.markAll
  rw [Chip.onScreen_onScreen, Chip.requestDone_scu]
  rfl

/-- The rows dirty after a refresh (R108). -/
theorem Screen.refreshed_dirty (x : Screen) (r : Fin 25) : hasRow ({ x with modePending := true }.dirtyRows fun _ => true).dirty r =
    (hasRow x.dirty r || !(hasRow x.sweep r || x.flight == some ⟨r, false⟩)) := by
  rw [Screen.dirtyRows, hasRow_rowSet, Screen.marks_eq, Bool.true_and]

/-- A SCREEN_MODE served alone (R31). -/
theorem State.Alone.screenMode {s : State} (hs : s.Alone) (hw : s.chip.SetupWord 0x100) {p : Fin 12} {kind : ModeKind}
    {first last : Fin 32} {plain : Bool}
    (hops : s.chip.OperandsAre s.mem (wd p.val) (wd (modeOperandNumber kind first last plain))) {P : State → Prop}
    (hP : ∀ prog a, P { s with
      chip := if (modeAsked kind first last).first ≤ (modeAsked kind first last).last ∧ (modeAsked kind first last).last ≤ 23
        then (s.chip.inService prog 9).serveScreenMode p (modeAsked kind first last) plain
        else (s.chip.inService prog 9).endsWith 9 (some .badOperand) 0
      arb := a }) : CompletesStored .screenMode s P := by
  refine hs.served hw (r := .screenMode) rfl rfl (.inr rfl) hops fun prog a => ?_
  have hbad : (s.chip.inService prog 9).badOperand = (s.chip.inService prog 9).endsWith 9 (some .badOperand) 0 := Chip.badOperand_eq rfl
  have h := hP prog a
  rw [← hbad, ← Chip.serveWith_screenMode] at h
  exact h

/-- A SCREEN_REFRESH served alone (R31). -/
theorem State.Alone.screenRefresh {s : State} (hs : s.Alone) (hw : s.chip.SetupWord 0x100) {p : Fin 12}
    (hops : s.chip.OperandsAre s.mem (wd p.val) 0) {P : State → Prop}
    (hP : ∀ prog a, P { s with chip := (s.chip.inService prog 10).serveScreenRefresh p, arb := a }) :
    CompletesStored .screenRefresh s P := by
  refine hs.served hw (r := .screenRefresh) rfl rfl (.inr rfl) hops fun prog a => ?_
  have h := hP prog a
  rw [← Chip.serveWith_screenRefresh] at h
  exact h

/-- SCREEN_REFRESH touches its screen and ends (R108). -/
theorem Chip.serveScreenRefresh_only {c : Chip} (hn : c.own[rSU.val] = []) (prog : HostProg) (p : Fin 12) :
    ((c.inService prog 10).serveScreenRefresh p).own[rSU.val] = [resultAsked c 10 none 0] ∧
      c.Only [.ap, .su, .scu, .own] ((c.inService prog 10).serveScreenRefresh p) := by
  let d := ((c.inService prog 10).onScreen p fun x => { x with modePending := true }).markAll p
  have hserve : (c.inService prog 10).serveScreenRefresh p = d.endsWith 10 none 0 := Chip.requestDone_eq (c := d) rfl
  rw [hserve]
  refine ⟨(vupd_get_same _ _ _).trans ?_, ?_⟩
  · show c.own[rSU.val] ++ _ = _
    rw [hn]
    rfl
  · constructor <;> simp [d, Chip.endsWith, Chip.markAll, Chip.inService]

/-- Settles O34. -/
theorem screenRequestsServed : Obligations.ScreenRequestsServed := by
  unfold Obligations.ScreenRequestsServed
  refine ⟨fun s p kind first last plain hs hw hops => ⟨fun hbad => ?_, fun hrise hlast => ?_⟩, fun s p hs hw hops => ?_⟩
  · refine hs.screenMode hw hops fun prog a => ?_
    have hnot : ¬ ((modeAsked kind first last).first ≤ (modeAsked kind first last).last ∧ (modeAsked kind first last).last ≤ 23) :=
      fun h => hbad.elim (not_lt.mpr h.1) (not_lt.mpr h.2)
    rw [if_neg hnot]
    exact ⟨s.chip.inService_ends_only prog 9 _ 0, Chip.inService_ends (hs.none rSU) prog 9 _ 0⟩
  · refine hs.screenMode hw hops fun prog a => ?_
    rw [if_pos ⟨hrise, hlast⟩]
    let m := modeAsked kind first last
    let c := s.chip.inService prog 9
    let x := s.chip.screen p
    have hmodes : x.HasAsked ((c.serveScreenMode p m plain).screen p) m plain (c.plainAsked p plain) := c.serveScreenMode_asked p m plain
    have heffects := c.serveScreenMode_effects p m plain
    have hremembered := c.serveScreenMode_remembered p m plain
    have hplain := s.chip.inService_plainAsked prog 9 p plain
    refine ⟨fun hauto => ?_, fun hauto => ⟨?_, ?_⟩, hmodes.askedPlain, hmodes.autoBlanked, fun hauto hm hp => ?_, hmodes.plain.trans hplain,
      fun hauto hnew => ?_, fun hauto hnew => ?_, fun hauto hold => ?_, c.serveScreenMode_others p m plain⟩
    · exact hmodes.mode.trans (if_neg (Bool.eq_false_iff.mp hauto))
    · exact hmodes.remembered.trans (if_pos hauto)
    · exact hmodes.mode.trans (if_pos hauto)
    · have hdone : c.serveScreenMode p m plain = c.endsWith 9 none 0 := by
        rw [Chip.serveScreenMode_eq]
        exact (if_neg (Bool.eq_false_iff.mp hauto)).trans ((if_pos ⟨hm, hp⟩).trans (Chip.requestDone_eq rfl))
      show s.chip.Only _ (c.serveScreenMode p m plain) ∧ (c.serveScreenMode p m plain).own[rSU.val] = _
      rw [hdone]
      exact ⟨s.chip.inService_ends_only prog 9 none 0, Chip.inService_ends (hs.none rSU) prog 9 none 0⟩
    · exact (heffects (.inr ⟨hauto, not_and_or.mpr hnew⟩)).of_parts rfl rfl
    · exact (heffects (.inl ⟨hauto, fun h => hnew (hmodes.plain.trans h)⟩)).of_parts rfl rfl
    · exact hremembered hauto (hmodes.plain.symm.trans hold)
  · refine hs.screenRefresh hw hops fun prog a => ?_
    have hscreen : ((s.chip.inService prog 10).serveScreenRefresh p).screen p =
        { s.chip.screen p with modePending := true }.dirtyRows fun _ => true := by
      unfold Chip.screen
      rw [Chip.serveScreenRefresh_screen]
      exact vupd_get_same _ _ _
    obtain ⟨hown, honly⟩ := Chip.serveScreenRefresh_only (hs.none rSU) prog p
    refine ⟨?_, ?_, hown, honly⟩
    · rw [hscreen]
      exact ⟨rfl, (s.chip.screen p).refreshed_dirty⟩
    · show SameBut p s.chip.scu.screens ((s.chip.inService prog 10).serveScreenRefresh p).scu.screens
      rw [Chip.serveScreenRefresh_screen]
      exact sameBut_vupd _ _ _

end Sys2Proof.Machine
end

section
/-! PROOF. The settings of the screens and of the printers (O23). -/

namespace Sys2Proof.Machine

/-! ### IDLE_BLANK -/

/-- A screen whose idle timer restarts (R109). -/
def Screen.idleRestarted (x : Screen) : Screen := { x with idleMs := 0, idleExpired := false }

/-- All twelve restart. -/
theorem Chip.restartAllIdle_screen (c : Chip) (p : Fin 12) : c.restartAllIdle.screen p = (c.screen p).idleRestarted := by
  have hmem : ∀ p, p ∈ positions := by decide
  have hnodup : positions.Nodup := by decide
  unfold Chip.restartAllIdle
  rw [foldl_entries (fun c p => c.screen p) (fun c p => c.restartIdle p) Screen.idleRestarted
    (fun c p => c.screen_onScreen_same p _) (fun c p q hq => c.screen_onScreen_ne p q _ hq) positions hnodup c p]
  exact if_pos (hmem p)

/-- A change of IDLE_BLANK restarts the idle timers (R109). -/
theorem State.HostNext.idleBlank {s : State} (hs : s.HostNext) (v : Word) (hw : s.chip.SetupWord 0x2E0) :
    CompletesStored (.idleBlankWrite v allBytes) s fun t => ∀ p : Fin 12,
      t.chip.screen p = if Setting.idleBlank.clamp v.toNat = s.chip.setting .idleBlank then s.chip.screen p
        else { s.chip.screen p with idleMs := 0, idleExpired := false } := by
  refine hs.setting_written (k := .idleBlank) rfl rfl hw rfl fun d m a hd p => ?_
  have hscreen : d.screen p = s.chip.screen p := by
    unfold Chip.screen
    rw [hd.only.scu (by decide)]
  rw [← hscreen]
  split
  · rfl
  · exact d.restartAllIdle_screen p

/-! ### CAP_OVERRIDE and COLOUR -/

/-- PLAIN in force is decided, and a change of it is a mode change (R105, R106). -/
theorem Chip.decidePlain_eq (c : Chip) (p : Fin 12) : c.decidePlain p =
    if c.plainOf p = (c.screen p).plain then c
    else (c.onScreen p fun x => x.withPlain (c.plainOf p)).modeChanged p (c.screen p).mode false := by
  unfold Chip.decidePlain
  dsimp only
  by_cases h : c.plainOf p = (c.screen p).plain
  · rw [if_pos (beq_iff_eq.mpr h), if_pos h]
  · have hplain : (c.onScreen p fun x => x.withPlain (c.plainOf p)) =
        c.onScreen p fun x => { x with plain := c.plainOf p }.dirtyRows x.mode.shows := c.onScreen_congr p (if_neg h)
    rw [if_neg (mt beq_iff_eq.mp h), if_neg h, hplain, Chip.screen_onScreen_same]
    rfl

/-- What a decision of PLAIN leaves (R105, R106). -/
structure Chip.PlainDecided (c d : Chip) (p : Fin 12) : Prop where
  plain : (d.screen p).plain = c.plainOf p
  mode : (d.screen p).mode = (c.screen p).mode
  same : (d.screen p).plain = (c.screen p).plain → d.screen p = c.screen p
  changed : (d.screen p).plain ≠ (c.screen p).plain → (d.screen p).modePending = true ∧
    ∀ r : Fin 25, (c.screen p).mode.shows r = true → (c.screen p).marks r = true → hasRow (d.screen p).dirty r = true
  others : SameBut p c.scu.screens d.scu.screens

/-- A decision of PLAIN leaves this. -/
theorem Chip.decidePlain_decided (c : Chip) (p : Fin 12) : c.PlainDecided (c.decidePlain p) p := by
  rw [Chip.decidePlain_eq]
  by_cases hsame : c.plainOf p = (c.screen p).plain
  · rw [if_pos hsame]
    exact ⟨hsame.symm, rfl, fun _ => rfl, fun h => absurd rfl h, fun _ _ => rfl⟩
  · rw [if_neg hsame]
    let d := c.onScreen p fun x => x.withPlain (c.plainOf p)
    have hd : d.screen p = (c.screen p).withPlain (c.plainOf p) := c.screen_onScreen_same p _
    have hasked : (c.screen p).Asked (d.screen p) := by
      rw [hd]
      exact Screen.asked_withPlain rfl rfl rfl rfl rfl rfl _
    have hplaced : d.ap.placed = c.ap.placed := congrArg ApState.placed (c.onScreen_ap p _)
    obtain ⟨pending, -, dirty, -, -, -⟩ := Chip.modeChanged_effects hasked hplaced false
    have hscreen : (d.modeChanged p (c.screen p).mode false).screen p = ((d.screen p).reshown (c.screen p).mode).swept := by
      unfold Chip.screen
      rw [Chip.modeChanged_screens]
      exact vupd_get_same _ _ _
    have hplain : ((d.modeChanged p (c.screen p).mode false).screen p).plain = c.plainOf p := by
      rw [hscreen, Screen.swept_reshown, hd, Screen.withPlain_eq]
    have hmode : ((d.modeChanged p (c.screen p).mode false).screen p).mode = (c.screen p).mode := by
      rw [hscreen, Screen.swept_reshown, hd, Screen.withPlain_eq]
    refine ⟨hplain, hmode, fun h => absurd (hplain.symm.trans h) hsame, fun h => ⟨pending.1, fun r hshows hmarks => ?_⟩, fun q hq => ?_⟩
    · rw [Screen.marks_eq] at hmarks
      rw [dirty, hmode, hshows, hmarks, bne_iff_ne.mpr h]
      simp
    · exact (d.modeChanged_others p _ false q hq).trans (sameBut_vupd _ _ _ q hq)

/-- The write that a capability setting's value comes from. -/
theorem settingWritten_capability (p : Fin 12) (colour : Bool) (v : Word) (e : BitVec 4) :
    settingWritten (.capabilitySettingWrite p colour v e) = some (if colour then .colour p else .capOverride p, v, e) := by
  cases colour <;> rfl

/-- A changed capability setting has PLAIN decided. -/
theorem Chip.settingChanged_capability (c : Chip) (p : Fin 12) (colour : Bool) :
    c.settingChanged (if colour then .colour p else .capOverride p) = c.decidePlain p := by
  cases colour <;> rfl

/-- PLAIN as R105 decides it, in the words of the setting. -/
theorem Chip.plainOf_eq (c : Chip) (p : Fin 12) : c.plainOf p =
    ((c.screen p).askedPlain || !(if c.setting (.capOverride p) = 1 then c.setting (.colour p) == 1 else (c.drop p).colour)) := by
  have hcolour : c.colourCapable p = if c.setting (.capOverride p) = 1 then c.setting (.colour p) == 1 else (c.drop p).colour :=
    if_congr beq_iff_eq rfl rfl
  rw [← hcolour]
  rfl

/-- A capability setting written (R105, R106). -/
theorem State.HostNext.capability {s : State} (hs : s.HostNext) (p : Fin 12) (colour : Bool) (v : Word)
    (hw : s.chip.SetupWord (0x200 + 4 * (if colour then Setting.colour p else .capOverride p).index))
    (hnew : (if colour then Setting.colour p else .capOverride p).clamp v.toNat ≠
      s.chip.setting (if colour then Setting.colour p else .capOverride p)) :
    CompletesStored (.capabilitySettingWrite p colour v allBytes) s fun t =>
      let a := s.chip.screen p
      let b := t.chip.screen p
      b.plain = (a.askedPlain || !(if t.chip.setting (.capOverride p) = 1 then t.chip.setting (.colour p) == 1
        else (s.chip.drop p).colour)) ∧ b.mode = a.mode ∧
      (b.plain = a.plain → b = a) ∧
      (b.plain ≠ a.plain → b.modePending = true ∧
        ∀ r : Fin 25, a.mode.shows r = true → a.marks r = true → hasRow b.dirty r = true) ∧
      SameBut p s.chip.scu.screens t.chip.scu.screens := by
  have hplain : (if colour then Setting.colour p else .capOverride p).plain = true := by cases colour <;> rfl
  have hgroup : s.chip.frozen (if colour then Setting.colour p else .capOverride p).group = false := by cases colour <;> rfl
  refine hs.setting_written (settingWritten_capability p colour v allBytes) hplain hw hgroup fun d m a hd => ?_
  rw [if_neg hnew, Chip.settingChanged_capability]
  have hscu : d.scu = s.chip.scu := hd.only.scu (by decide)
  have hscreen : d.screen p = s.chip.screen p := by
    unfold Chip.screen
    rw [hscu]
  have hdrop : d.drop p = s.chip.drop p := by
    unfold Chip.drop
    rw [hd.only.slc (by decide)]
  have hsetting : ∀ k, ((d.decidePlain p).answerHost true []).setting k = d.setting k := fun k => by
    rw [Chip.setting_eq, Chip.setting_eq, Chip.answerHost_su, Chip.decidePlain_su]
  obtain ⟨plain, mode, same, changed, others⟩ := d.decidePlain_decided p
  rw [hscreen] at mode same changed
  rw [hscu] at others
  rw [Chip.plainOf_eq, hscreen, hdrop, ← hsetting, ← hsetting] at plain
  exact ⟨plain, mode, same, changed, others⟩

/-! ### DECIMALS and SEPARATORS -/

/-- The write that a format setting's value comes from. -/
theorem settingWritten_format (sep : Bool) (v : Word) (e : BitVec 4) :
    settingWritten (.formatSettingWrite sep v e) = some (if sep then .separators else .decimals, v, e) := by
  cases sep <;> rfl

/-- A changed format has every status row rendered (R113). -/
theorem Chip.settingChanged_format (c : Chip) (sep : Bool) :
    c.settingChanged (if sep then .separators else .decimals) = c.statusEventAll := by
  cases sep <;> rfl

/-- A format setting written (R113). -/
theorem State.HostNext.format {s : State} (hs : s.HostNext) (sep : Bool) (v : Word)
    (hw : s.chip.SetupWord (0x200 + 4 * (if sep then Setting.separators else .decimals).index)) (hf : s.chip.frozen .day = false)
    (hnew : (if sep then Setting.separators else .decimals).clamp v.toNat ≠ s.chip.setting (if sep then .separators else .decimals)) :
    CompletesStored (.formatSettingWrite sep v allBytes) s fun t => ∀ p : Fin 12, .status p ∈ t.chip.scu.work := by
  have hplain : (if sep then Setting.separators else .decimals).plain = true := by cases sep <;> rfl
  have hgroup : (if sep then Setting.separators else .decimals).group = .day := by cases sep <;> rfl
  refine hs.setting_written (settingWritten_format sep v allBytes) hplain hw (by rw [hgroup, hf]) fun d m a hd p => ?_
  rw [if_neg hnew, Chip.settingChanged_format]
  show .status p ∈ (d.statusEventAll.answerHost true []).scu.work
  rw [Chip.answerHost_scu]
  exact d.statusEventAll_status p

/-! ### The Feed Drives -/

/-- The feed after the settings of its modulation and its encoder change (R152, R158). -/
def Feed.settingChanged (f : Feed) : FeedSetting → Feed
  | .pwmPrescale => { f with step := 0, stepClk := 0 }
  | .pwmPeriod => { f with step := 0, stepClk := 0 }
  | .encPrescale => { f with prescale := 0 }
  | .outPolarity => f

/-- A changed feed setting, among the Feed Drives. -/
theorem Chip.settingChanged_feed (c : Chip) (n : Fin 4) (which : FeedSetting) :
    (c.settingChanged (.printer n (feedSettingOf which))).fd = vupd c.fd n (·.settingChanged which) ∧
    (c.settingChanged (.printer n (feedSettingOf which))).su = c.su := by
  have hid : vupd c.fd n (fun f => f) = c.fd := by simp [vupd]
  cases which with
  | outPolarity => exact ⟨hid.symm, rfl⟩
  | _ => exact ⟨rfl, rfl⟩

/-- The level of a bridge pin while the pins are driven (R157). -/
theorem Chip.bridgePin_eq {c : Chip} (h : c.su.unitState ≠ .loading) (n o : Fin 4) :
    c.bridgePin n o = some (c.outputActive n o != (c.prn n .outPolarity / 2 ^ o.val % 2 == 1)) :=
  if_neg (mt beq_iff_eq.mp h)

/-- A feed setting written (R152, R157, R158). -/
theorem State.HostNext.feedSetting {s : State} (hs : s.HostNext) (n : Fin 4) (which : FeedSetting) (v : Word)
    (hw : s.chip.SetupWord (0x200 + 4 * (Setting.printer n (feedSettingOf which)).index)) (hf : s.chip.frozen (.printer n) = false) :
    CompletesStored (.feedSettingWrite n which v allBytes) s fun t => (∀ m : Fin 4, m ≠ n → t.chip.feed m = s.chip.feed m) ∧
      t.chip.feed n = (if (feedSettingOf which).clamp v.toNat = s.chip.prn n (feedSettingOf which) then s.chip.feed n
        else (s.chip.feed n).settingChanged which) ∧
      (s.chip.su.unitState ≠ .loading → ∀ o : Fin 4, t.chip.bridgePin n o =
        some (t.chip.outputActive n o != (t.chip.prn n .outPolarity / 2 ^ o.val % 2 == 1))) := by
  have hplain : (Setting.printer n (feedSettingOf which)).plain = true := rfl
  have hgroup : (Setting.printer n (feedSettingOf which)).group = .printer n := by cases which <;> rfl
  refine hs.setting_written rfl hplain hw (by rw [hgroup, hf]) fun d m a hd => ?_
  have hfd : d.fd = s.chip.fd := hd.only.fd (by decide)
  obtain ⟨image, hsu⟩ := hd.su
  obtain ⟨hchanged, hchangedSu⟩ := d.settingChanged_feed n which
  by_cases hsame : (feedSettingOf which).clamp v.toNat = s.chip.prn n (feedSettingOf which)
  · have hsame' : (Setting.printer n (feedSettingOf which)).clamp v.toNat = s.chip.setting (.printer n (feedSettingOf which)) := hsame
    rw [if_pos hsame', if_pos hsame]
    have hfeed : ∀ m, (d.answerHost true []).feed m = s.chip.feed m := fun m => by
      unfold Chip.feed
      rw [Chip.answerHost_fd, hfd]
    refine ⟨fun m _ => hfeed m, hfeed n, fun hload o => Chip.bridgePin_eq ?_ n o⟩
    rw [Chip.answerHost_su, hsu]
    exact hload
  · have hsame' : (Setting.printer n (feedSettingOf which)).clamp v.toNat ≠ s.chip.setting (.printer n (feedSettingOf which)) := hsame
    rw [if_neg hsame', if_neg hsame]
    have hafter : ((d.settingChanged (.printer n (feedSettingOf which))).answerHost true []).fd =
        vupd s.chip.fd n (·.settingChanged which) := by rw [Chip.answerHost_fd, hchanged, hfd]
    refine ⟨fun m hm => ?_, ?_, fun hload o => Chip.bridgePin_eq ?_ n o⟩
    · unfold Chip.feed
      rw [hafter]
      exact vupd_get_ne _ _ _ _ hm
    · unfold Chip.feed
      rw [hafter]
      exact vupd_get_same _ _ _
    · rw [Chip.answerHost_su, hchangedSu, hsu]
      exact hload

/-! ### A printer turned on -/

/-- A Feed Drive in a new mode: at rest, its travel and its latch as they were (R153, R155). -/
theorem Feed.enter_fields (f : Feed) (m : BridgeMode) (period dead : Nat) (safeA safeB : Bool) :
    (f.enter m period dead safeA safeB).mode = m ∧ (f.enter m period dead safeA safeB).duty = 0 ∧
      (f.enter m period dead safeA safeB).travel = f.travel ∧ (f.enter m period dead safeA safeB).latch = f.latch := by
  cases m <;> exact ⟨rfl, rfl, rfl, rfl⟩

/-- With COVER and OVC inactive no cause is taken (R161). -/
theorem Chip.judgeCauses_quiet {c : Chip} {n : Fin 4} (hcover : c.coverIn n = false) (hovc : c.ovcIn n = false) :
    c.judgeCauses n = c := by
  unfold Chip.judgeCauses
  dsimp only
  rw [if_neg (Bool.eq_false_iff.mp hcover), if_neg (Bool.eq_false_iff.mp hovc)]
  exact ite_self c

/-- What a printer that begins to align has (R140, R159). -/
structure Chip.Aligning (c d : Chip) (n : Fin 4) : Prop where
  printer : d.printer n = { c.printer n with state := .aligning }
  mode : (d.feed n).mode = .forward
  duty : (d.feed n).duty = 0
  travel : (d.feed n).travel = 0
  latch : (d.feed n).latch = (c.feed n).latch
  printers : SameBut n c.pru.printers d.pru.printers
  feeds : SameBut n c.fd d.fd

/-- The Feed Drive that a mode is asked of (R155). -/
theorem Chip.setMode_feed (c : Chip) (n : Fin 4) (m : BridgeMode) : ((c.setMode n m).feed n).mode = m ∧ ((c.setMode n m).feed n).duty = 0 ∧
    ((c.setMode n m).feed n).travel = (c.feed n).travel ∧ ((c.setMode n m).feed n).latch = (c.feed n).latch := by
  unfold Chip.setMode
  rw [Chip.feed_onFeed_same]
  exact (c.feed n).enter_fields _ _ _ _ _

/-- The other Feed Drives stand. -/
theorem Chip.setMode_feeds (c : Chip) (n : Fin 4) (m : BridgeMode) : SameBut n c.fd (c.setMode n m).fd := sameBut_vupd _ _ _

/-- An alignment (R140, R159). -/
theorem Chip.startAlign_aligning (c : Chip) (n : Fin 4) : c.Aligning (c.startAlign n) n := by
  let d := (c.onPrinter n fun p => { p with state := .aligning }).onFeed n fun f => { f with travel := 0 }
  have hfeed : d.feed n = { c.feed n with travel := 0 } := Chip.feed_onFeed_same _ n _
  obtain ⟨hmode, hduty, htravel, hlatch⟩ := d.setMode_feed n .forward
  rw [hfeed] at htravel hlatch
  have hprinter : d.printer n = { c.printer n with state := .aligning } := c.printer_onPrinter_same n _
  refine ⟨hprinter, hmode, hduty, htravel, hlatch, sameBut_vupd _ _ _, fun m hm => ?_⟩
  exact (d.setMode_feeds n .forward m hm).trans (sameBut_vupd _ _ _ m hm)

/-- It is told by the printers and the Feed Drives alone. -/
theorem Chip.Aligning.of_parts {c d e : Chip} {n : Fin 4} (h : c.Aligning d n) (hp : e.pru = d.pru) (hf : e.fd = d.fd) : c.Aligning e n := by
  have hprinter : e.printer n = d.printer n := by unfold Chip.printer; rw [hp]
  have hfeed : e.feed n = d.feed n := by unfold Chip.feed; rw [hf]
  obtain ⟨printer, mode, duty, travel, latch, printers, feeds⟩ := h
  rw [← hfeed] at mode duty travel latch
  exact ⟨hprinter.trans printer, mode, duty, travel, latch, hp ▸ printers, hf ▸ feeds⟩

/-- PRN_PRESENT turned on with an EMPTY printer and no book leaves it (R140). -/
theorem Chip.presentOn_out {c : Chip} {n : Fin 4} (hstate : (c.printer n).state = .empty) (hcover : c.coverIn n = false)
    (hovc : c.ovcIn n = false) (hbook : c.bookIn n = false) : c.presentOn n = c := by
  unfold Chip.presentOn
  rw [if_pos (beq_iff_eq.mpr hstate), if_neg (Bool.eq_false_iff.mp hbook)]
  exact Chip.judgeCauses_quiet hcover hovc

/-- PRN_PRESENT turned on with an EMPTY printer and a book in: it begins to align (R140). -/
theorem Chip.presentOn_in {c : Chip} {n : Fin 4} (hstate : (c.printer n).state = .empty) (hcover : c.coverIn n = false)
    (hovc : c.ovcIn n = false) (hbook : c.bookIn n = true) : c.presentOn n = c.alignNew n := by
  have hpins : (c.alignNew n).pins = c.pins := c.alignNew_pins n
  unfold Chip.presentOn
  rw [if_pos (beq_iff_eq.mpr hstate), if_pos hbook]
  refine Chip.judgeCauses_quiet ?_ ?_
  · unfold Chip.coverIn
    rw [hpins]
    exact hcover
  · unfold Chip.ovcIn
    rw [hpins]
    exact hovc

/-- A new alignment: the page is unknown, unless the page-turn flag is set (R140). -/
theorem Chip.alignNew_aligning (c : Chip) (n : Fin 4) :
    (c.onPrinter n fun p => { p with bookPage := if p.pageTurn.isSome then p.bookPage else none }).Aligning (c.alignNew n) n :=
  (Chip.startAlign_aligning _ n).of_parts (Chip.report_pru _ _ _ _) (Chip.report_fd _ _ _ _)

/-- The printers, Feed Drives and pins of a part with a setting taken. -/
theorem Chip.Took.unprinted {c d : Chip} {k : Setting} {v : Nat} (h : c.Took d k v) : d.pru = c.pru ∧ d.fd = c.fd ∧ d.pins = c.pins :=
  ⟨h.only.pru (by decide), h.only.fd (by decide), h.only.pins (by decide)⟩

/-- An on/off setting of a printer written on has its owner told where it was off (R21). -/
theorem State.HostNext.printer_turned_on {s : State} {i : Instr} {n : Fin 4} {k : PrnSetting} {v : Word} {P : State → Prop}
    (hs : s.HostNext) (hk : k = .present ∨ k = .autoRestart) (hi : settingWritten i = some (.printer n k, v, allBytes))
    (hw : s.chip.SetupWord (0x200 + 4 * (Setting.printer n k).index)) (hv : v.toNat = 1) (hoff : s.chip.prn n k ≠ 1)
    (hP : ∀ d m a, s.chip.Took d (.printer n k) 1 → P { s with
      mem := m, chip := (d.printerSettingChanged n k).answerHost true [], arb := a }) : CompletesStored i s P := by
  have hclamp : (Setting.printer n k).clamp v.toNat = 1 := by
    rw [hv]
    obtain rfl | rfl := hk <;> rfl
  have hgroup : s.chip.frozen (Setting.printer n k).group = false := by obtain rfl | rfl := hk <;> rfl
  refine hs.setting_written hi rfl hw hgroup fun d m a hd => ?_
  rw [hclamp] at hd ⊢
  rw [if_neg fun h => hoff h.symm]
  exact hP d m a hd

/-- PRN_PRESENT written on (R140). -/
theorem State.HostNext.present {s : State} (hs : s.HostNext) (n : Fin 4) (v : Word) (hw : s.chip.SetupWord (0x400 + 96 * n.val))
    (hv : v.toNat = 1) (hoff : s.chip.prn n .present ≠ 1) (hstate : (s.chip.printer n).state = .empty)
    (hcover : s.chip.coverIn n = false) (hovc : s.chip.ovcIn n = false) :
    CompletesStored (.prnPresentWrite n v allBytes) s fun t =>
      t.chip.prn n .present = 1 ∧
      (s.chip.bookIn n = false → t.chip.pru = s.chip.pru ∧ t.chip.fd = s.chip.fd) ∧
      (s.chip.bookIn n = true → (t.chip.printer n).state = .aligning ∧ (t.chip.feed n).mode = .forward ∧
        (t.chip.feed n).duty = 0 ∧ (t.chip.feed n).travel = 0 ∧
        ((s.chip.printer n).pageTurn = none → (t.chip.printer n).bookPage = none)) := by
  have hplace : s.chip.SetupWord (0x200 + 4 * (Setting.printer n .present).index) := by
    revert hw
    fin_cases n <;> exact id
  refine hs.printer_turned_on (.inl rfl) rfl hplace hv hoff fun d m a hd => ?_
  obtain ⟨hpru, hfd, hpins⟩ := hd.unprinted
  have hon : d.prnOn n .present = true := beq_iff_eq.mpr hd.value
  have hchanged : d.printerSettingChanged n .present = d.presentOn n := if_pos hon
  have hprinter : d.printer n = s.chip.printer n := by unfold Chip.printer; rw [hpru]
  have hbook : d.bookIn n = s.chip.bookIn n := by unfold Chip.bookIn; rw [hpins]
  have hcover' : d.coverIn n = false := by unfold Chip.coverIn; rw [hpins]; exact hcover
  have hovc' : d.ovcIn n = false := by unfold Chip.ovcIn; rw [hpins]; exact hovc
  have hstate' : (d.printer n).state = .empty := by rw [hprinter]; exact hstate
  have hprn : ((d.presentOn n).answerHost true []).prn n .present = 1 :=
    (Chip.setting_congr (c := d) (congrArg Gist.image (d.presentOn_gist n)) _).trans hd.value
  rw [hchanged]
  refine ⟨hprn, fun hout => ?_, fun hin => ?_⟩
  · rw [Chip.presentOn_out hstate' hcover' hovc' (hbook.trans hout)]
    exact ⟨hpru, hfd⟩
  · rw [Chip.presentOn_in hstate' hcover' hovc' (hbook.trans hin)]
    obtain ⟨printer, mode, duty, travel, -, -, -⟩ :=
      (d.alignNew_aligning n).of_parts (Chip.answerHost_pru _ true []) (Chip.answerHost_fd _ true [])
    rw [Chip.printer_onPrinter_same, hprinter] at printer
    refine ⟨congrArg Printer.state printer, mode, duty, travel, fun hturn => (congrArg Printer.bookPage printer).trans ?_⟩
    show (if (s.chip.printer n).pageTurn.isSome then _ else none) = none
    rw [hturn]
    rfl

/-! ### A restart -/

/-- What a restart leaves of the printer and its Feed Drive (R166). -/
structure Chip.PrinterRestarted (c d : Chip) (n : Fin 4) (align : Bool) : Prop where
  printer : d.printer n = { c.printer n with state := if align then .aligning else .empty }
  mode : (d.feed n).mode = if align then .forward else .off
  travel : align = true → (d.feed n).travel = 0
  latch : (d.feed n).latch = .empty
  printers : SameBut n c.pru.printers d.pru.printers
  feeds : SameBut n c.fd d.fd

/-- The part whose latch has been emptied for a restart, its bridge off. -/
def Chip.latchEmptied (c : Chip) (n : Fin 4) : Chip := (c.onFeed n fun f => { f with latch := .empty }).setMode n .off

/-- Its printers stand, and of its Feed Drives the other ones. -/
theorem Chip.latchEmptied_parts (c : Chip) (n : Fin 4) : (c.latchEmptied n).printer n = c.printer n ∧ (c.latchEmptied n).pru = c.pru ∧
    ((c.latchEmptied n).feed n).mode = .off ∧ ((c.latchEmptied n).feed n).latch = .empty ∧ SameBut n c.fd (c.latchEmptied n).fd := by
  let d := c.onFeed n fun f => { f with latch := .empty }
  have hfeed : d.feed n = { c.feed n with latch := .empty } := c.feed_onFeed_same n _
  obtain ⟨hmode, -, -, hlatch⟩ := d.setMode_feed n .off
  rw [hfeed] at hlatch
  exact ⟨rfl, rfl, hmode, hlatch, fun m hm => (d.setMode_feeds n .off m hm).trans (sameBut_vupd _ _ _ m hm)⟩

/-- A restart with a book in and the printer present begins an alignment (R166). -/
theorem Chip.latchEmptied_align (c : Chip) (n : Fin 4) : c.PrinterRestarted ((c.latchEmptied n).startAlign n) n true := by
  obtain ⟨hprinter, hpru, -, hempty, hfeeds⟩ := c.latchEmptied_parts n
  obtain ⟨printer, mode, -, travel, latch, printers, feeds⟩ := (c.latchEmptied n).startAlign_aligning n
  rw [hprinter] at printer
  exact ⟨printer, mode, fun _ => travel, latch.trans hempty, hpru ▸ printers, fun m hm => (feeds m hm).trans (hfeeds m hm)⟩

/-- Without, it leaves the printer EMPTY (R166). -/
theorem Chip.latchEmptied_empty (c : Chip) (n : Fin 4) :
    c.PrinterRestarted ((c.latchEmptied n).onPrinter n fun p => { p with state := .empty }) n false := by
  obtain ⟨hprinter, -, hmode, hempty, hfeeds⟩ := c.latchEmptied_parts n
  exact ⟨by rw [Chip.printer_onPrinter_same, hprinter]; rfl, hmode, nofun, hempty, sameBut_vupd _ _ _, hfeeds⟩

/-- A restart with COVER and OVC inactive (R166). -/
theorem Chip.restart_eq {c : Chip} {n : Fin 4} (hcover : c.coverIn n = false) (hovc : c.ovcIn n = false) :
    ∃ d : Chip, c.restart n = d.report .printerRestarted n.val 0 ∧ d.su = c.su ∧
      c.PrinterRestarted d n (c.bookIn n && c.prnOn n .present) := by
  have hjudge (d : Chip) (hpins : d.pins = c.pins) : (d.report .printerRestarted n.val 0).judgeCauses n = d.report .printerRestarted n.val 0 := by
    have hpins' : (d.report .printerRestarted n.val 0).pins = c.pins := (Chip.report_pins _ _ _ _).trans hpins
    refine Chip.judgeCauses_quiet ?_ ?_
    · unfold Chip.coverIn
      rw [hpins']
      exact hcover
    · unfold Chip.ovcIn
      rw [hpins']
      exact hovc
  have hrestart : c.restart n = Chip.judgeCauses ((if (c.bookIn n && c.prnOn n .present) = true then (c.latchEmptied n).startAlign n
      else (c.latchEmptied n).onPrinter n fun p => { p with state := .empty }).report .printerRestarted n.val 0) n := rfl
  rw [hrestart]
  cases c.bookIn n && c.prnOn n .present with
  | true => exact ⟨_, hjudge _ (Chip.startAlign_pins _ n), Chip.startAlign_su _ n, c.latchEmptied_align n⟩
  | false => exact ⟨_, hjudge _ rfl, rfl, c.latchEmptied_empty n⟩

/-- A report made joins the list, or finds it full (R33). -/
theorem Chip.report_reports (c : Chip) (k : ReportKind) (i d : Nat) : ∃ more : List Report,
    (c.report k i d).su.reports = c.su.reports ++ more ∧ (c.su.reports.length < 16 → more = [⟨k, i, d, c.su.ms⟩]) := by
  by_cases hroom : c.su.reports.length < 16
  · exact ⟨_, by rw [Chip.report_of_room c k i d hroom], fun _ => rfl⟩
  · refine ⟨[], ?_, fun h => absurd h hroom⟩
    rw [Chip.report_of_full c k i d (not_lt.mp hroom), Chip.setOverflow_su, List.append_nil]

/-- What R166 says of a restart. -/
theorem Chip.restart_restarted {c : Chip} {n : Fin 4} (hcover : c.coverIn n = false) (hovc : c.ovcIn n = false) :
    c.Restarted (c.restart n) n := by
  obtain ⟨d, hrestart, hsu, printer, mode, travel, latch, printers, feeds⟩ := Chip.restart_eq hcover hovc
  have hprn : (c.restart n).prn n .present = c.prn n .present := Chip.setting_congr (congrArg Gist.image (c.restart_gist n)) _
  have hprinter : (c.restart n).printer n = d.printer n := by unfold Chip.printer; rw [hrestart, Chip.report_pru]
  have hfeed : (c.restart n).feed n = d.feed n := by unfold Chip.feed; rw [hrestart, Chip.report_fd]
  have hbook : (c.bookIn n && c.prnOn n .present) = true ↔ c.bookIn n = true ∧ c.prn n .present = 1 := by
    rw [Bool.and_eq_true]
    exact and_congr_right fun _ => beq_iff_eq
  constructor
  case report =>
    rw [hrestart, ← hsu]
    exact d.report_reports _ _ _
  case latch => rw [hfeed]; exact latch
  case aligning =>
    intro hin hpresent
    have halign := hbook.mpr ⟨hin, hprn ▸ hpresent⟩
    rw [halign] at printer mode
    rw [hprinter, hfeed, printer]
    exact ⟨rfl, mode, travel halign⟩
  case empty =>
    intro hnot
    rw [hprn] at hnot
    rw [Bool.eq_false_iff.mpr (mt hbook.mp hnot)] at printer mode
    rw [hprinter, hfeed, printer]
    exact ⟨rfl, mode⟩
  case kept =>
    rw [hprinter, printer]
    exact ⟨rfl, rfl, rfl⟩
  case others =>
    rw [hrestart, Chip.report_pru, Chip.report_fd]
    exact ⟨printers, feeds⟩

/-! ### AUTO_RESTART -/

/-- The conditions of an automatic restart, in the words of R164. -/
theorem Chip.mayRestart_iff {c : Chip} {n : Fin 4} (hauto : c.prn n .autoRestart = 1) :
    c.mayRestart n = true ↔ (c.printer n).state = .halted ∧ c.MayRestart n := by
  have hon : c.prnOn n .autoRestart = true := beq_iff_eq.mpr hauto
  have himp (a b : Bool) : (a = false ∨ b = false) ↔ (a = true → b = false) := by cases a <;> simp
  unfold Chip.mayRestart Chip.MayRestart
  dsimp only
  rw [hon]
  simp only [Bool.and_true, Bool.and_eq_true, beq_iff_eq, Bool.not_eq_true', Bool.or_eq_false_iff, Bool.and_eq_false_iff, and_assoc, himp]

/-- The conditions are told by the printers, the Feed Drives and the pins. -/
theorem Chip.mayRestart_congr {c d : Chip} (hf : d.fd = c.fd) (hp : d.pins = c.pins) (n : Fin 4) : d.MayRestart n ↔ c.MayRestart n := by
  unfold Chip.MayRestart Chip.feed Chip.coverIn Chip.ovcIn
  rw [hf, hp]

/-- What a restart leaves is told of the parts before it by their reports, printers, Feed Drives and pins. -/
theorem Chip.Restarted.of_before {c c' d : Chip} {n : Fin 4} (h : c.Restarted d n) (hr : c'.su.reports = c.su.reports)
    (hm : c'.su.ms = c.su.ms) (hp : c'.pru = c.pru) (hf : c'.fd = c.fd) (hpins : c'.pins = c.pins) : c'.Restarted d n := by
  have hbook : c'.bookIn n = c.bookIn n := by unfold Chip.bookIn; rw [hpins]
  have hprinter : c'.printer n = c.printer n := by unfold Chip.printer; rw [hp]
  obtain ⟨report, latch, aligning, empty, kept, others⟩ := h
  constructor
  case report => rw [hr, hm]; exact report
  case latch => exact latch
  case others => rw [hp, hf]; exact others
  case kept => rw [hprinter]; exact kept
  all_goals rw [hbook]; assumption

/-- And of the part after it by the same and its settings. -/
theorem Chip.Restarted.of_after {c d d' : Chip} {n : Fin 4} (h : c.Restarted d n) (hsu : d'.su = d.su) (hp : d'.pru = d.pru)
    (hf : d'.fd = d.fd) : c.Restarted d' n := by
  have hprinter : d'.printer n = d.printer n := by unfold Chip.printer; rw [hp]
  have hfeed : d'.feed n = d.feed n := by unfold Chip.feed; rw [hf]
  have hprn : d'.prn n .present = d.prn n .present := Chip.setting_congr (congrArg SuState.image hsu) _
  obtain ⟨report, latch, aligning, empty, kept, others⟩ := h
  constructor
  case report => rw [hsu]; exact report
  case latch => rw [hfeed]; exact latch
  case others => rw [hp, hf]; exact others
  case kept => rw [hprinter]; exact kept
  all_goals rw [hprn, hprinter, hfeed]; assumption

/-- AUTO_RESTART written on (R164, R166). -/
theorem State.HostNext.autoRestart {s : State} (hs : s.HostNext) (n : Fin 4) (v : Word) (hw : s.chip.SetupWord (0x44C + 96 * n.val))
    (hv : v.toNat = 1) (hoff : s.chip.prn n .autoRestart ≠ 1) :
    CompletesStored (.autoRestartWrite n v allBytes) s fun t =>
      t.chip.prn n .autoRestart = 1 ∧
      ((s.chip.printer n).state ≠ .halted ∨ ¬ s.chip.MayRestart n → t.chip.pru = s.chip.pru ∧ t.chip.fd = s.chip.fd) ∧
      ((s.chip.printer n).state = .halted → s.chip.MayRestart n → s.chip.coverIn n = false → s.chip.ovcIn n = false →
        s.chip.Restarted t.chip n) := by
  have hplace : s.chip.SetupWord (0x200 + 4 * (Setting.printer n .autoRestart).index) := by
    revert hw
    fin_cases n <;> exact id
  refine hs.printer_turned_on (.inr rfl) rfl hplace hv hoff fun d m a hd => ?_
  obtain ⟨hpru, hfd, hpins⟩ := hd.unprinted
  have hon : d.prnOn n .autoRestart = true := beq_iff_eq.mpr hd.value
  have hchanged : d.printerSettingChanged n .autoRestart = d.testRestart n := if_pos hon
  have hprinter : d.printer n = s.chip.printer n := by unfold Chip.printer; rw [hpru]
  have hmay : d.mayRestart n = true ↔ (s.chip.printer n).state = .halted ∧ s.chip.MayRestart n := by
    rw [Chip.mayRestart_iff hd.value, hprinter, Chip.mayRestart_congr hfd hpins]
  have hprn : ((d.testRestart n).answerHost true []).prn n .autoRestart = 1 :=
    (Chip.setting_congr (c := d) (congrArg Gist.image (d.testRestart_gist n)) _).trans hd.value
  rw [hchanged]
  refine ⟨hprn, fun hnot => ?_, fun hhalted hrestart hcover hovc => ?_⟩
  · have hstays : d.testRestart n = d := if_neg fun h => hnot.elim (fun h1 => h1 (hmay.mp h).1) fun h2 => h2 (hmay.mp h).2
    rw [hstays]
    exact ⟨hpru, hfd⟩
  · have hrestarts : d.testRestart n = d.restart n := if_pos (hmay.mpr ⟨hhalted, hrestart⟩)
    have hcover' : d.coverIn n = false := by unfold Chip.coverIn; rw [hpins]; exact hcover
    have hovc' : d.ovcIn n = false := by unfold Chip.ovcIn; rw [hpins]; exact hovc
    obtain ⟨image, hsu⟩ := hd.su
    rw [hrestarts]
    refine ((Chip.restart_restarted hcover' hovc').of_before ?_ ?_ hpru.symm hfd.symm hpins.symm).of_after rfl
      (Chip.answerHost_pru _ _ _) (Chip.answerHost_fd _ _ _)
    · rw [hsu]
    · rw [hsu]

/-- Settles O23. -/
theorem screenAndFeedSettings : Obligations.ScreenAndFeedSettings := by
  unfold Obligations.ScreenAndFeedSettings
  refine ⟨fun s v hs hw => hs.idleBlank v hw, fun s p colour v hs hw hnew => hs.capability p colour v hw hnew,
    fun s sep v hs hw hf hnew => hs.format sep v hw hf hnew, fun s n which v hs hw hf => ?_,
    fun s n v hs hw hv hoff hstate hcover hovc => hs.present n v hw hv hoff hstate hcover hovc,
    fun s n v hs hw hv hoff => hs.autoRestart n v hw hv hoff⟩
  cases which <;> exact hs.feedSetting n _ v hw hf

end Sys2Proof.Machine
end

section
/-! PROOF. The words of a mirror, of the running part and of the anchor part (O37). -/

namespace Sys2Proof.Machine

/-! ### Fields of words -/

/-- The word of two 16-bit members. -/
def pairWord (v : Vector Nat 10) (i : Fin 5) : Word :=
  wd (countAt v ⟨2 * i.val, by omega⟩ % 65536 + 65536 * (countAt v ⟨2 * i.val + 1, by omega⟩ % 65536))

/-- Ten members packed into five words (R195). -/
theorem packHalves_ten (v : Vector Nat 10) :
    packHalves v.toList = [pairWord v 0, pairWord v 1, pairWord v 2, pairWord v 3, pairWord v 4] := by
  rw [counts_toList]
  rfl

/-- A member of a packed vector reads back (R195). -/
theorem field_pairWord (v : Vector Nat 10) (x : Fin 10) (h : countAt v x < 65536) :
    field (pairWord v ⟨x.val / 2, by omega⟩) (16 * (x.val % 2)) 16 = countAt v x := by
  obtain ⟨hlow, hhigh⟩ := field_halves (countAt v ⟨2 * (x.val / 2), by omega⟩ % 65536) (countAt v ⟨2 * (x.val / 2) + 1, by omega⟩ % 65536)
    (Nat.mod_lt _ (by decide)) (Nat.mod_lt _ (by decide))
  rw [Nat.mod_mod, Nat.mod_mod] at hlow hhigh
  obtain heven | hodd := Nat.mod_two_eq_zero_or_one x.val
  · have hx : (⟨2 * (x.val / 2), by omega⟩ : Fin 10) = x := Fin.ext (by show 2 * (x.val / 2) = x.val; omega)
    rw [heven]
    refine hlow.trans ?_
    rw [hx]
    exact Nat.mod_eq_of_lt h
  · have hx : (⟨2 * (x.val / 2) + 1, by omega⟩ : Fin 10) = x := Fin.ext (by show 2 * (x.val / 2) + 1 = x.val; omega)
    rw [hodd]
    refine hhigh.trans ?_
    rw [hx]
    exact Nat.mod_eq_of_lt h

/-- A signed 64-bit field reads back (R195). -/
theorem nat64_signed (i : Int) (lo hi : Word) (h : wordsSigned64 i = [lo, hi]) :
    (0 ≤ i → i < 2 ^ 63 → (nat64 lo hi : Int) = i) ∧ (i < 0 → -2 ^ 63 ≤ i → (nat64 lo hi : Int) = 2 ^ 64 + i) := by
  obtain ⟨rfl, rfl⟩ : wd (i % 18446744073709551616).toNat = lo ∧ wd ((i % 18446744073709551616).toNat / Config.wordModulus) = hi := by
    simpa [wordsSigned64, words64] using h
  rw [nat64_words _ (by omega)]
  constructor <;> intros <;> omega

/-- A number of a word reads back. -/
theorem toNat_wd_of_lt {n : Nat} (h : n < 2 ^ 32) : (wd n).toNat = n := by
  rw [toNat_wd]
  exact Nat.mod_eq_of_lt h

/-- A flag is a bit. -/
theorem flagBit_le (b : Bool) : flagBit b ≤ 1 := by cases b <;> decide

/-- A bit that is a flag's reads as the flag. -/
theorem flagAt_of_bit {w : Word} {i : Nat} {b : Bool} (h : w.toNat / 2 ^ i % 2 = flagBit b) : flagAt w i = b := by
  have hbit : field w i 1 = flagBit b := h
  unfold flagAt
  rw [hbit]
  cases b <;> rfl

/-! ### A mirror -/

/-- Word 0 of a mirror (Table 12-10). -/
def Drawer.stateWord (d : Drawer) : Word :=
  wd (d.state.code + 256 * flagBit d.excess + 512 * flagBit d.declared.isSome + 65536 * d.saturatedBits)

/-- The words of a mirror for the declared position (Table 12-10). -/
def declaredWords : Option Declared → List Word
  | some p => [pairWord p.counts 0, pairWord p.counts 1, pairWord p.counts 2, pairWord p.counts 3, pairWord p.counts 4,
      wd (p.difference % 18446744073709551616).toNat, wd ((p.difference % 18446744073709551616).toNat / Config.wordModulus)]
  | none => [0, 0, 0, 0, 0, 0, 0]

/-- The words of a mirror before its declared position (Table 12-10). -/
def Drawer.mirrorHead (faces : Vector Nat 10) (d : Drawer) : List Word :=
  [d.stateWord, wd d.recordCount, wd d.lastSeq, 0, pairWord d.counts 0, pairWord d.counts 1, pairWord d.counts 2, pairWord d.counts 3,
    pairWord d.counts 4, wd (cashPosition faces d.counts), wd (cashPosition faces d.counts / Config.wordModulus)]
  ++ d.sums.flatMap words64

/-- The 32 words of a mirror in three parts (Table 12-10). -/
theorem Drawer.mirrorWords_eq (faces : Vector Nat 10) (d : Drawer) :
    d.mirrorWords faces = d.mirrorHead faces ++ (declaredWords d.declared ++ [0, 0]) := by
  obtain ⟨_, _, declared, _, _, _, _, _, _, _, _, _⟩ := d
  unfold Drawer.mirrorWords
  rw [packHalves_ten]
  cases declared with
  | none => rfl
  | some p =>
    dsimp only
    rw [packHalves_ten]
    rfl

/-- Its words before the declared position. -/
theorem Drawer.mirrorWords_head (faces : Vector Nat 10) (d : Drawer) {k : Nat} (hk : k < 23) :
    wordAt (d.mirrorWords faces) k = wordAt (d.mirrorHead faces) k := by
  rw [Drawer.mirrorWords_eq]
  exact List.getD_append _ _ _ _ hk

/-- Its words of the declared position. -/
theorem Drawer.mirrorWords_declared (faces : Vector Nat 10) (d : Drawer) {k : Nat} (hk : k < 7) :
    wordAt (d.mirrorWords faces) (23 + k) = wordAt (declaredWords d.declared) k := by
  have hlength : k < (declaredWords d.declared).length := by cases d.declared <;> exact hk
  have hhead : (d.mirrorHead faces).length = 23 := rfl
  rw [Drawer.mirrorWords_eq, wordAt, List.getD_append_right _ _ _ _ (by rw [hhead]; omega), hhead, Nat.add_sub_cancel_left]
  exact List.getD_append _ _ _ _ hlength

/-- The fields of word 0 of a mirror (Table 12-10). -/
theorem Drawer.stateWord_fields (d : Drawer) : field d.stateWord 0 8 = d.state.code ∧ flagAt d.stateWord 8 = d.excess ∧
    flagAt d.stateWord 9 = d.declared.isSome ∧
    ∀ k x, [d.cashIn, d.cashOut, d.noncashIn, d.noncashOut, d.transferIn, d.transferOut][k]? = some x →
      flagAt d.stateWord (16 + k) = x.saturated := by
  have hcode : d.state.code ≤ 3 := by cases d.state <;> decide
  have hexcess := flagBit_le d.excess
  have hpresent := flagBit_le d.declared.isSome
  have h0 := flagBit_le d.cashIn.saturated
  have h1 := flagBit_le d.cashOut.saturated
  have h2 := flagBit_le d.noncashIn.saturated
  have h3 := flagBit_le d.noncashOut.saturated
  have h4 := flagBit_le d.transferIn.saturated
  have h5 := flagBit_le d.transferOut.saturated
  have hword : d.stateWord.toNat = d.state.code + 256 * flagBit d.excess + 512 * flagBit d.declared.isSome + 65536 *
      (flagBit d.cashIn.saturated + 2 * flagBit d.cashOut.saturated + 4 * flagBit d.noncashIn.saturated
        + 8 * flagBit d.noncashOut.saturated + 16 * flagBit d.transferIn.saturated + 32 * flagBit d.transferOut.saturated) :=
    toNat_wd_of_lt (by unfold Drawer.saturatedBits Sum.bit; omega)
  refine ⟨?_, flagAt_of_bit ?_, flagAt_of_bit ?_, fun k x hx => flagAt_of_bit ?_⟩
  · unfold field
    rw [hword]
    omega
  · rw [hword]
    omega
  · rw [hword]
    omega
  · rw [hword]
    match k, hx with
    | 0, rfl | 1, rfl | 2, rfl | 3, rfl | 4, rfl | 5, rfl => omega

/-- The sums of a mirror (Table 12-10). -/
theorem Drawer.mirrorHead_sums (faces : Vector Nat 10) (d : Drawer) (k : Nat) (x : Sum)
    (hx : [d.cashIn, d.cashOut, d.noncashIn, d.noncashOut, d.transferIn, d.transferOut][k]? = some x) (hlt : x.value < 2 ^ 64) :
    nat64 (wordAt (d.mirrorHead faces) (11 + 2 * k)) (wordAt (d.mirrorHead faces) (12 + 2 * k)) = x.value := by
  match k, hx with
  | 0, rfl | 1, rfl | 2, rfl | 3, rfl | 4, rfl | 5, rfl => exact nat64_words _ hlt

/-- The declared position in a mirror (Table 12-10). -/
theorem declaredWords_fields (p : Declared) :
    (∀ x : Fin 10, countAt p.counts x < 65536 →
      field (wordAt (declaredWords (some p)) (x.val / 2)) (16 * (x.val % 2)) 16 = countAt p.counts x) ∧
    (0 ≤ p.difference → p.difference < 2 ^ 63 →
      (nat64 (wordAt (declaredWords (some p)) 5) (wordAt (declaredWords (some p)) 6) : Int) = p.difference) ∧
    (p.difference < 0 → -2 ^ 63 ≤ p.difference →
      (nat64 (wordAt (declaredWords (some p)) 5) (wordAt (declaredWords (some p)) 6) : Int) = 2 ^ 64 + p.difference) := by
  have hpair : ∀ i : Fin 5, wordAt (declaredWords (some p)) i.val = pairWord p.counts i := by
    intro i
    fin_cases i <;> rfl
  refine ⟨fun x hx => ?_, nat64_signed p.difference _ _ rfl⟩
  rw [hpair ⟨x.val / 2, by omega⟩]
  exact field_pairWord _ _ hx

/-- The counts in a mirror (Table 12-10). -/
theorem Drawer.mirrorHead_counts (faces : Vector Nat 10) (d : Drawer) (x : Fin 10) (hx : countAt d.counts x < 65536) :
    field (wordAt (d.mirrorHead faces) (4 + x.val / 2)) (16 * (x.val % 2)) 16 = countAt d.counts x := by
  have hpair : ∀ i : Fin 5, wordAt (d.mirrorHead faces) (4 + i.val) = pairWord d.counts i := by
    intro i
    fin_cases i <;> rfl
  rw [hpair ⟨x.val / 2, by omega⟩]
  exact field_pairWord _ _ hx

/-- The words of a mirror (Table 12-10). -/
theorem mirror_words (faces : Vector Nat 10) (d : Drawer) (hcount : d.recordCount < 2 ^ 32) (hseq : d.lastSeq < 2 ^ 32)
    (hcash : cashPosition faces d.counts < 2 ^ 64) :
    let ws := d.mirrorWords faces
    let sums := [d.cashIn, d.cashOut, d.noncashIn, d.noncashOut, d.transferIn, d.transferOut]
    ws.length = 32 ∧ field (wordAt ws 0) 0 8 = d.state.code ∧ flagAt (wordAt ws 0) 8 = d.excess ∧
    flagAt (wordAt ws 0) 9 = d.declared.isSome ∧ (wordAt ws 1).toNat = d.recordCount ∧ (wordAt ws 2).toNat = d.lastSeq ∧
    (∀ k x, sums[k]? = some x → flagAt (wordAt ws 0) (16 + k) = x.saturated ∧
      (x.value < 2 ^ 64 → nat64 (wordAt ws (11 + 2 * k)) (wordAt ws (12 + 2 * k)) = x.value)) ∧
    nat64 (wordAt ws 9) (wordAt ws 10) = cashPosition faces d.counts ∧
    (∀ x : Fin 10, countAt d.counts x < 65536 → field (wordAt ws (4 + x.val / 2)) (16 * (x.val % 2)) 16 = countAt d.counts x) ∧
    (d.declared = none → ∀ k, 23 ≤ k → k ≤ 29 → wordAt ws k = 0) ∧
    ∀ p, d.declared = some p →
      (∀ x : Fin 10, countAt p.counts x < 65536 → field (wordAt ws (23 + x.val / 2)) (16 * (x.val % 2)) 16 = countAt p.counts x) ∧
      (0 ≤ p.difference → p.difference < 2 ^ 63 → (nat64 (wordAt ws 28) (wordAt ws 29) : Int) = p.difference) ∧
      (p.difference < 0 → -2 ^ 63 ≤ p.difference → (nat64 (wordAt ws 28) (wordAt ws 29) : Int) = 2 ^ 64 + p.difference) := by
  intro ws sums
  have hhead (k : Nat) (hk : k < 23) : wordAt ws k = wordAt (d.mirrorHead faces) k := d.mirrorWords_head faces hk
  have hdeclared (k : Nat) (hk : k < 7) : wordAt ws (23 + k) = wordAt (declaredWords d.declared) k := d.mirrorWords_declared faces hk
  have h0 : wordAt ws 0 = d.stateWord := hhead 0 (by decide)
  obtain ⟨hcode, hexcess, hpresent, hsaturated⟩ := d.stateWord_fields
  have hlength : ws.length = 32 := by
    show (d.mirrorWords faces).length = 32
    rw [Drawer.mirrorWords_eq]
    cases d.declared <;> rfl
  refine ⟨hlength, h0 ▸ hcode, h0 ▸ hexcess, h0 ▸ hpresent, ?_, ?_, fun k x hx => ⟨h0 ▸ hsaturated k x hx, fun hlt => ?_⟩, ?_,
    fun x hx => ?_, fun hnone k hlow hhigh => ?_, fun p hp => ?_⟩
  · rw [hhead 1 (by decide)]
    exact toNat_wd_of_lt hcount
  · rw [hhead 2 (by decide)]
    exact toNat_wd_of_lt hseq
  · have hk : k < 6 := (List.getElem?_eq_some_iff.mp hx).1
    rw [hhead _ (by omega), hhead _ (by omega)]
    exact d.mirrorHead_sums faces k x hx hlt
  · rw [hhead 9 (by decide), hhead 10 (by decide)]
    exact nat64_words _ hcash
  · rw [hhead _ (by omega)]
    exact d.mirrorHead_counts faces x hx
  · obtain ⟨j, rfl⟩ := Nat.exists_eq_add_of_le hlow
    rw [hdeclared j (by omega), hnone]
    have hj : j < 7 := by omega
    interval_cases j <;> rfl
  · obtain ⟨hcounts, hpos, hneg⟩ := declaredWords_fields p
    rw [hdeclared 5 (by decide), hdeclared 6 (by decide), hp]
    refine ⟨fun x hx => ?_, hpos, hneg⟩
    rw [hdeclared _ (by omega), hp]
    exact hcounts x hx

/-! ### The running part -/

/-- The flag word of the running part (Table 12-2). -/
theorem DayRecord.runningFlags (day : DayRecord) : flagAt (wordAt day.runningWords 14) 4 = day.sumsSaturated ∧
    ∀ k x, [day.cashIn, day.cashOut, day.noncashIn, day.noncashOut][k]? = some x → flagAt (wordAt day.runningWords 14) k = x.saturated := by
  have h0 := flagBit_le day.cashIn.saturated
  have h1 := flagBit_le day.cashOut.saturated
  have h2 := flagBit_le day.noncashIn.saturated
  have h3 := flagBit_le day.noncashOut.saturated
  have h4 := flagBit_le day.sumsSaturated
  have hword : (wordAt day.runningWords 14).toNat = flagBit day.cashIn.saturated + 2 * flagBit day.cashOut.saturated
      + 4 * flagBit day.noncashIn.saturated + 8 * flagBit day.noncashOut.saturated + 16 * flagBit day.sumsSaturated :=
    toNat_wd_of_lt (by unfold Sum.bit; omega)
  refine ⟨flagAt_of_bit ?_, fun k x hx => flagAt_of_bit ?_⟩
  · rw [hword]
    omega
  · rw [hword]
    match k, hx with
    | 0, rfl | 1, rfl | 2, rfl | 3, rfl => omega

/-- The sums of the running part (Table 12-2). -/
theorem DayRecord.runningSums (day : DayRecord) (k : Nat) (x : Sum)
    (hx : [day.cashIn, day.cashOut, day.noncashIn, day.noncashOut][k]? = some x) (hlt : x.value < 2 ^ 64) :
    nat64 (wordAt day.runningWords (4 + 2 * k)) (wordAt day.runningWords (5 + 2 * k)) = x.value := by
  match k, hx with
  | 0, rfl | 1, rfl | 2, rfl | 3, rfl => exact nat64_words _ hlt

/-! ### The anchor part -/

/-- The words of the anchor part, one by one (Table 12-2). -/
theorem DayRecord.anchorWords_eq (day : DayRecord) : day.anchorWords =
    [wd day.state.code, wd day.date, wd day.previousDate, wd day.first, pairWord day.openCounts 0, pairWord day.openCounts 1,
      pairWord day.openCounts 2, pairWord day.openCounts 3, pairWord day.openCounts 4, wd (countAt day.closingCounts 0),
      wd (countAt day.closingCounts 1), wd (countAt day.closingCounts 2), wd (countAt day.closingCounts 3),
      wd (countAt day.closingCounts 4), wd (countAt day.closingCounts 5), wd (countAt day.closingCounts 6),
      wd (countAt day.closingCounts 7), wd (countAt day.closingCounts 8), wd (countAt day.closingCounts 9),
      wd (flagBit day.damaged + 2 * flagBit day.openingDiff), wd day.batch, wd day.failure.code, 0, 0, 0, 0, 0, 0, 0, 0, 0] := by
  unfold DayRecord.anchorWords
  rw [packHalves_ten, counts_toList]
  rfl

/-- The counts of the anchor part (Table 12-2). -/
theorem DayRecord.anchorCounts (day : DayRecord) :
    (∀ x : Fin 10, countAt day.openCounts x < 65536 →
      field (wordAt day.anchorWords (4 + x.val / 2)) (16 * (x.val % 2)) 16 = countAt day.openCounts x) ∧
    ∀ x : Fin 10, countAt day.closingCounts x < 2 ^ 32 → (wordAt day.anchorWords (9 + x.val)).toNat = countAt day.closingCounts x := by
  have hpair : ∀ i : Fin 5, wordAt day.anchorWords (4 + i.val) = pairWord day.openCounts i := by
    rw [DayRecord.anchorWords_eq]
    intro i
    fin_cases i <;> rfl
  have hclosing : ∀ x : Fin 10, wordAt day.anchorWords (9 + x.val) = wd (countAt day.closingCounts x) := by
    rw [DayRecord.anchorWords_eq]
    intro x
    fin_cases x <;> rfl
  refine ⟨fun x hx => ?_, fun x hx => ?_⟩
  · rw [hpair ⟨x.val / 2, by omega⟩]
    exact field_pairWord _ _ hx
  · rw [hclosing]
    exact toNat_wd_of_lt hx

/-- The flags of the anchor part (Table 12-2). -/
theorem DayRecord.anchorFlags (day : DayRecord) :
    flagAt (wordAt day.anchorWords 19) 0 = day.damaged ∧ flagAt (wordAt day.anchorWords 19) 1 = day.openingDiff := by
  have h0 := flagBit_le day.damaged
  have h1 := flagBit_le day.openingDiff
  have hword : (wordAt day.anchorWords 19).toNat = flagBit day.damaged + 2 * flagBit day.openingDiff := by
    rw [DayRecord.anchorWords_eq]
    exact toNat_wd_of_lt (by omega)
  constructor
  · refine flagAt_of_bit ?_
    rw [hword]
    omega
  · refine flagAt_of_bit ?_
    rw [hword]
    omega

/-- Its reserved words (Table 12-2). -/
theorem DayRecord.anchorReserved (day : DayRecord) (k : Nat) (hk : 22 ≤ k) : wordAt day.anchorWords k = 0 := by
  rw [DayRecord.anchorWords_eq]
  by_cases hlast : k < 31
  · interval_cases k <;> rfl
  · exact List.getD_eq_default _ _ (not_lt.mp hlast)

/-- The words of the day record (Table 12-2). -/
theorem day_words (day : DayRecord) (hnext : day.next < 2 ^ 32) (hcount : day.recordCount < 2 ^ 32) (hhash : day.hash < 2 ^ 64)
    (hdate : day.date < 2 ^ 32) (hprevious : day.previousDate < 2 ^ 32) (hfirst : day.first < 2 ^ 32) (hbatch : day.batch < 2 ^ 32) :
    let ws := day.runningWords
    let an := day.anchorWords
    let sums := [day.cashIn, day.cashOut, day.noncashIn, day.noncashOut]
    ws.length = 16 ∧ (wordAt ws 0).toNat = day.next ∧ (wordAt ws 1).toNat = day.recordCount ∧
    nat64 (wordAt ws 2) (wordAt ws 3) = day.hash ∧
    (∀ k x, sums[k]? = some x → flagAt (wordAt ws 14) k = x.saturated ∧
      (x.value < 2 ^ 64 → nat64 (wordAt ws (4 + 2 * k)) (wordAt ws (5 + 2 * k)) = x.value)) ∧
    (0 ≤ day.differenceTotal → day.differenceTotal < 2 ^ 63 → (nat64 (wordAt ws 12) (wordAt ws 13) : Int) = day.differenceTotal) ∧
    (day.differenceTotal < 0 → -2 ^ 63 ≤ day.differenceTotal →
      (nat64 (wordAt ws 12) (wordAt ws 13) : Int) = 2 ^ 64 + day.differenceTotal) ∧
    flagAt (wordAt ws 14) 4 = day.sumsSaturated ∧ an.length = 31 ∧ (wordAt an 0).toNat = day.state.code ∧
    (wordAt an 1).toNat = day.date ∧ (wordAt an 2).toNat = day.previousDate ∧ (wordAt an 3).toNat = day.first ∧
    (∀ x : Fin 10, countAt day.openCounts x < 65536 →
      field (wordAt an (4 + x.val / 2)) (16 * (x.val % 2)) 16 = countAt day.openCounts x) ∧
    (∀ x : Fin 10, countAt day.closingCounts x < 2 ^ 32 → (wordAt an (9 + x.val)).toNat = countAt day.closingCounts x) ∧
    flagAt (wordAt an 19) 0 = day.damaged ∧ flagAt (wordAt an 19) 1 = day.openingDiff ∧ (wordAt an 20).toNat = day.batch ∧
    (wordAt an 21).toNat = day.failure.code ∧ ∀ k, 22 ≤ k → wordAt an k = 0 := by
  intro ws an sums
  obtain ⟨hsaturated, hflags⟩ := day.runningFlags
  obtain ⟨hpositive, hnegative⟩ := nat64_signed day.differenceTotal (wordAt ws 12) (wordAt ws 13) rfl
  obtain ⟨hopen, hclosing⟩ := day.anchorCounts
  obtain ⟨hdamaged, hopening⟩ := day.anchorFlags
  have hstate : day.state.code < 2 ^ 32 := by cases day.state <;> decide
  have hfailure : day.failure.code < 2 ^ 32 := by cases day.failure <;> decide
  have han : an = _ := day.anchorWords_eq
  have h20 : wordAt an 20 = wd day.batch := by rw [han]; rfl
  have h21 : wordAt an 21 = wd day.failure.code := by rw [han]; rfl
  exact ⟨rfl, toNat_wd_of_lt hnext, toNat_wd_of_lt hcount, nat64_words _ hhash,
    fun k x hx => ⟨hflags k x hx, day.runningSums k x hx⟩, hpositive, hnegative, hsaturated, by rw [han]; rfl,
    toNat_wd_of_lt hstate, toNat_wd_of_lt hdate, toNat_wd_of_lt hprevious, toNat_wd_of_lt hfirst, hopen, hclosing, hdamaged, hopening,
    h20 ▸ toNat_wd_of_lt hbatch, h21 ▸ toNat_wd_of_lt hfailure, day.anchorReserved⟩

end Sys2Proof.Machine
end

section
/-! PROOF. What CU asks for after a record (O37). -/

namespace Sys2Proof.Machine

/-! ### What CU's part sees of the record's notices -/

/-- The accesses asked for by a unit. -/
def Chip.asked (c : Chip) (u : Fin 9) : List OwnReq := c.own[u.val]

/-- Those of another unit do not count. -/
theorem Chip.asked_pushAll_ne (c : Chip) {u v : Fin 9} (h : u ≠ v) (l : List OwnReq) : (c.pushAll v l).asked u = c.asked u :=
  vupd_get_ne _ _ _ _ h

/-- They are told by all accesses. -/
theorem Chip.asked_congr {c d : Chip} (h : d.own = c.own) (u : Fin 9) : d.asked u = c.asked u := by
  unfold Chip.asked
  rw [h]

/-- CU's accesses and its stale marks. -/
def Chip.cuView (c : Chip) : List OwnReq × Vector Bool 13 := (c.asked rCU, c.cu.stale)

/-- A chip with the same CU and the same accesses of CU's. -/
theorem Chip.cuView_congr {c d : Chip} (ho : d.asked rCU = c.asked rCU) (hc : d.cu.stale = c.cu.stale) : d.cuView = c.cuView := by
  unfold Chip.cuView
  rw [ho, hc]

/-- The end of a request asks for SU's accesses alone. -/
theorem Chip.requestDone_asked (c : Chip) {u : Fin 9} (h : u ≠ rSU) : c.requestDone.asked u = c.asked u := by
  unfold Chip.requestDone Chip.finishRequest
  split
  · rfl
  · exact c.asked_pushAll_ne h _

/-- SCU's list leaves the accesses of all but SCU and SU. -/
theorem Chip.scuTake_asked (c : Chip) (work : List ScuWork) {u : Fin 9} (hscu : u ≠ rSCU) (hsu : u ≠ rSU) :
    (c.scuTake work).asked u = c.asked u := by
  induction work generalizing c with
  | nil => rfl
  | cons e rest ih =>
    cases e with
    | status p => rfl
    | count p =>
      unfold Chip.scuTake
      split
      · exact Chip.asked_pushAll_ne _ hscu _
      · exact ih c
    | mode p fin =>
      unfold Chip.scuTake
      split
      · exact Chip.asked_pushAll_ne _ hscu _
      · split
        · exact (ih _).trans (c.requestDone_asked hsu)
        · exact ih c
    | fanRead => exact Chip.asked_pushAll_ne _ hscu _
    | fanWrite p =>
      unfold Chip.scuTake
      split
      · exact Chip.asked_pushAll_ne _ hscu _
      · exact ih _

/-- So does a status row's event. -/
theorem Chip.statusEvent_asked (c : Chip) (p : Fin 12) {u : Fin 9} (hscu : u ≠ rSCU) (hsu : u ≠ rSU) :
    (c.statusEvent p).asked u = c.asked u := by
  have hflash : (c.judgeFlash p).asked u = c.asked u := Chip.asked_congr (c.judgeFlash_own p) u
  unfold Chip.statusEvent
  dsimp only
  split
  · exact hflash
  · unfold Chip.addWork Chip.scuPump
    split
    · exact hflash
    · exact (Chip.scuTake_asked _ _ hscu hsu).trans hflash

@[simp] theorem Chip.statusEvent_cuView (c : Chip) (p : Fin 12) : (c.statusEvent p).cuView = c.cuView :=
  Chip.cuView_congr (c.statusEvent_asked p (by decide) (by decide)) (by rw [Chip.statusEvent_cu])

@[simp] theorem Chip.statusEventAll_cuView (c : Chip) : c.statusEventAll.cuView = c.cuView :=
  foldl_keeps Chip.cuView _ (fun c p => c.statusEvent_cuView p) _ _

@[simp] theorem Chip.withdraw_cuView (c : Chip) (p : Fin 12) : (c.withdraw p).cuView = c.cuView := rfl

@[simp] theorem Chip.ring_cuView (c : Chip) (p : Fin 12) : (c.ring p).cuView = c.cuView := rfl

@[simp] theorem Chip.report_cuView (c : Chip) (k : ReportKind) (i d : Nat) : (c.report k i d).cuView = c.cuView := by
  refine Chip.cuView_congr ?_ (by rw [Chip.report_cu])
  unfold Chip.report
  split
  · rfl
  · unfold Chip.setOverflow
    split
    · exact Chip.asked_pushAll_ne _ (by decide) _
    · rfl

/-- A change of CU's records leaves its stale marks. -/
theorem Chip.onCu_cuView (c : Chip) (f : CuState → CuState) (h : (f c.cu).stale = c.cu.stale) : (c.onCu f).cuView = c.cuView :=
  Chip.cuView_congr rfl h

@[simp] theorem CuState.onDrawer_stale (cu : CuState) (i : Nat) (f : Drawer → Drawer) : (cu.onDrawer i f).stale = cu.stale := by
  unfold CuState.onDrawer
  split <;> rfl

@[simp] theorem Chip.drawerNotice_cuView (c : Chip) (i : Nat) : (c.drawerNotice i).cuView = c.cuView := by
  unfold Chip.drawerNotice
  split
  · rfl
  · dsimp only
    split <;> simp

@[simp] theorem Chip.dayNotice_cuView (c : Chip) : c.dayNotice.cuView = c.cuView := by
  refine (Chip.statusEventAll_cuView _).trans ?_
  split
  · rfl
  · exact foldl_keeps Chip.cuView _ (fun c p => c.withdraw_cuView p) _ _

@[simp] theorem Chip.judgeExcess_cuView (c : Chip) (p : Fin 12) (detail : Nat) : (c.judgeExcess p detail).cuView = c.cuView := by
  have hflag : (c.onCu (·.onDrawer p.val fun d => { d with excess := c.excessOf p })).cuView = c.cuView :=
    c.onCu_cuView _ (CuState.onDrawer_stale ..)
  unfold Chip.judgeExcess
  dsimp only
  (repeat' split) <;> simp [hflag]

/-- A record's effect leaves the stale marks (R79). -/
theorem CuState.applyRecord_stale (cu : CuState) (faces : Vector Nat 10) (k : RecordKind) (r : JRecord) :
    (cu.applyRecord faces k r).stale = cu.stale := by
  have hvoid : (cu.applyVoid r).stale = cu.stale := by
    unfold CuState.applyVoid
    split <;> simp [CuState.onDay]
  have hkind : (cu.applyKind faces k r).stale = cu.stale := by
    unfold CuState.applyKind
    split <;> simp [CuState.onDay, hvoid]
  show (CuState.onDrawer _ _ _).stale = _
  rw [CuState.onDrawer_stale, hkind]

@[simp] theorem Chip.kindReports_cuView (c : Chip) (k : RecordKind) (r : JRecord) : (c.kindReports k r).cuView = c.cuView := by
  unfold Chip.kindReports
  dsimp only
  (repeat' split) <;> simp

/-- The first stage of a record asks nothing of CU and leaves its stale marks (R79). -/
theorem Chip.applyChange_cuView (c : Chip) (k : RecordKind) (r : JRecord) : (c.applyChange k r).cuView = c.cuView := by
  have hrecord : (c.onCu (·.applyRecord c.faces k r)).cuView = c.cuView := c.onCu_cuView _ (CuState.applyRecord_stale ..)
  have hopened (d : Chip) : (if k == .dayOpen then d.onCu (·.onDay (·.opened r)) else d).cuView = d.cuView := by
    split <;> rfl
  have hnotice (d : Chip) : (if k == .dayOpen then d.dayNotice else d).cuView = d.cuView := by
    split <;> simp
  refine (hnotice _).trans ((foldl_keeps Chip.cuView _ (fun d i => d.drawerNotice_cuView i) _ _).trans
    ((foldl_keeps Chip.cuView _ (fun d i => ?_) _ _).trans ((Chip.kindReports_cuView _ _ _).trans ((hopened _).trans hrecord))))
  split <;> simp

/-! ### The writes -/

/-- Mirrors written whole (R77). -/
theorem Chip.writeMirrors_asked (c : Chip) (is : List (Fin 13)) : (c.writeMirrors is .nothing).asked rCU =
    c.asked rCU ++ if c.windowEnabled .totals = true then is.flatMap (c.mirrorAsked · .nothing) else [] := by
  unfold Chip.writeMirrors
  split
  · cases hrev : is.reverse with
    | nil =>
      obtain rfl : is = [] := List.reverse_eq_nil_iff.mp hrev
      exact (List.append_nil _).symm
    | cons last front =>
      obtain rfl : is = front.reverse ++ [last] := by rw [← List.reverse_cons, ← hrev, List.reverse_reverse]
      refine (vupd_get_same _ _ _).trans ?_
      refine (congrArg (· ++ _) (vupd_get_same _ _ _)).trans ?_
      rw [List.append_assoc]
      refine congrArg (c.own[rCU.val] ++ ·) ?_
      rw [List.flatMap_append, List.flatMap_singleton]
      rfl
  · exact (List.append_nil _).symm

/-- They change nothing else. -/
theorem Chip.writeMirrors_own (c : Chip) (is : List (Fin 13)) (k : After) : ∃ own, c.writeMirrors is k = { c with own := own } := by
  unfold Chip.writeMirrors
  (repeat' split) <;> exact ⟨_, rfl⟩

/-- The running part written (R79). -/
theorem Chip.writeRunning_eq (c : Chip) (k : After) : c.writeRunning k = c.pushAll rCU (c.runningAsked k) := rfl

/-- The anchor part written (R79). -/
theorem Chip.writeAnchor_eq (c : Chip) (k : After) : c.writeAnchor k = c.pushAll rCU (c.anchorAsked k) := rfl

/-- The second stage of a record: mirrors, running part, and a DAY_OPEN's anchor part (R79). -/
theorem Chip.applyWrites_asked (c : Chip) (k : RecordKind) (r : JRecord) : (c.applyWrites k r).asked rCU = c.asked rCU
    ++ (if c.windowEnabled .totals = true then
        (c.mirrorsToWrite (r.position :: touchedTarget k r)).flatMap ((c.applyWrites k r).mirrorAsked · .nothing) else [])
    ++ (c.applyWrites k r).runningAsked (if k = .dayOpen then .nothing else .posting)
    ++ if k = .dayOpen then (c.applyWrites k r).anchorAsked .posting else [] := by
  have hmirrors := c.writeMirrors_asked (c.mirrorsToWrite (r.position :: touchedTarget k r))
  obtain ⟨own, hown⟩ := c.writeMirrors_own (c.mirrorsToWrite (r.position :: touchedTarget k r)) .nothing
  rw [hown] at hmirrors
  have hpush (d : Chip) (l : List OwnReq) : (d.pushAll rCU l).asked rCU = d.asked rCU ++ l := vupd_get_same _ _ _
  unfold Chip.applyWrites
  dsimp only
  rw [hown]
  by_cases hk : k = .dayOpen
  · rw [if_pos hk, if_pos hk, if_pos (beq_iff_eq.mpr hk), Chip.writeRunning_eq, Chip.writeAnchor_eq, hpush, hpush, hmirrors]
    rfl
  · rw [if_neg hk, if_neg hk, if_neg (mt beq_iff_eq.mp hk), Chip.writeRunning_eq, hpush, hmirrors, List.append_nil]
    rfl

/-- The records besides the slot's own that a record touches (R79). -/
theorem mem_touchedTarget (k : RecordKind) (r : JRecord) (x : Nat) : x ∈ touchedTarget k r ↔
    x = r.target ∧ (k ∈ [.transfer, .acceptDifference, .reopen] ∨ (k = .void ∧ r.original = some .transfer)) := by
  cases k with
  | transfer | acceptDifference | reopen => simp [touchedTarget]
  | void =>
    by_cases h : r.original = some .transfer <;> simp [touchedTarget, h]
  | _ => simp [touchedTarget]

/-- The mirrors written: those touched and the stale ones, in index order (R77, R79). -/
theorem Chip.mirrorsToWrite_eq (c : Chip) (k : RecordKind) {r : JRecord} {i j : Fin 13} (hi : r.position = i.val) (hj : r.target = j.val)
    (targets : Prop) [Decidable targets]
    (ht : targets ↔ k ∈ [.transfer, .acceptDifference, .reopen] ∨ (k = .void ∧ r.original = some .transfer)) :
    c.mirrorsToWrite (r.position :: touchedTarget k r) =
      (List.finRange 13).filter fun x => x == i || (x == j && decide targets) || c.cu.stale[x.val] := by
  have hindices : drawerIndices = List.finRange 13 := by decide
  unfold Chip.mirrorsToWrite
  rw [hindices]
  refine congrArg (fun f => (List.finRange 13).filter f) (funext fun x => ?_)
  have hmem : (r.position :: touchedTarget k r).contains x.val = (x == i || (x == j && decide targets)) := by
    rw [Bool.eq_iff_iff, List.contains_iff_mem, List.mem_cons, mem_touchedTarget, ← ht, hi, hj]
    simp [Fin.ext_iff]
  rw [hmem]

/-- APPLY_RECORD with a record handed over (R79). -/
theorem Chip.applyPosted_eq {c : Chip} {po : Posting} {k : RecordKind} (hpo : c.ju.posting = some po) (hphase : po.phase = .handed)
    (hk : recordKindOfCode po.record.code = some k) : c.applyPosted =
      (({ c with ju := { c.ju with posting := some { po with phase := .applying } } } : Chip).applyChange k po.record).applyWrites k po.record := by
  unfold Chip.applyPosted
  rw [hpo]
  dsimp only
  rw [if_pos (beq_iff_eq.mpr hphase), hk]

/-- What APPLY_RECORD asks of CU (R77, R79). -/
theorem applyRecord_asked (s : State) (po : Posting) (k : RecordKind) (i j : Fin 13) (hs : s.prompt = false)
    (hpo : s.chip.ju.posting = some po) (hphase : po.phase = .handed) (hk : recordKindOfCode po.record.code = some k)
    (hi : po.record.position = i.val) (hj : po.record.target = j.val) :
    Completes .applyRecord s fun t =>
      let c := s.chip
      let targets := k ∈ [.transfer, .acceptDifference, .reopen] ∨ (k = .void ∧ po.record.original = some .transfer)
      t.chip.own[rCU.val] = c.own[rCU.val]
        ++ (if c.windowEnabled .totals = true then
            ((List.finRange 13).filter fun x => x == i || (x == j && decide targets) || c.cu.stale[x.val]).flatMap
              (t.chip.mirrorAsked · .nothing) else [])
        ++ t.chip.runningAsked (if k = .dayOpen then .nothing else .posting)
        ++ if k = .dayOpen then t.chip.anchorAsked .posting else [] := by
  have hexec : exec .applyRecord s = .next { s with chip := s.chip.applyPosted } :=
    congrArg Host.Outcome.next (State.act_of_not_prompt s Chip.applyPosted hs)
  rw [Chip.applyPosted_eq hpo hphase hk] at hexec
  refine ⟨_, hexec, ?_⟩
  let c : Chip := { s.chip with ju := { s.chip.ju with posting := some { po with phase := .applying } } }
  let d := c.applyChange k po.record
  have hview : d.cuView = c.cuView := c.applyChange_cuView k po.record
  have hasked : d.asked rCU = s.chip.asked rCU := congrArg Prod.fst hview
  have hstale : d.cu.stale = s.chip.cu.stale := congrArg Prod.snd hview
  have hwindow : d.windowEnabled .totals = s.chip.windowEnabled .totals := by
    have hap : d.ap = s.chip.ap := by
      have hgist := c.applyChange_gist k po.record
      split at hgist <;> exact congrArg Gist.ap hgist
    unfold Chip.windowEnabled Chip.placement
    rw [hap]
  have hall := d.applyWrites_asked k po.record
  rw [Chip.mirrorsToWrite_eq d k hi hj _ Iff.rfl, hasked, hstale, hwindow] at hall
  exact hall

end Sys2Proof.Machine
end

section
/-! PROOF. What the answers of CU's writes do (O37). -/

namespace Sys2Proof.Machine

/-! ### An access of CU's answered -/

/-- CU's note of an answer, an ERROR reported (R17). -/
def Chip.cuNoted (c : Chip) (f : CuState → CuState) (okay : Bool) (addr : Nat) : Chip :=
  if okay then c.onCu f else (c.onCu f).reportStore rCU addr

/-- CU after it. -/
theorem Chip.cuNoted_cu (c : Chip) (f : CuState → CuState) (okay : Bool) (addr : Nat) : (c.cuNoted f okay addr).cu = f c.cu := by
  unfold Chip.cuNoted
  split
  · rfl
  · exact Chip.report_cu _ _ _ _

/-- What SU has of it. -/
theorem Chip.cuNoted_told (c : Chip) (f : CuState → CuState) (okay : Bool) (addr : Nat) : c.Told (c.cuNoted f okay addr) okay rCU addr := by
  unfold Chip.cuNoted
  refine ⟨fun h => ?_, fun h hroom => ?_⟩
  · rw [if_pos h]
    rfl
  · rw [if_neg (Bool.eq_false_iff.mp h), Chip.reportStore, Chip.report_of_room (c.onCu f) _ _ _ hroom]
    rfl

/-- What it leaves. -/
theorem Chip.cuNoted_parts (c : Chip) (f : CuState → CuState) (okay : Bool) (addr : Nat) : (c.cuNoted f okay addr).ju = c.ju ∧
    (c.cuNoted f okay addr).ap = c.ap ∧ (c.cuNoted f okay addr).su.image = c.su.image := by
  unfold Chip.cuNoted
  split
  · exact ⟨rfl, rfl, rfl⟩
  · exact ⟨Chip.report_ju _ _ _ _, Chip.report_ap _ _ _ _, congrArg Gist.image (Chip.report_gist _ _ _ _)⟩

/-- With room for the report it changes CU and the list of reports alone. -/
theorem Chip.cuNoted_room {c : Chip} {n : Nat} (f : CuState → CuState) (okay : Bool) (addr : Nat) (hroom : c.su.reports.length + (n + 1) ≤ 16) :
    ∃ rs : List Report, c.cuNoted f okay addr = { c with cu := f c.cu, su := { c.su with reports := rs } } ∧ rs.length + n ≤ 16 := by
  unfold Chip.cuNoted
  split
  · exact ⟨c.su.reports, rfl, by omega⟩
  · have hroom' : (c.onCu f).su.reports.length < 16 := by
      show c.su.reports.length < 16
      omega
    refine ⟨c.su.reports ++ [⟨.storeError, rCU.val, pageOf addr, c.su.ms⟩], ?_, ?_⟩
    · rw [Chip.reportStore, Chip.report_of_room _ _ _ _ hroom']
      rfl
    · rw [List.length_append, List.length_singleton]
      omega

/-- A burst of a mirror answered (R77). -/
theorem mirror_answered (s : State) (op : StoreOp) (okay : Bool) (hs : s.prompt = false) (i : Fin 13) (b : Nat)
    (hport : s.arb.port = .own rCU op (.mirror i b .nothing) false) : Completes (.storeAnswer okay) s fun t =>
      let c := s.chip
      let failed := !okay || (b != 0 && c.cu.bad[i.val])
      t.chip.cu = { c.cu with
        bad := vput c.cu.bad i failed, stale := vput c.cu.stale i (if b = 3 then failed else c.cu.stale[i.val] || !okay) } ∧
      c.Told t.chip okay rCU op.addr := by
  refine State.completes_answer hs hport okay ?_
  let c := s.chip
  let failed := !okay || (b != 0 && c.cu.bad[i.val])
  let f (cu : CuState) : CuState := { cu with
    bad := vput cu.bad i failed, stale := vput cu.stale i (if b == 3 then failed else cu.stale[i.val] || !okay) }
  have hstale : (if (b == 3) = true then failed else c.cu.stale[i.val] || !okay) = if b = 3 then failed else c.cu.stale[i.val] || !okay :=
    if_congr beq_iff_eq rfl rfl
  refine ⟨(c.cuNoted_cu f okay op.addr).trans ?_, c.cuNoted_told f okay op.addr⟩
  show ({ c.cu with bad := _, stale := vput c.cu.stale i _ } : CuState) = _
  rw [hstale]

/-- A burst of the running part answered, as CU notes it (R79). -/
def CuState.runningNoted (cu : CuState) (b : Nat) (okay : Bool) : CuState :=
  let failed := !okay || (b != 0 && cu.runningBad)
  { cu with runningBad := failed, runningStale := if b = 1 then failed else cu.runningStale || !okay }

/-- It is so noted. -/
theorem Chip.runningAnswered_eq (c : Chip) (b addr : Nat) (okay : Bool) :
    c.runningAnswered b addr okay = c.cuNoted (·.runningNoted b okay) okay addr := by
  have hstale : (if (b == 1) = true then !okay || (b != 0 && c.cu.runningBad) else c.cu.runningStale || !okay) =
      if b = 1 then !okay || (b != 0 && c.cu.runningBad) else c.cu.runningStale || !okay := if_congr beq_iff_eq rfl rfl
  unfold Chip.runningAnswered Chip.cuNoted Chip.onCu CuState.runningNoted
  dsimp only
  rw [hstale]

/-- A burst of the running part answered (R79). -/
theorem running_answered (s : State) (op : StoreOp) (okay : Bool) (hs : s.prompt = false) (b : Nat)
    (hport : s.arb.port = .own rCU op (.running b .nothing) false) : Completes (.storeAnswer okay) s fun t =>
      let c := s.chip
      let failed := !okay || (b != 0 && c.cu.runningBad)
      t.chip.cu = { c.cu with
        runningBad := failed, runningStale := if b = 1 then failed else c.cu.runningStale || !okay } ∧
      c.Told t.chip okay rCU op.addr := by
  refine State.completes_answer hs hport okay ?_
  have hchip : (s.answered rCU op (.running b .nothing) okay).chip = s.chip.cuNoted (·.runningNoted b okay) okay op.addr :=
    s.chip.runningAnswered_eq b op.addr okay
  rw [hchip]
  exact ⟨s.chip.cuNoted_cu _ okay op.addr, s.chip.cuNoted_told _ okay op.addr⟩

/-! ### The posting goes on -/

/-- Whether the near-full report is due (R69). -/
def Chip.nearDue (c : Chip) : Prop := c.ju.nearFull = false ∧ c.capacity * 9 ≤ c.cu.day.recordCount * 10

/-- JU judges it (R69). -/
theorem Chip.judgeNearFull_eq (c : Chip) (seq : Nat) :
    (c.nearDue → c.judgeNearFull seq = (c.onJu fun j => { j with nearFull := true }).report .journalNearFull 0 seq) ∧
    (¬ c.nearDue → c.judgeNearFull seq = c) := by
  have hdue : (!c.ju.nearFull && c.nearFullMet) = true ↔ c.nearDue := by simp [Chip.nearDue, Chip.nearFullMet]
  unfold Chip.judgeNearFull
  constructor <;> intro h
  · rw [if_pos (hdue.mpr h)]
  · rw [if_neg (mt hdue.mp h)]

/-- The write of word 0 that a posting goes on with (R64). -/
def Chip.wordAsked (c : Chip) (po : Posting) : OwnReq := ⟨.write (c.slotAddr po.slot.val 0) [wd po.record.seq], .post .word0, false⟩

/-- CU's part of a posting being done, JU writes word 0 (R64). -/
theorem Chip.postingApplied_eq {c : Chip} {po : Posting} (h : c.ju.posting = some po) :
    c.postingApplied = (c.judgeNearFull po.record.seq).pushAll rJU [c.wordAsked po] := by
  unfold Chip.postingApplied
  rw [h]
  rfl

/-- The judgement leaves CU. -/
theorem Chip.judgeNearFull_cu (c : Chip) (seq : Nat) : (c.judgeNearFull seq).cu = c.cu := by
  obtain ⟨hdue, hnot⟩ := c.judgeNearFull_eq seq
  by_cases h : c.nearDue
  · rw [hdue h, Chip.report_cu]
    rfl
  · rw [hnot h]

/-- JU after CU's part of a posting, and what it asks for (R64, R69). -/
theorem Chip.postingApplied_ju {c : Chip} {po : Posting} (h : c.ju.posting = some po) [Decidable c.nearDue] :
    c.postingApplied.ju = { c.ju with nearFull := c.ju.nearFull || decide c.nearDue } ∧
    c.postingApplied.cu = c.cu ∧ c.postingApplied.asked rJU = (c.judgeNearFull po.record.seq).asked rJU ++ [c.wordAsked po] := by
  have hcu := c.judgeNearFull_cu po.record.seq
  obtain ⟨hdue, hnot⟩ := c.judgeNearFull_eq po.record.seq
  rw [Chip.postingApplied_eq h]
  refine ⟨?_, hcu, vupd_get_same _ _ _⟩
  by_cases hn : c.nearDue
  · rw [Chip.pushAll_ju, hdue hn, Chip.report_ju, decide_eq_true hn, Bool.or_true]
    rfl
  · rw [Chip.pushAll_ju, hnot hn, decide_eq_false hn, Bool.or_false]

/-- What SU has of it: the near-full report when it is due (R69). -/
theorem Chip.postingApplied_su {c : Chip} {po : Posting} (h : c.ju.posting = some po) :
    (¬ c.nearDue → c.postingApplied.su = c.su ∧ c.postingApplied.own = vupd c.own rJU (· ++ [c.wordAsked po])) ∧
    (c.nearDue → c.su.reports.length < 16 → c.postingApplied.su = { c.su with
      reports := c.su.reports ++ [⟨.journalNearFull, 0, po.record.seq, c.su.ms⟩] } ∧
      c.postingApplied.own = vupd c.own rJU (· ++ [c.wordAsked po])) := by
  obtain ⟨hdue, hnot⟩ := c.judgeNearFull_eq po.record.seq
  rw [Chip.postingApplied_eq h]
  refine ⟨fun hn => ?_, fun hn hroom => ?_⟩
  · rw [hnot hn]
    exact ⟨rfl, rfl⟩
  · rw [hdue hn, Chip.report_of_room (c.onJu _) _ _ _ hroom]
    exact ⟨rfl, rfl⟩

/-- The last write of a posting answered: the posting goes on (R64, R69). `d` is the part once CU has noted the answer. -/
theorem posting_goes_on {c d : Chip} {po : Posting} (hpo : c.ju.posting = some po) (hju : d.ju = c.ju) (hap : d.ap = c.ap)
    (hday : d.cu.day = c.cu.day) (himage : d.su.image = c.su.image) {okay : Bool} (hsu : okay = true → d.su = c.su) :
    let near := c.ju.nearFull = false ∧ c.capacity * 9 ≤ c.cu.day.recordCount * 10
    d.postingApplied.ju = { c.ju with nearFull := c.ju.nearFull || decide near } ∧
    (d.postingApplied.own[rJU.val] : List OwnReq).getLast? =
      some ⟨.write (c.slotAddr po.slot.val 0) [wd po.record.seq], .post .word0, false⟩ ∧
    (okay = true → ¬ near → d.postingApplied.su = c.su) ∧
    (okay = true → near → c.su.reports.length < 16 → d.postingApplied.su = { c.su with
      reports := c.su.reports ++ [⟨.journalNearFull, 0, po.record.seq, c.su.ms⟩] }) := by
  intro near
  have hnear : d.nearDue ↔ near := by
    unfold Chip.nearDue Chip.capacity
    rw [hju, hday, Chip.setting_congr himage]
    rfl
  have hdec : Decidable d.nearDue := decidable_of_iff near hnear.symm
  have hpo' : d.ju.posting = some po := by rw [hju]; exact hpo
  have hword : d.wordAsked po = c.wordAsked po := by
    unfold Chip.wordAsked Chip.slotAddr Chip.journalAddr Chip.windowBase Chip.placement
    rw [hap]
  obtain ⟨hafter, -, hasked⟩ := Chip.postingApplied_ju hpo'
  obtain ⟨hnot, hdue⟩ := Chip.postingApplied_su hpo'
  refine ⟨?_, ?_, fun hokay hn => ?_, fun hokay hn hroom => ?_⟩
  · rw [hafter, hju]
    exact congrArg (fun b => { c.ju with nearFull := c.ju.nearFull || b }) (decide_eq_decide.mpr hnear)
  · show (d.postingApplied.asked rJU).getLast? = _
    rw [hasked, hword, List.getLast?_concat]
    rfl
  · rw [(hnot (mt hnear.mp hn)).1, hsu hokay]
  · have hroom' : d.su.reports.length < 16 := by rw [hsu hokay]; exact hroom
    rw [(hdue (hnear.mpr hn) hroom').1, hsu hokay]

/-- The last write of a posting (R64, R79). -/
theorem posting_answered (s : State) (po : Posting) (u : Fin 9) (op : StoreOp) (tag : Tag) (hs : s.prompt = false)
    (hpo : s.chip.ju.posting = some po) (hport : s.arb.port = .own u op tag false) (htag : tag ∈ [.running 1 .posting, .dayCrc .posting])
    (okay : Bool) : Completes (.storeAnswer okay) s fun t =>
      let c := s.chip
      let near := c.ju.nearFull = false ∧ c.capacity * 9 ≤ c.cu.day.recordCount * 10
      t.chip.ju = { c.ju with nearFull := c.ju.nearFull || decide near } ∧
      (t.chip.own[rJU.val] : List OwnReq).getLast? =
        some ⟨.write (c.slotAddr po.slot.val 0) [wd po.record.seq], .post .word0, false⟩ ∧
      (okay = true → ¬ near → t.chip.su = c.su) ∧
      (okay = true → near → c.su.reports.length < 16 → t.chip.su = { c.su with
        reports := c.su.reports ++ [⟨.journalNearFull, 0, po.record.seq, c.su.ms⟩] }) := by
  refine State.completes_answer hs hport okay ?_
  obtain rfl | rfl : tag = .running 1 .posting ∨ tag = .dayCrc .posting := by simpa using htag
  · let d := s.chip.cuNoted (·.runningNoted 1 okay) okay op.addr
    have hchip : (s.answered u op (.running 1 .posting) okay).chip = d.postingApplied :=
      congrArg Chip.postingApplied (s.chip.runningAnswered_eq 1 op.addr okay)
    have hcu : d.cu = s.chip.cu.runningNoted 1 okay := s.chip.cuNoted_cu _ okay op.addr
    have hparts : d.ju = s.chip.ju ∧ d.ap = s.chip.ap ∧ d.su.image = s.chip.su.image := s.chip.cuNoted_parts _ okay op.addr
    obtain ⟨hju, hap, himage⟩ := hparts
    rw [hchip]
    exact posting_goes_on hpo hju hap (by rw [hcu]; rfl) himage (s.chip.cuNoted_told _ okay op.addr).1
  · let d := if okay then s.chip else s.chip.reportStore u op.addr
    have hparts : d.ju = s.chip.ju ∧ d.ap = s.chip.ap ∧ d.cu = s.chip.cu ∧ d.su.image = s.chip.su.image := by
      cases okay with
      | true => exact ⟨rfl, rfl, rfl, rfl⟩
      | false => exact ⟨Chip.report_ju _ _ _ _, Chip.report_ap _ _ _ _, Chip.report_cu _ _ _ _, congrArg Gist.image (Chip.report_gist _ _ _ _)⟩
    obtain ⟨hju, hap, hcu, himage⟩ := hparts
    exact posting_goes_on hpo hju hap (by rw [hcu]) himage fun hokay => congrArg Chip.su (if_pos hokay)

/-! ### The last burst of the anchor part -/

/-- The anchor part's last burst answered, as CU notes it (log 52). -/
def CuState.anchorNoted (cu : CuState) (okay : Bool) : CuState := { cu with anchorBad := !okay || cu.anchorBad }

/-- The CRC write is asked of SU (R25). -/
theorem Chip.askDayCrc_own (c : Chip) (k : After) : (c.askDayCrc k).own = vupd c.own rSU (· ++ [⟨.dayCrc, .dayCrc k, false⟩]) := rfl

/-- What follows it: the CRC write, or, where a burst failed and the start-up is not DEFAULTED, what would have followed that (R25,
R28, log 52). -/
theorem Chip.anchorAnswered_eq (c : Chip) (k : After) (okay : Bool) (addr : Nat) : c.anchorAnswered 3 k okay addr =
    if (okay = false ∨ c.cu.anchorBad = true) ∧ k ≠ .defaults then (c.cuNoted (·.anchorNoted okay) okay addr).runAfter k
    else (c.cuNoted (·.anchorNoted okay) okay addr).askDayCrc k := by
  have hburst : c.anchorBurst 3 addr okay = c.cuNoted (·.anchorNoted okay) okay addr := rfl
  have hbad : ((c.cuNoted (·.anchorNoted okay) okay addr).cu.anchorBad && k != .defaults) = true ↔
      (okay = false ∨ c.cu.anchorBad = true) ∧ k ≠ .defaults := by
    rw [Chip.cuNoted_cu]
    simp [CuState.anchorNoted]
  unfold Chip.anchorAnswered
  dsimp only
  rw [hburst]
  exact (if_pos rfl).trans (if_congr hbad rfl rfl)

/-- Accesses asked for in two parts. -/
theorem Chip.pushAll_pushAll (c : Chip) (u : Fin 9) (l m : List OwnReq) : (c.pushAll u l).pushAll u m = c.pushAll u (l ++ m) := by
  unfold Chip.pushAll
  dsimp only
  rw [vupd_vupd]
  simp only [List.append_assoc]

/-- All thirteen mirrors written, with TOTALS enabled (R77). -/
theorem Chip.writeMirrors_all (c : Chip) (k : After) (h : c.windowEnabled .totals = true) :
    c.writeMirrors drawerIndices k = c.pushAll rCU (c.mirrorsAsked k) :=
  (if_pos h).trans (c.pushAll_pushAll rCU _ _)

/-- What follows CLEAR_DAY's anchor part: the running part, then the mirrors (R175). -/
theorem Chip.clearStore_eq (c : Chip) : c.clearStore = c.pushAll rCU
    (if c.windowEnabled .totals = true then c.runningAsked .nothing ++ c.mirrorsAsked .clearSlots else c.runningAsked .clearSlots) := by
  unfold Chip.clearStore
  split
  · next h =>
    exact (Chip.writeMirrors_all (c.pushAll rCU (c.runningAsked .nothing)) .clearSlots h).trans (c.pushAll_pushAll rCU _ _)
  · rfl

/-! ### The end of rebuild -/

/-- A list that SCU has settled leaves all accesses as they are, and stays settled, when a status row joins it (R113). -/
theorem Chip.ScuSettled.statusEvent {c : Chip} (h : c.ScuSettled) (p : Fin 12) :
    (c.statusEvent p).own = c.own ∧ (c.statusEvent p).ScuSettled := by
  have hown := c.judgeFlash_own p
  have hwork := c.judgeFlash_work p
  have hserving : (c.judgeFlash p).scu.serving = c.scu.serving := by
    unfold Chip.judgeFlash
    dsimp only
    split <;> rfl
  have hflash : (c.judgeFlash p).ScuSettled := by
    unfold Chip.ScuSettled
    rw [hwork, hserving]
    exact h
  unfold Chip.statusEvent
  dsimp only
  generalize c.judgeFlash p = d at hown hflash
  rw [← hown]
  split
  · exact ⟨rfl, hflash⟩
  · unfold Chip.addWork Chip.scuPump
    split
    · next hserves =>
      refine ⟨rfl, .inl fun hnone => ?_⟩
      rw [hnone] at hserves
      cases hserves
    · next hfree =>
      have hnone : d.scu.serving = none := by simpa using hfree
      dsimp only
      obtain hserves | hempty | ⟨q, rest, hq⟩ := hflash
      · exact absurd hnone hserves
      · rw [hempty]
        exact ⟨rfl, .inr (.inr ⟨p, [], rfl⟩)⟩
      · rw [hq]
        exact ⟨rfl, .inr (.inr ⟨q, rest ++ [.status p], rfl⟩)⟩

/-- So do the events of all status rows. -/
theorem Chip.ScuSettled.statusEventAll {c : Chip} (h : c.ScuSettled) : c.statusEventAll.own = c.own := by
  have hfold (l : List (Fin 12)) (c : Chip) (h : c.ScuSettled) : (l.foldl (fun c p => c.statusEvent p) c).own = c.own := by
    induction l generalizing c with
    | nil => rfl
    | cons p rest ih => exact (ih _ (h.statusEvent p).2).trans (h.statusEvent p).1
  exact hfold positions c h

/-- The part at the end of rebuild, before the status rows are told (R97). -/
def Chip.rebuilt (c : Chip) : Chip :=
  { c with
    su := { c.su with unitState := .ready, reports := c.su.reports ++ [⟨.rebuildDone, 0, c.cu.day.next, c.su.ms⟩] }
    ju := { c.ju with nextSeq := c.cu.day.next, nearFull := c.nearFullMet }
    cu := { c.cu with walk := none }
    own := vupd c.own rSU (· ++ [⟨.write (c.setupAddr 0x008) [2], .statusWord 0x008, false⟩]) }

/-- The end of rebuild, with room for its report (R97). -/
theorem Chip.rebuildEnds_of_room {c : Chip} (hroom : c.su.reports.length < 16) : c.rebuildEnds = c.rebuilt.statusEventAll := by
  unfold Chip.rebuildEnds
  dsimp only
  rw [Chip.report_of_room c _ _ _ hroom]
  rfl

/-- What it leaves (R57, R97). -/
theorem Chip.rebuildEnds_leaves {c : Chip} (hroom : c.su.reports.length < 16) :
    c.rebuildEnds.su.unitState = .ready ∧ c.rebuildEnds.cu = { c.cu with walk := none } ∧ c.rebuildEnds.ju.nextSeq = c.cu.day.next ∧
    (c.ScuSettled → c.rebuildEnds.own[rSU.val] = c.own[rSU.val] ++ [⟨.write (c.setupAddr 0x008) [2], .statusWord 0x008, false⟩]) := by
  rw [Chip.rebuildEnds_of_room hroom, Chip.statusEventAll_su, Chip.statusEventAll_cu, Chip.statusEventAll_ju]
  refine ⟨rfl, rfl, rfl, fun hsettled => ?_⟩
  have hsettled' : c.rebuilt.ScuSettled := hsettled
  rw [hsettled'.statusEventAll]
  exact vupd_get_same _ _ _

/-- The last write of a rebuild that is finishing ends it (R97). -/
theorem Chip.rebuildDone_finishing {c : Chip} {w : Walk} (hw : c.cu.walk = some w) (hphase : w.phase = .finishing) :
    c.rebuildDone = c.rebuildEnds := by
  have hin : (c.cu.walkIn .finishing).isSome = true := by
    unfold CuState.walkIn
    rw [hw, Option.filter_some, if_pos (beq_iff_eq.mpr hphase)]
    rfl
  exact if_pos hin

/-! ### What follows CU's last write -/

/-- None of it changes the day record. -/
theorem Chip.runAfter_day (c : Chip) (k : After) : (c.runAfter k).cu.day = c.cu.day := by
  cases k with
  | nothing | defaults => rfl
  | posting =>
    show c.postingApplied.cu.day = _
    cases hpo : c.ju.posting with
    | none =>
      have hnone : c.postingApplied = c := by unfold Chip.postingApplied; rw [hpo]
      rw [hnone]
    | some po =>
      classical
      rw [(Chip.postingApplied_ju hpo).2.1]
  | request =>
    show c.requestDone.cu.day = _
    rw [Chip.requestDone_cu]
  | clearStore =>
    show c.clearStore.cu.day = _
    rw [Chip.clearStore_eq]
    rfl
  | clearSlots =>
    show c.clearSlots.cu.day = _
    unfold Chip.clearSlots
    split
    · rfl
    · rw [Chip.requestDone_cu]
  | rebuild =>
    show c.rebuildDone.cu.day = _
    unfold Chip.rebuildDone
    split
    · unfold Chip.rebuildEnds
      dsimp only
      rw [Chip.statusEventAll_cu]
      show (c.report _ _ _).cu.day = _
      rw [Chip.report_cu]
    · rfl

/-- The last burst of an anchor part outside a request answered (R25, R28, R79, R97, log 52). -/
theorem anchor_answered (s : State) (op : StoreOp) (okay : Bool) (hs : s.prompt = false) (after : After)
    (hport : s.arb.port = .own rCU op (.anchor 3 after) false) : Completes (.storeAnswer okay) s fun t =>
      let c := s.chip
      let told (t : State) : Prop := c.Told t.chip okay rCU op.addr
      let totals := c.windowEnabled .totals = true
      let fails := (okay = false ∨ c.cu.anchorBad = true) ∧ after ≠ .defaults
      let asks (u : Fin 9) (rs : List OwnReq) : Prop := t.chip.own = vupd c.own u (· ++ rs)
      let room (n : Nat) := c.su.reports.length + n ≤ 16
      t.chip.cu.day = c.cu.day ∧
      (¬ fails → told t ∧ (room 1 → asks rSU [⟨.dayCrc, .dayCrc after, false⟩])) ∧
      (fails → after = .nothing → told t ∧ (room 1 → t.chip.own = c.own)) ∧
      (fails → after = .clearStore → told t ∧ (room 1 → asks rCU
        (if totals then c.runningAsked .nothing ++ c.mirrorsAsked .clearSlots else c.runningAsked .clearSlots))) ∧
      (∀ po, fails → after = .posting → c.ju.posting = some po → room 2 → asks rJU
        [⟨.write (c.slotAddr po.slot.val 0) [wd po.record.seq], .post .word0, false⟩]) ∧
      ∀ w, fails → after = .rebuild → c.cu.walk = some w → w.phase = .finishing → room 2 →
        t.chip.su.unitState = .ready ∧ t.chip.cu.walk = none ∧ t.chip.ju.nextSeq = c.cu.day.next ∧
        (c.ScuSettled → t.chip.own[rSU.val] = c.own[rSU.val] ++ [⟨.write (c.setupAddr 0x008) [2], .statusWord 0x008, false⟩]) := by
  refine State.completes_answer hs hport okay ?_
  let c := s.chip
  let d := c.cuNoted (·.anchorNoted okay) okay op.addr
  let fails := (okay = false ∨ c.cu.anchorBad = true) ∧ after ≠ .defaults
  let e := (s.answered rCU op (.anchor 3 after) okay).chip
  have hchip : e = if fails then d.runAfter after else d.askDayCrc after := c.anchorAnswered_eq after okay op.addr
  have hruns (h : fails) : e = d.runAfter after := hchip.trans (if_pos h)
  have hcrc (h : ¬ fails) : e = d.askDayCrc after := hchip.trans (if_neg h)
  have htold : c.Told d okay rCU op.addr := c.cuNoted_told _ okay op.addr
  have hday : d.cu.day = c.cu.day := by
    rw [Chip.cuNoted_cu]
    rfl
  have hroom (n : Nat) (h : c.su.reports.length + (n + 1) ≤ 16) := c.cuNoted_room (·.anchorNoted okay) okay op.addr h
  have hown (h : c.su.reports.length + 1 ≤ 16) : d.own = c.own := by
    obtain ⟨rs, hd, -⟩ := hroom 0 h
    rw [show d = _ from hd]
  intro c' told totals fails' asks room
  show e.cu.day = c.cu.day ∧ (¬ fails → c.Told e okay rCU op.addr ∧ (room 1 → e.own = _)) ∧
    (fails → after = .nothing → c.Told e okay rCU op.addr ∧ (room 1 → e.own = c.own)) ∧
    (fails → after = .clearStore → c.Told e okay rCU op.addr ∧ (room 1 → e.own = _)) ∧
    (∀ po, fails → after = .posting → c.ju.posting = some po → room 2 → e.own = _) ∧
    ∀ w, fails → after = .rebuild → c.cu.walk = some w → w.phase = .finishing → room 2 → e.su.unitState = .ready ∧ e.cu.walk = none ∧
      e.ju.nextSeq = c.cu.day.next ∧ (c.ScuSettled → e.own[rSU.val] = _)
  refine ⟨?_, fun h => ?_, fun h hafter => ?_, fun h hafter => ?_, fun po h hafter hpo h2 => ?_, fun w h hafter hw hphase h2 => ?_⟩
  · by_cases h : fails
    · rw [hruns h, Chip.runAfter_day, hday]
    · rw [hcrc h]
      exact hday
  · rw [hcrc h]
    refine ⟨htold, fun h1 => ?_⟩
    rw [Chip.askDayCrc_own, hown h1]
  · rw [hruns h, hafter]
    exact ⟨htold, hown⟩
  · have hclear : e = d.clearStore := by rw [hruns h, hafter]; rfl
    rw [hclear, Chip.clearStore_eq]
    refine ⟨htold, fun h1 => ?_⟩
    obtain ⟨rs, hd, -⟩ := hroom 0 h1
    rw [show d = _ from hd]
    rfl
  · have hposting : e = d.postingApplied := by rw [hruns h, hafter]; rfl
    obtain ⟨rs, hd, hroom'⟩ := hroom 1 h2
    have hd : d = _ := hd
    have hpo' : d.ju.posting = some po := by rw [hd]; exact hpo
    obtain ⟨hnot, hdue⟩ := Chip.postingApplied_su hpo'
    have hasked : d.postingApplied.own = vupd d.own rJU (· ++ [d.wordAsked po]) := by
      by_cases hn : d.nearDue
      · exact (hdue hn (by rw [hd]; exact hroom')).2
      · exact (hnot hn).2
    rw [hposting, hasked, hd]
    rfl
  · have hrebuild : e = d.rebuildDone := by rw [hruns h, hafter]; rfl
    obtain ⟨rs, hd, hroom'⟩ := hroom 1 h2
    have hd : d = _ := hd
    have hw' : d.cu.walk = some w := by rw [hd]; exact hw
    have hlength : d.su.reports.length < 16 := by rw [hd]; exact hroom'
    obtain ⟨hunit, hcu, hnext, hasked⟩ := Chip.rebuildEnds_leaves hlength
    rw [hrebuild, Chip.rebuildDone_finishing hw' hphase]
    refine ⟨hunit, congrArg CuState.walk hcu, hnext.trans (congrArg DayRecord.next hday), fun hsettled => ?_⟩
    have hsettled' : d.ScuSettled := by rw [hd]; exact hsettled
    rw [hasked hsettled', hd]
    rfl

/-- Settles O37. -/
theorem recordsWritten : Obligations.RecordsWritten := by
  unfold Obligations.RecordsWritten
  refine ⟨mirror_words, day_words, applyRecord_asked, fun s op okay hs => ⟨fun i b hport => mirror_answered s op okay hs i b hport,
    fun b hport => running_answered s op okay hs b hport, fun after _ hport => anchor_answered s op okay hs after hport⟩, posting_answered⟩

end Sys2Proof.Machine
end

section
/-! PROOF. Counts denomination by denomination, checks made in order, and stages 1 to 4 (O30; also for O7 and O28). -/

namespace Sys2Proof.Machine

/-! ### Counts -/

/-- The denominations are all ten, ascending. -/
theorem denominations_eq : denominations = List.finRange 10 := rfl

/-- A count of counts made denomination by denomination. -/
@[simp] theorem countAt_countsBy (f : Fin 10 → Nat) (d : Fin 10) : countAt (countsBy f) d = f d := by
  rw [countAt, countsBy, vofList_get _ _ _ _ d.isLt, denominations_eq, List.getD_eq_getElem _ _ (by simp)]
  simp

@[simp] theorem countAt_addCounts (a b : Vector Nat 10) (d : Fin 10) : countAt (addCounts a b) d = countAt a d + countAt b d :=
  countAt_countsBy _ d

@[simp] theorem countAt_subCounts (a b : Vector Nat 10) (d : Fin 10) : countAt (subCounts a b) d = countAt a d - countAt b d :=
  countAt_countsBy _ d

@[simp] theorem countAt_zeroCounts (d : Fin 10) : countAt zeroCounts d = 0 := Vector.getElem_replicate ..

/-- The cash position is the sum of the counts times their faces (R38). -/
theorem cashPosition_eq_sum (faces cs : Vector Nat 10) :
    cashPosition faces cs = ((List.finRange 10).map fun d => countAt cs d * countAt faces d).sum := by
  rw [cashPosition, denominations_eq, List.sum_eq_foldl, List.foldl_map]

/-- No denomination passes a test. -/
theorem lowestDenom_eq_none {test : Fin 10 → Bool} : lowestDenom test = none ↔ ∀ d, test d = false := by
  simp [lowestDenom, denominations_eq]

/-- Some denomination passes a test. -/
theorem lowestDenom_isSome {test : Fin 10 → Bool} : (lowestDenom test).isSome = true ↔ ∃ d, test d = true := by
  rw [Option.isSome_iff_ne_none, ne_eq, lowestDenom_eq_none]
  simp

theorem anyCount_iff {cs : Vector Nat 10} : anyCount cs = true ↔ ∃ d, countAt cs d ≠ 0 := by
  simp [anyCount, lowestDenom_isSome]

theorem sameCounts_iff {a b : Vector Nat 10} : sameCounts a b = true ↔ ∀ d, countAt a d = countAt b d := by
  simp [sameCounts, denominations_eq]

/-- The counts of a record as read are of sixteen bits (Table 12-6). -/
theorem countAt_recordOfWords (ws : List Word) (d : Fin 10) : countAt (recordOfWords ws).counts d ≤ 65535 := by
  have hfield (w : Word) (lo : Nat) : field w lo 16 ≤ 65535 := Nat.le_of_lt_succ (Nat.mod_lt _ (by decide))
  show (vofList 10 0 _)[d.val] ≤ 65535
  rw [vofList_get _ _ _ _ d.isLt]
  generalize (ws.drop 6).take 5 = l
  rw [List.getD_eq_getElem?_getD]
  cases h : (unpackHalves l)[d.val]? with
  | none => exact Nat.zero_le _
  | some n =>
    obtain ⟨w, -, hn⟩ := List.mem_flatMap.mp (List.mem_of_getElem? h)
    obtain rfl | rfl : n = field w 0 16 ∨ n = field w 16 16 := by simpa using hn
    · exact hfield w 0
    · exact hfield w 16

/-! ### Checks in order -/

/-- `res` is the answer of checks made in order: the reason and detail of the first that fails, if one does (R59). -/
def Judges : List (Prop × Reason × Nat) → Refuse → Prop
  | [], res => res = none
  | (bad, why, detail) :: rest, res => (bad ∧ res = some (why, detail)) ∨ (¬ bad ∧ Judges rest res)

/-- Checks that stand after others matter when those have passed. -/
theorem Judges.append {a b : List (Prop × Reason × Nat)} {x y : Refuse} (ha : Judges a x) (hb : x = none → Judges b y) :
    Judges (a ++ b) (x.or y) := by
  induction a with
  | nil =>
    cases ha
    exact hb rfl
  | cons e rest ih =>
    obtain ⟨hbad, rfl⟩ | ⟨hbad, hrest⟩ := ha
    · exact .inl ⟨hbad, rfl⟩
    · exact .inr ⟨hbad, ih hrest⟩

/-- One check without a detail. -/
theorem judges_refuseIf {b : Bool} {bad : Prop} (why : Reason) (h : b = true ↔ bad) : Judges [(bad, why, 0)] (refuseIf b why) := by
  unfold refuseIf
  split
  · next hb => exact .inl ⟨h.mp hb, rfl⟩
  · next hb => exact .inr ⟨mt h.mpr hb, rfl⟩

/-- One check of each denomination, the lowest first. -/
theorem judges_refuseAt_lowest {test : Fin 10 → Bool} {bad : Fin 10 → Prop} (why : Reason) (h : ∀ d, test d = true ↔ bad d) :
    Judges ((List.finRange 10).map fun d => (bad d, why, d.val)) (refuseAt (lowestDenom test) why) := by
  rw [lowestDenom, denominations_eq]
  generalize List.finRange 10 = l
  induction l with
  | nil => exact rfl
  | cons d rest ih =>
    by_cases hd : test d = true
    · exact .inl ⟨(h d).mp hd, by simp [hd, refuseAt]⟩
    · exact .inr ⟨mt (h d).mpr hd, by simpa [hd] using ih⟩

/-- With no check failing there is no refusal, and only then. -/
theorem Judges.eq_none_iff {checks : List (Prop × Reason × Nat)} {res : Refuse} (h : Judges checks res) :
    res = none ↔ ∀ e ∈ checks, ¬ e.1 := by
  induction checks with
  | nil =>
    cases h
    simp
  | cons e rest ih =>
    obtain ⟨hbad, rfl⟩ | ⟨hbad, hrest⟩ := h
    · simp [hbad]
    · rw [ih hrest, List.forall_mem_cons]
      exact (and_iff_right hbad).symm

/-- Checks that pass leave the answer to those after them. -/
theorem Judges.skip {a b : List (Prop × Reason × Nat)} {res : Refuse} (h : Judges (a ++ b) res) (ha : ∀ e ∈ a, ¬ e.1) :
    Judges b res := by
  induction a with
  | nil => exact h
  | cons e rest ih =>
    obtain ⟨he, -⟩ | ⟨-, hrest⟩ := h
    · exact absurd he (ha _ List.mem_cons_self)
    · exact ih hrest fun e' he' => ha e' (List.mem_cons_of_mem _ he')

/-- The first of the checks gives the answer if it fails. -/
theorem Judges.head {b : List (Prop × Reason × Nat)} {bad : Prop} {why : Reason} {detail : Nat} {res : Refuse}
    (h : Judges ((bad, why, detail) :: b) res) (hbad : bad) : res = some (why, detail) := by
  obtain ⟨-, hres⟩ | ⟨hgood, -⟩ := h
  · exact hres
  · exact absurd hbad hgood

/-- The first of the checks leaves the answer to the others if it passes. -/
theorem Judges.tail {b : List (Prop × Reason × Nat)} {e : Prop × Reason × Nat} {res : Refuse} (h : Judges (e :: b) res)
    (hgood : ¬ e.1) : Judges b res := h.skip (a := [e]) (by simpa using hgood)

/-- Checks of a list, one after the other. -/
theorem firstRefusal_cons (x : Refuse) (rest : List Refuse) : firstRefusal (x :: rest) = x.or (firstRefusal rest) := by
  cases x <;> rfl

/-! ### Stages 1 to 4 -/

/-- The kinds without money, by name (R40). -/
theorem noMoney_iff {k : RecordKind} : k.noMoney = true ↔ k ∈ [.openDrawer, .note, .reopen, .acceptDifference] := by
  cases k <;> decide

/-- The amount-only kinds, by name (R40). -/
theorem amountOnly_iff {k : RecordKind} : k.amountOnly = true ↔ k ∈ [.noncashIn, .noncashOut] := by
  cases k <;> decide

/-- The cash-carrying kinds, by name (R40). -/
theorem cashCarrying_iff {k : RecordKind} : k.cashCarrying = true ↔ k ∈ [.dayOpen, .cashIn, .cashOut, .transfer, .declare] := by
  cases k <;> decide

/-- Stages 1 to 4 as checks in order (R39, R40), whatever words say what each refuses. -/
theorem judges_amountChecks {faces : Vector Nat 10} {k : RecordKind} {r : JRecord} {above uncounted unmatched : Prop} {unused : Fin 10 → Prop}
    (habove : above ↔ 999999999999 < r.amount) (hunused : ∀ d, unused d ↔ countAt faces d = 0 ∧ countAt r.counts d ≠ 0)
    (huncounted : uncounted ↔ (k ∈ [.noncashIn, .noncashOut] ∧ ∃ d, countAt r.counts d ≠ 0) ∨
      (k ∈ [.openDrawer, .note, .reopen, .acceptDifference] ∧ ((∃ d, countAt r.counts d ≠ 0) ∨ r.amount ≠ 0)))
    (hunmatched : unmatched ↔ k ∈ [.dayOpen, .cashIn, .cashOut, .transfer, .declare] ∧
      ((List.finRange 10).map fun d => countAt r.counts d * countAt faces d).sum ≠ r.amount) :
    Judges ((above, .amountRange, 0) :: (((List.finRange 10).map fun d => (unused d, .unusedDenom, d.val)) ++
      [(uncounted, .countsNotAllowed, 0), (unmatched, .denomMismatch, 0)])) (amountChecks faces k r) := by
  have hrange : Judges [(above, .amountRange, 0)] (refuseIf (Config.amountCap < r.amount) .amountRange) :=
    judges_refuseIf _ (by rw [habove, decide_eq_true_iff, Config.amountCap])
  have hused := judges_refuseAt_lowest (test := fun d => countAt r.counts d != 0 && countAt faces d == 0) .unusedDenom
    fun d => show _ ↔ unused d by simp [hunused, and_comm]
  have hallowed : Judges [(uncounted, .countsNotAllowed, 0)] (refuseIf
      ((k.amountOnly && anyCount r.counts) || (k.noMoney && (anyCount r.counts || r.amount != 0))) .countsNotAllowed) :=
    judges_refuseIf _ (by
      simp only [huncounted, Bool.or_eq_true, Bool.and_eq_true, bne_iff_ne, amountOnly_iff, noMoney_iff, anyCount_iff])
  have hmatched : Judges [(unmatched, .denomMismatch, 0)]
      (refuseIf (k.cashCarrying && cashPosition faces r.counts != r.amount) .denomMismatch) :=
    judges_refuseIf _ (by simp only [hunmatched, Bool.and_eq_true, bne_iff_ne, cashCarrying_iff, cashPosition_eq_sum])
  have h := hrange.append fun _ => hused.append fun _ => hallowed.append fun _ => hmatched
  rw [amountChecks, firstRefusal_cons, firstRefusal_cons, firstRefusal_cons, firstRefusal_cons]
  simpa [firstRefusal, unusedDenom] using h

/-- The denominations below one, the one, and those above. -/
theorem finRange_split {n : Nat} (d : Fin n) : ∃ pre post, List.finRange n = pre ++ d :: post ∧ ∀ e ∈ pre, e < d := by
  obtain ⟨pre, post, h⟩ := List.append_of_mem (List.mem_finRange d)
  have hsorted := List.pairwise_lt_finRange n
  rw [h, List.pairwise_append] at hsorted
  obtain ⟨-, -, hbelow⟩ := hsorted
  exact ⟨pre, post, h, fun e he => hbelow e he d List.mem_cons_self⟩

/-- Settles O30: the stages are checks in order. -/
theorem amountStages : Obligations.AmountStages := by
  intro faces k r inRange used sum empty allowed matched
  have hused : (∀ d : Fin 10, ¬ (countAt faces d = 0 ∧ countAt r.counts d ≠ 0)) ↔ used :=
    forall_congr' fun d => by rw [not_and, not_not]
  have hallowed : ((k ∈ [.noncashIn, .noncashOut] ∧ ∃ d, countAt r.counts d ≠ 0) ∨
      (k ∈ [.openDrawer, .note, .reopen, .acceptDifference] ∧ ((∃ d, countAt r.counts d ≠ 0) ∨ r.amount ≠ 0))) ↔ ¬ allowed := by
    rw [iff_not_comm]
    simp only [allowed, empty, not_or, not_and, not_exists, not_not]
  have hmatched : (k ∈ [.dayOpen, .cashIn, .cashOut, .transfer, .declare] ∧ sum ≠ r.amount) ↔ ¬ matched := by
    simp only [matched, Classical.not_imp, ne_eq]
  have hjudges := judges_amountChecks (faces := faces) (k := k) (r := r) not_le (fun d => Iff.rfl) hallowed.symm hmatched.symm
  have hnone : amountChecks faces k r = none ↔ inRange ∧ used ∧ allowed ∧ matched := by
    rw [hjudges.eq_none_iff]
    simp only [List.forall_mem_append, List.forall_mem_cons, List.forall_mem_map, List.not_mem_nil, false_implies, implies_true,
      and_true, List.mem_finRange, true_implies, hused, not_not]
    rfl
  have hstage2 (hrange : inRange) := hjudges.tail (not_not.mpr hrange)
  have hstage3 (hrange : inRange) (hu : used) := (hstage2 hrange).skip (List.forall_mem_map.mpr fun d _ => hused.mpr hu d)
  refine ⟨hnone, hjudges.head, fun d hrange hface hcount hfirst => ?_, fun hrange hu => (hstage3 hrange hu).head,
    fun hrange hu ha => ((hstage3 hrange hu).tail (not_not.mpr ha)).head, fun h => ?_⟩
  · obtain ⟨pre, post, hsplit, hpre⟩ := finRange_split d
    have h := hstage2 hrange
    rw [hsplit, List.map_append, List.append_assoc] at h
    exact (h.skip (List.forall_mem_map.mpr fun e he hbad => hbad.2 (hfirst e (hpre e he) hbad.1))).head ⟨hface, hcount⟩
  · obtain ⟨hrange, hu, -, -⟩ := hnone.mp h
    have hvoid := judges_amountChecks (faces := faces) (k := .void) (r := r) (uncounted := False) (unmatched := False) not_le
      (fun d => Iff.rfl) (by simp) (by simp)
    exact ((((hvoid.tail (not_not.mpr hrange)).skip (List.forall_mem_map.mpr fun d _ => hused.mpr hu d)).tail id).tail id)

end Sys2Proof.Machine
end

section
/-! PROOF. A state that meets the premise on the counts and a step after which they can overflow (O7). -/

namespace Sys2Proof.Machine

/-! ### A posting that reads an original without being a VOID -/

/-- One piece of denomination 0. -/
def onePiece : Vector Nat 10 := countsBy fun d => if d = 0 then 1 else 0

/-- A NONCASH_IN of drawer 0, number 1, with a count that no check of its own would let pass. -/
def countedNoncash : JRecord := { JRecord.blank with seq := 1, code := RecordKind.noncashIn.code, counts := onePiece }

/-- A posting of slot 0 whose words are a CASH_IN's that names record 1, and whose original has been read as for a VOID. -/
def strayPosting : Posting :=
  { slot := 0
    phase := .running
    words := { JRecord.blank with code := RecordKind.cashIn.code, reference := 1 }.words
    orig := countedNoncash.words ++ [stampWord (recordCrc countedNoncash.words) .notPrinted .posted]
    record := .blank }

/-- The host access held for the posting. -/
def strayHost : HostProg :=
  { access := .write 0 [], addr := 0, rest := [], window := some .journal, base := 0, granted := false, phase := .heldOwner (.commit 0) }

/-- The part in READY with the posting running in an open day, drawer 0 full of denomination 0. -/
def strayChip : Chip :=
  { State.reset.chip with
    own := Vector.replicate 9 []
    ap := { ApState.reset 0 with held := false, host := some strayHost }
    su := { SuState.reset with unitState := .ready }
    ju := { JuState.reset with posting := some strayPosting }
    cu := { CuState.reset with
      day := { DayRecord.reset with state := .dayOpen }
      drawers := vput (Vector.replicate 13 .reset) 0
        { Drawer.reset with state := .drawerOpen, counts := countsBy fun d => if d = 0 then 65535 else 0 } } }

/-- The rest of the original is under way, and the store's answer is the next command. -/
def strayState : State :=
  { State.reset with
    chip := strayChip
    arb := { Arbiter.reset with port := .own rJU (.read 0 4 0) (.post .origB) false }
    prompt := false
    pending := [.storeAnswer true] }

/-- The posting's read is the only access under way or waiting. -/
theorem strayState_tags : strayState.tags = [.post .origB] := by decide +kernel

/-- The posting is the one operation that the host is held for. -/
theorem strayState_oneHold : strayState.OneHold where
  posting _ := ⟨⟨0, strayHost, rfl, rfl⟩, rfl, rfl⟩
  submission h := absurd rfl h
  request h := absurd rfl h
  walk h := absurd rfl h
  send h := absurd rfl h
  loading h := nomatch h
  released _ h := nomatch h
  operands _ _ := .inl rfl

/-- Every count is at most 65,535 and the posting makes one access: its record is yet to be judged. -/
theorem strayState_countsBounded : strayState.CountsBounded where
  toOneHold := strayState_oneHold
  counts := by decide +kernel
  declared i x h := by
    rw [show ∀ i, (strayState.chip.drawer i).declared = none by decide +kernel] at h
    cases h
  one := by
    rw [strayState_tags]
    decide
  calm h := by obtain hc | hc := h strayPosting rfl <;> cases hc
  running po hpo _ tag htag _ := by
    rw [strayState_tags, List.mem_singleton] at htag
    exact ⟨.origB, htag, fun hn => absurd (by decide) hn⟩
  handed po hpo h := by
    cases hpo
    cases h
  applying po hpo h := by
    cases hpo
    cases h

/-- The posting with the record it is accepted with: the CASH_IN's kind and the original's counts, check 18 having been made as for
the VOID of a NONCASH_IN, which adds to no drawer. -/
def strayAccepted : Posting :=
  { strayPosting with
    record := { JRecord.blank with
      seq := JuState.reset.nextSeq, code := RecordKind.cashIn.code, reference := 1, counts := onePiece, original := some .noncashIn } }

/-- The answer has the posting accepted (R64). -/
theorem strayState_accepted : (strayState.stall.answer true).chip.ju.posting = some strayAccepted := by decide +kernel

/-- Its first access is asked for. -/
theorem strayState_asked : .post .inPosting ∈ (strayState.stall.answer true).tags := by decide +kernel

/-- The drawer that the record adds to has no room for its count. -/
theorem strayAccepted_overflows : limitCheck (strayState.stall.answer true).chip.cu .cashIn strayAccepted.record = some 0 := by decide +kernel

/-- Refutes O7: `CountsBounded` does not say that a posting which reads an original is a VOID. The record of `strayState` is judged
as one, keeps the kind CASH_IN, and is accepted though it does not fit: the step leaves no state of `CountsBounded`. -/
theorem not_cashStaysBounded : ¬ Obligations.CashStaysBounded := by
  unfold Obligations.CashStaysBounded
  rintro ⟨-, hkeeps⟩
  have hbounded := hkeeps strayState _ strayState_countsBounded rfl
  obtain ⟨st, hst, hfits⟩ := hbounded.running strayAccepted strayState_accepted rfl _ strayState_asked rfl
  cases hst
  obtain ⟨hlimit, -⟩ := hfits (by decide) .cashIn rfl
  exact nomatch strayAccepted_overflows.symm.trans hlimit

end Sys2Proof.Machine
end

section
/-! PROOF. The Amount Formatter digit by digit, and the line and message of a strike (O15). -/

namespace Sys2Proof.Machine

/-! ### Digits -/

/-- The character of the least significant decimal digit. -/
def digitChar (n : Nat) : Byte := BitVec.ofNat 8 (48 + n % 10)

/-- The last digit, then those of the tenth. -/
theorem digitsLow_succ (fuel n : Nat) : digitsLow (fuel + 1) n = digitChar n :: if n < 10 then [] else digitsLow fuel (n / 10) := rfl

/-- More room for digits than there are changes nothing. -/
theorem digitsLow_succ_of_lt {fuel n : Nat} (h : n < 10 ^ (fuel + 1)) : digitsLow (fuel + 2) n = digitsLow (fuel + 1) n := by
  induction fuel generalizing n with
  | zero =>
    have hn : n < 10 := by simpa using h
    rw [digitsLow_succ, if_pos hn, digitsLow_succ, if_pos hn]
  | succ fuel ih =>
    have htenth : n / 10 < 10 ^ (fuel + 1) := by
      rw [Nat.pow_succ] at h
      omega
    rw [digitsLow_succ (fuel + 2), ih htenth, ← digitsLow_succ]

/-- A number of at most 20 digits: its last digit, then those of the tenth. -/
theorem digitsLow_twenty {n : Nat} (h : n < 10 ^ 20) :
    digitsLow 20 n = digitChar n :: if n < 10 then [] else digitsLow 20 (n / 10) := by
  rw [digitsLow_succ]
  split
  · rfl
  · rw [digitsLow_succ_of_lt (fuel := 18) (n := n / 10) (by omega)]

/-- A number below `10 ^ d` has at most `d` digits. -/
theorem length_digitsLow_le {d : Nat} (fuel : Nat) {n : Nat} (h : n < 10 ^ (d + 1)) : (digitsLow fuel n).length ≤ d + 1 := by
  induction d generalizing fuel n with
  | zero =>
    cases fuel with
    | zero => exact Nat.zero_le _
    | succ fuel =>
      rw [digitsLow_succ, if_pos (by simpa using h)]
      exact le_rfl
  | succ d ih =>
    cases fuel with
    | zero => exact Nat.zero_le _
    | succ fuel =>
      rw [digitsLow_succ]
      split
      · simp
      · exact Nat.succ_le_succ (ih fuel (by omega))

/-- There is a digit at least. -/
theorem digitsLow_twenty_ne_nil (n : Nat) : digitsLow 20 n ≠ [] := List.cons_ne_nil _ _

/-- Two fraction digits. -/
theorem fractionDigits_two (m : Nat) : fractionDigits 2 (m % 10 ^ 2) = [digitChar (m / 10), digitChar m] := by
  have h1 : m % 10 ^ 2 / 10 % 10 = m / 10 % 10 := by omega
  have h0 : m % 10 ^ 2 % 10 = m % 10 := by omega
  simp only [fractionDigits, digitChar, h1, h0, List.nil_append, List.cons_append]

/-- Three fraction digits. -/
theorem fractionDigits_three (m : Nat) :
    fractionDigits 3 (m % 10 ^ 3) = [digitChar (m / 100), digitChar (m / 10), digitChar m] := by
  have h2 : m % 10 ^ 3 / 10 / 10 % 10 = m / 100 % 10 := by omega
  have h1 : m % 10 ^ 3 / 10 % 10 = m / 10 % 10 := by omega
  have h0 : m % 10 ^ 3 % 10 = m % 10 := by omega
  simp only [fractionDigits, digitChar, h2, h1, h0, List.nil_append, List.cons_append]

/-! ### Groups -/

/-- A group character stands after the third digit when a fourth follows. -/
theorem groupLow_cons (g a b c : Byte) {rest : List Byte} (h : rest ≠ []) :
    groupLow g (a :: b :: c :: rest) = a :: b :: c :: g :: groupLow g rest := by
  cases rest with
  | nil => exact absurd rfl h
  | cons d rest => rfl

/-- Up to three digits are not grouped. -/
theorem groupLow_of_short {g : Byte} {l : List Byte} (h : l.length ≤ 3) : groupLow g l = l := by
  match l, h with
  | [], _ => rfl
  | [_], _ => rfl
  | [_, _], _ => rfl
  | [_, _, _], _ => rfl

/-- One group character for every three digits before the last three. -/
theorem length_groupLow (g : Byte) (l : List Byte) : (groupLow g l).length = l.length + (l.length - 1) / 3 := by
  match l with
  | [] => rfl
  | [_] => simp [groupLow]
  | [_, _] => simp [groupLow]
  | [_, _, _] => simp [groupLow]
  | a :: b :: c :: d :: rest =>
    show (groupLow g (d :: rest)).length + 1 + 1 + 1 + 1 = _
    rw [length_groupLow g (d :: rest)]
    simp only [List.length_cons]
    omega

/-- The integer part of an amount, least significant character first (R48, R49). -/
def groupedLow (sep n : Nat) : List Byte := match groupChar sep with | some g => groupLow g (digitsLow 20 n) | none => digitsLow 20 n

/-- The integer part with no fraction. -/
theorem amountText_zero (sep m : Nat) : amountText 0 sep m = (groupedLow sep m).reverse := by
  show (groupedLow sep (m / 10 ^ 0)).reverse = _
  rw [Nat.pow_zero, Nat.div_one]

/-- The integer part, the decimal mark and the fraction (R48). -/
theorem amountText_fraction {k : Nat} (sep m : Nat) (h : k ≠ 0) :
    amountText k sep m = amountText 0 sep (m / 10 ^ k) ++ [decimalMark sep] ++ fractionDigits k (m % 10 ^ k) := by
  rw [amountText_zero]
  exact if_neg (by simpa using h)

/-- The integer part of at most 12 digits has at most three group characters. -/
theorem length_groupedLow_le (sep : Nat) {d n : Nat} (h : n < 10 ^ (d + 1)) : (groupedLow sep n).length ≤ d + 1 + d / 3 := by
  have hdigits := length_digitsLow_le 20 h
  unfold groupedLow
  split
  · rw [length_groupLow]
    omega
  · omega

/-- The length of the integer part, in digits below `10 ^ (d + 1)`. -/
theorem length_amountText_zero_le (sep : Nat) {d n : Nat} (h : n < 10 ^ (d + 1)) : (amountText 0 sep n).length ≤ d + 1 + d / 3 := by
  rw [amountText_zero, List.length_reverse]
  exact length_groupedLow_le sep h

/-! ### The clauses of the formatter -/

/-- The integer part without groups, by its last digit. -/
theorem amountText_ungrouped {m : Nat} (h : m < 10 ^ 20) :
    amountText 0 3 m = if m < 10 then [digitChar m] else amountText 0 3 (m / 10) ++ [digitChar m] := by
  rw [amountText_zero, amountText_zero]
  show (digitsLow 20 m).reverse = if m < 10 then [digitChar m] else (digitsLow 20 (m / 10)).reverse ++ [digitChar m]
  rw [digitsLow_twenty h, List.reverse_cons]
  split <;> rfl

/-- The integer part with groups, by its last group (R49). -/
theorem amountText_grouped {m sep : Nat} {g : Byte} (h : m < 10 ^ 20) (hg : groupChar sep = some g) :
    amountText 0 sep m = if m < 1000 then amountText 0 3 m
      else amountText 0 sep (m / 1000) ++ [g, digitChar (m / 100), digitChar (m / 10), digitChar m] := by
  have hlow (n : Nat) : groupedLow sep n = groupLow g (digitsLow 20 n) := by unfold groupedLow; rw [hg]
  rw [amountText_zero, amountText_zero, amountText_zero, hlow, hlow]
  show (groupLow g (digitsLow 20 m)).reverse = ite _ (digitsLow 20 m).reverse _
  split
  · next hm => rw [groupLow_of_short (length_digitsLow_le (d := 2) 20 (by omega))]
  · next hm =>
    have hdigits : digitsLow 20 m = digitChar m :: digitChar (m / 10) :: digitChar (m / 100) :: digitsLow 20 (m / 1000) := by
      rw [digitsLow_twenty h, if_neg (by omega), digitsLow_twenty (by omega : m / 10 < 10 ^ 20), if_neg (by omega),
        digitsLow_twenty (by omega : m / 10 / 10 < 10 ^ 20), if_neg (by omega), Nat.div_div_eq_div_mul, Nat.div_div_eq_div_mul]
    rw [hdigits, groupLow_cons _ _ _ _ (digitsLow_twenty_ne_nil _)]
    simp

/-- The characters of Table 3-4 by SEPARATORS. -/
theorem groupChar_of_separators {sep : Nat} {g : Byte} (h : (sep = 0 ∧ g = 0x2C) ∨ (sep = 1 ∧ g = 0x2E) ∨ (sep = 2 ∧ g = 0x20)) :
    groupChar sep = some g := by
  obtain ⟨rfl, rfl⟩ | ⟨rfl, rfl⟩ | ⟨rfl, rfl⟩ := h <;> decide

theorem decimalMark_of_separators {sep : Nat} (h : sep ≤ 3) : decimalMark sep = if sep = 1 ∨ sep = 2 then 0x2C else 0x2E := by
  interval_cases sep <;> decide

/-- The text of an amount never needs more than 16 characters (R50). -/
theorem length_amountText_le {k : Nat} (hk : k ∈ [0, 2, 3]) (sep : Nat) {m : Nat} (h : m ≤ 999999999999) :
    (amountText k sep m).length ≤ 16 := by
  obtain rfl | rfl | rfl : k = 0 ∨ k = 2 ∨ k = 3 := by simpa using hk
  · exact (length_amountText_zero_le sep (d := 11) (by omega)).trans (by decide)
  · have hlen := length_amountText_zero_le sep (d := 9) (n := m / 10 ^ 2) (by omega)
    rw [amountText_fraction sep m (by decide), fractionDigits_two]
    simp only [List.length_append, List.length_cons, List.length_nil]
    omega
  · have hlen := length_amountText_zero_le sep (d := 8) (n := m / 10 ^ 3) (by omega)
    rw [amountText_fraction sep m (by decide), fractionDigits_three]
    simp only [List.length_append, List.length_cons, List.length_nil]
    omega

/-- An amount fills its 17 characters (R50). -/
theorem length_amountField {k : Nat} (hk : k ∈ [0, 2, 3]) (sep : Nat) {m : Nat} (h : m ≤ 999999999999) (minus : Bool) :
    (amountField k sep m minus).length = 17 := by
  have hlen := length_amountText_le hk sep h
  simp only [amountField, List.length_append, List.length_replicate, List.length_cons, List.length_nil]
  omega

/-! ### The line and the message -/

/-- The passbook's sign (R51), none for an amount of 0 (log 46). -/
theorem JRecord.minus_eq {r : JRecord} {k : RecordKind} (hk : recordKindOfCode r.code = some k) :
    r.minus = decide (r.amount ≠ 0 ∧ (k = .cashOut ∨ k = .noncashOut ∨
      (k = .void ∧ r.original ≠ some .cashOut ∧ r.original ≠ some .noncashOut))) := by
  have hsign : passbookMinus k r.original = decide (k = .cashOut ∨ k = .noncashOut ∨
      (k = .void ∧ r.original ≠ some .cashOut ∧ r.original ≠ some .noncashOut)) := by
    cases k with
    | void =>
      rcases r.original with _ | o
      · rfl
      · cases o <;> rfl
    | _ => rfl
  unfold JRecord.minus
  rw [hk, Bool.decide_and, ← hsign, decide_not]
  rfl

/-- A part of a list replaced by one of the same length. -/
theorem getElem?_replaced {α : Type} {t col : List α} {a n : Nat} (hcol : col.length = n) (ha : a + n ≤ t.length) (x : Nat) :
    (t.take a ++ col ++ t.drop (a + n))[x]? = if a ≤ x ∧ x < a + n then col[x - a]? else t[x]? := by
  have htake : (t.take a).length = a := by rw [List.length_take]; omega
  obtain hx | hx | hx : x < a ∨ (a ≤ x ∧ x < a + n) ∨ a + n ≤ x := by omega
  · rw [if_neg (by omega), List.append_assoc, List.getElem?_append_left (by omega), List.getElem?_take_of_lt hx]
  · rw [if_pos hx, List.append_assoc, List.getElem?_append_right (by omega), List.getElem?_append_left (by omega), htake]
  · rw [if_neg (by omega), List.getElem?_append_right (by rw [List.length_append]; omega), List.getElem?_drop, List.length_append]
    congr 1
    omega

/-- The bytes of words, four each. -/
theorem length_wordsBytes (ws : List Word) : (wordsBytes ws).length = 4 * ws.length := by
  rw [wordsBytes, List.length_flatMap, List.sum_eq_card_nsmul _ 4 (by simp [wordBytes]), List.length_map, smul_eq_mul, mul_comm]

/-- Settles O15: the formatter's digits and groups by recursion on the number, and the lengths that place the column in the line. -/
theorem amountsRendered : Obligations.AmountsRendered := by
  refine ⟨fun m hm => amountText_ungrouped (by omega), fun m sep g hm hg => amountText_grouped (by omega) (groupChar_of_separators hg),
    fun m sep hs => ⟨?_, ?_⟩, fun k hk sep m minus hs hm => ⟨length_amountText_le hk sep hm, rfl⟩, fun c r k hk => ?_,
    fun c n r x hdec hsep hamount htext hcol hx => ⟨?_, ?_⟩, fun line => ?_⟩
  · rw [amountText_fraction sep m (by decide), fractionDigits_two, decimalMark_of_separators hs, List.append_assoc]
    rfl
  · rw [amountText_fraction sep m (by decide), fractionDigits_three, decimalMark_of_separators hs, List.append_assoc]
    rfl
  · rw [← JRecord.minus_eq hk]
    rfl
  · have hcolumn : (c.amountColumn r).length = 17 := length_amountField hdec _ hamount _
    have hbytes : (wordsBytes (c.printer n).text).length = 64 := by rw [length_wordsBytes, htext]
    unfold Chip.composeLine
    dsimp only
    rw [getElem?_replaced hcolumn (by omega)]
    refine if_congr (by omega) rfl rfl
  · have hcolumn : (c.amountColumn r).length = 17 := length_amountField hdec _ hamount _
    have hbytes : (wordsBytes (c.printer n).text).length = 64 := by rw [length_wordsBytes, htext]
    simp only [Chip.composeLine, List.length_append, List.length_take, List.length_drop, hcolumn, hbytes]
    omega
  · have hcrc (n : Nat) : linkBytes 2 n = [BitVec.ofNat 8 n, BitVec.ofNat 8 (n / 256)] := by simp [linkBytes, List.range_succ]
    rw [strikeMessage, hcrc]
    rfl

end Sys2Proof.Machine
end

section
/-! PROOF. Sequence numbers, and the checks on drawer records (O28, O36, O39). -/

namespace Sys2Proof.Machine

/-! ### Sequence numbers -/

/-- One step more (R69). -/
theorem seqPlus_succ (n k : Nat) : seqPlus n (k + 1) = seqAfter (seqPlus n k) := by
  have hsum : n - 1 + (k + 1) = n - 1 + k + 1 := rfl
  unfold seqPlus seqAfter Config.lastSeq
  rw [hsum]
  generalize n - 1 + k = x
  simp only [beq_iff_eq]
  split <;> omega

/-- The distance to the number `k` steps on is `k`, all the way round (R69). -/
theorem seqDistance_seqPlus_of_lt {n k : Nat} (h : 0 < n) (hn : n ≤ 4294967295) (hk : k < 4294967295) : seqDistance n (seqPlus n k) = k := by
  unfold seqDistance seqPlus Config.lastSeq Config.wordModulus
  split <;> omega

/-- Consecutive numbers, no more than the capacity, have different slots (R64). -/
theorem ringSlot_ne {n j k cap : Nat} (hn : 0 < n) (hj : j < k) (hk : k < cap) : ringSlot (n + j) cap ≠ ringSlot (n + k) cap := by
  intro h
  have hmod : (n + j - 1) ≡ (n + k - 1) [MOD cap] := h
  have hdvd : cap ∣ (n + k - 1) - (n + j - 1) := (Nat.modEq_iff_dvd' (by omega)).mp hmod
  have hle := Nat.le_of_dvd (by omega) hdvd
  omega

/-- Whether a number is one of the day's: 0 is none of them (R69, log 16). -/
theorem seqInDay_iff {first next x : Nat} : seqInDay first next x = true ↔ x ≠ 0 ∧ seqDistance first x < seqDistance first next := by
  simp [seqInDay]

/-- The slot the next number would take holds one of the day's (R69). -/
theorem slotTaken_iff {first next cap : Nat} : slotTaken first next cap = true ↔
    ∃ k < seqDistance first next, (next - 1) % cap = (seqPlus first k - 1) % cap := by
  simp only [slotTaken, ringSlot, List.any_eq_true, List.mem_range, beq_iff_eq]
  exact exists_congr fun k => and_congr_right fun _ => eq_comm

/-! ### Record kinds -/

/-- A code names the kind whose code it is. -/
theorem recordKindOfCode_eq_some {n : Nat} {k : RecordKind} : recordKindOfCode n = some k ↔ n = k.code := by
  constructor
  · intro h
    unfold recordKindOfCode at h
    split at h <;> cases h <;> rfl
  · rintro rfl
    cases k <;> rfl

/-- The codes that name no kind. -/
theorem recordKindOfCode_eq_none {n : Nat} : recordKindOfCode n = none ↔ n = 0 ∨ 12 < n := by
  by_cases h : n < 13
  · interval_cases n <;> simp [recordKindOfCode]
  · obtain ⟨m, rfl⟩ := Nat.exists_eq_add_of_le' (not_lt.mp h)
    exact iff_of_true rfl (by omega)

/-! ### Drawer records by index -/

/-- The state of a drawer record by its index. -/
theorem CuState.stateOf_fin (cu : CuState) (x : Fin 13) : cu.stateOf x.val = some cu.drawers[x.val].state := by
  simp [CuState.stateOf]

/-- There is no state above the RESERVE. -/
theorem CuState.stateOf_above (cu : CuState) {i : Nat} (h : 13 ≤ i) : cu.stateOf i = none := by
  simp [CuState.stateOf, h]

/-- The counts of a drawer record by its index. -/
theorem CuState.countsOf_fin (cu : CuState) (x : Fin 13) : cu.countsOf x.val = cu.drawers[x.val].counts := by
  simp [CuState.countsOf]

/-- There are no counts above the RESERVE. -/
theorem CuState.countsOf_above (cu : CuState) {i : Nat} (h : 13 ≤ i) : cu.countsOf i = zeroCounts := by
  simp [CuState.countsOf, h]

/-- A drawer record's state is one of those needed. -/
theorem CuState.stateIn_iff (cu : CuState) (i : Nat) (ok : List DrawerState) :
    stateIn (cu.stateOf i) ok = true ↔ ¬ ∀ x : Fin 13, x.val = i → cu.drawers[x.val].state ∉ ok := by
  by_cases h : i < 13
  · rw [cu.stateOf_fin ⟨i, h⟩]
    simp only [stateIn, List.contains_iff_mem]
    constructor
    · exact fun hin hall => hall ⟨i, h⟩ rfl hin
    · intro hn
      by_contra hout
      refine hn fun x hx => ?_
      subst hx
      exact hout
  · rw [cu.stateOf_above (by omega)]
    refine iff_of_false Bool.false_ne_true (not_not.mpr fun x hx => ?_)
    omega

/-- Counts above the limit of a drawer record found by its index (R41). -/
theorem CuState.above_iff (cu : CuState) (i : Nat) {n : Nat} (hn : n ≤ 65535) (d : Fin 10) :
    65535 < countAt (cu.countsOf i) d + n ↔ ∃ x : Fin 13, x.val = i ∧ 65535 < countAt cu.drawers[x.val].counts d + n := by
  by_cases h : i < 13
  · rw [cu.countsOf_fin ⟨i, h⟩]
    constructor
    · exact fun hlt => ⟨⟨i, h⟩, rfl, hlt⟩
    · rintro ⟨x, rfl, hlt⟩
      exact hlt
  · rw [cu.countsOf_above (by omega), countAt_zeroCounts]
    exact iff_of_false (by omega) fun ⟨x, hx, _⟩ => by omega

/-! ### More on checks in order -/

/-- Checks that all pass. -/
theorem judges_of_good {checks : List (Prop × Reason × Nat)} (h : ∀ e ∈ checks, ¬ e.1) : Judges checks none := by
  induction checks with
  | nil => rfl
  | cons e rest ih => exact .inr ⟨h e List.mem_cons_self, ih fun e' he' => h e' (List.mem_cons_of_mem _ he')⟩

/-- Checks made in one case alone. -/
theorem Judges.when {checks : List (Prop × Reason × Nat)} {res : Refuse} {p : Prop} [Decidable p] (h : p → Judges checks res) :
    Judges (checks.map fun e => (p ∧ e.1, e.2)) (if p then res else none) := by
  split
  · next hp =>
    have hsame : (checks.map fun e => (p ∧ e.1, e.2)) = checks := by simp [hp]
    rw [hsame]
    exact h hp
  · next hp =>
    refine judges_of_good fun e he => ?_
    obtain ⟨e, -, rfl⟩ := List.mem_map.mp he
    exact fun hc => hp hc.1

/-- Checks that refuse with the same reason and no detail. -/
theorem judges_refuseIf_of_same {checks : List (Prop × Reason × Nat)} {b : Bool} {why : Reason}
    (hsame : ∀ e ∈ checks, e.1 → e.2 = (why, 0)) (hb : b = true ↔ ∃ e ∈ checks, e.1) : Judges checks (refuseIf b why) := by
  induction checks generalizing b with
  | nil =>
    have hfalse : b = false := by simpa using hb
    rw [hfalse]
    rfl
  | cons e rest ih =>
    obtain ⟨bad, reason, detail⟩ := e
    by_cases hbad : bad
    · have htrue : b = true := hb.mpr ⟨_, List.mem_cons_self, hbad⟩
      have hreason := hsame _ List.mem_cons_self hbad
      rw [htrue]
      exact .inl ⟨hbad, congrArg some hreason.symm⟩
    · refine .inr ⟨hbad, ih (fun e he => hsame e (List.mem_cons_of_mem _ he)) (hb.trans ?_)⟩
      rw [List.exists_mem_cons_iff]
      exact or_iff_right hbad

/-- The first check that fails gives the answer. -/
theorem Judges.eq_some {checks : List (Prop × Reason × Nat)} {res : Refuse} (h : Judges checks res) {n : Nat} {bad : Prop} {why : Reason}
    {detail : Nat} (hn : checks[n]? = some (bad, why, detail)) (hbad : bad) (hbefore : ∀ m < n, ∀ e, checks[m]? = some e → ¬ e.1) :
    res = some (why, detail) := by
  obtain ⟨hlt, hget⟩ := List.getElem?_eq_some_iff.mp hn
  rw [← List.take_append_drop n checks, List.drop_eq_getElem_cons hlt, hget] at h
  refine (h.skip fun e he => ?_).head hbad
  obtain ⟨m, hm⟩ := List.mem_iff_getElem?.mp he
  rw [List.getElem?_take] at hm
  split at hm
  · next hlt => exact hbefore m hlt e hm
  · cases hm

/-- A drawer record of a list whose state is wrong (checks 11 and 16). -/
theorem judges_firstWrong (cu : CuState) (ok : List DrawerState) (l : List Nat) :
    Judges (l.map fun i => (∀ x : Fin 13, x.val = i → cu.drawers[x.val].state ∉ ok, Reason.drawerState, i))
      (refuseAt (firstWrong cu ok l) .drawerState) := by
  induction l with
  | nil => rfl
  | cons i rest ih =>
    have hin := cu.stateIn_iff i ok
    unfold firstWrong
    split
    · next h => exact .inr ⟨hin.mp h, ih⟩
    · next h => exact .inl ⟨not_not.mp (mt hin.mpr h), rfl⟩

end Sys2Proof.Machine
end

section
/-! PROOF. The checks of a posting in order (O28). -/

namespace Sys2Proof.Machine

/-! ### The verdict -/

/-- The answer of the checks made on a record as read from its slot: 1 to 5, then those of its kind, a VOID's being whether its
reference is one of the day's numbers (Table 4-4). -/
def Chip.slotVerdict (c : Chip) (slot : Fin 13) (r : JRecord) : Refuse :=
  (c.firstChecks slot r.code).or
    (match recordKindOfCode r.code with
      | none => none
      | some .void => refuseIf (!c.inDay r.reference) .voidRef
      | some k => c.recordChecks k slot r)

/-- The first checks let codes of the twelve kinds alone pass. -/
theorem Chip.kind_of_firstChecks {c : Chip} {slot : Fin 13} {code : Nat} (h : c.firstChecks slot code = none) :
    ∃ k, recordKindOfCode code = some k := by
  cases hk : recordKindOfCode code with
  | some k => exact ⟨k, rfl⟩
  | none =>
    simp only [Chip.firstChecks, firstRefusal_cons, Option.or_eq_none_iff, hk] at h
    obtain ⟨-, -, h, -⟩ := h
    cases h

/-- A record with a refusal against it is refused. -/
theorem Chip.validate_of_refused {c : Chip} {po : Posting} {why : Reason} {detail : Nat}
    (h : c.slotVerdict po.slot (recordOfWords po.words) = some (why, detail)) : c.validate po = c.refusePosting po.slot why detail := by
  unfold Chip.slotVerdict at h
  unfold Chip.validate
  dsimp only
  cases hf : c.firstChecks po.slot (recordOfWords po.words).code with
  | some e =>
    rw [hf] at h
    cases h
    rfl
  | none =>
    obtain ⟨k, hk⟩ := Chip.kind_of_firstChecks hf
    rw [hf, hk, Option.none_or] at h
    rw [hk]
    cases k with
    | void =>
      dsimp only at h ⊢
      unfold refuseIf at h
      split at h
      · next hin =>
        cases h
        rw [if_neg (by simpa using hin)]
      · cases h
    | _ =>
      dsimp only at h ⊢
      rw [h]

/-- A VOID with none has its original read (R71). -/
theorem Chip.validate_of_void {c : Chip} {po : Posting} (hk : recordKindOfCode (recordOfWords po.words).code = some .void)
    (h : c.slotVerdict po.slot (recordOfWords po.words) = none) :
    c.validate po = c.post (.read (c.ringAddr (recordOfWords po.words).reference 0) 4 8) .origA := by
  unfold Chip.slotVerdict at h
  unfold Chip.validate
  dsimp only
  rw [hk, Option.or_eq_none_iff] at h
  obtain ⟨hf, h⟩ := h
  dsimp only at h
  rw [hf, hk]
  dsimp only
  unfold refuseIf at h
  split at h
  · cases h
  · next hin => rw [if_pos (by simpa using hin)]

/-- Any other record with none is accepted. -/
theorem Chip.validate_of_kind {c : Chip} {po : Posting} {k : RecordKind} (hk : recordKindOfCode (recordOfWords po.words).code = some k)
    (hvoid : k ≠ .void) (h : c.slotVerdict po.slot (recordOfWords po.words) = none) :
    c.validate po = c.acceptPosting po k (recordOfWords po.words) := by
  unfold Chip.slotVerdict at h
  unfold Chip.validate
  dsimp only
  rw [hk, Option.or_eq_none_iff] at h
  obtain ⟨hf, h⟩ := h
  rw [hf, hk]
  cases k with
  | void => exact absurd rfl hvoid
  | _ =>
    dsimp only at h ⊢
    rw [h]

/-! ### Checks 1 to 5 -/

/-- Checks 1 to 5 of a record of a code, in the order of Table 4-4, with their reasons and details, the day not frozen. -/
def Chip.earlyChecks (c : Chip) (slot : Fin 13) (code : Nat) : List (Prop × Reason × Nat) :=
  [(c.su.unitState = .rebuilding, .notReady, 0),
    (if c.cu.day.state = .noDay then code ≠ 1 else code = 1 ∨ c.cu.day.damaged = true ∨ c.cu.damage ≠ [], .dayState, 0),
    (code = 0 ∨ 12 < code, .badKind, 0),
    ((code ∈ [1, 10, 11] ∧ slot ≠ 12) ∨ (code = 2 ∧ slot = 12), .wrongSlot, 0),
    (c.cu.day.recordCount = c.capacity ∨ ∃ k < seqDistance c.cu.day.first c.ju.nextSeq,
      (c.ju.nextSeq - 1) % c.capacity = (seqPlus c.cu.day.first k - 1) % c.capacity, .journalFull, 0)]

/-- Checks 1 to 5 in order (R58, R60, R69). -/
theorem Chip.judges_firstChecks {c : Chip} {slot : Fin 13} {code : Nat} (hday : c.cu.day.state.frozen = false) :
    Judges (c.earlyChecks slot code) (c.firstChecks slot code) := by
  have hready : Judges [(c.su.unitState = .rebuilding, .notReady, 0)] (refuseIf (c.su.unitState == .rebuilding) .notReady) :=
    judges_refuseIf _ beq_iff_eq
  have hstate : Judges [(if c.cu.day.state = .noDay then code ≠ 1 else code = 1 ∨ c.cu.day.damaged = true ∨ c.cu.damage ≠ [],
      Reason.dayState, 0)] (dayStateCheck c.cu code) := by
    unfold dayStateCheck
    refine judges_refuseIf _ ?_
    cases hs : c.cu.day.state with
    | noDay => simp
    | dayOpen => simp [or_assoc]
    | _ => rw [hs] at hday; cases hday
  have hkind : Judges [(code = 0 ∨ 12 < code, .badKind, 0)] (refuseIf (recordKindOfCode code).isNone .badKind) :=
    judges_refuseIf _ (by rw [Option.isNone_iff_eq_none, recordKindOfCode_eq_none])
  have hslot (hk : refuseIf (recordKindOfCode code).isNone .badKind = none) :
      Judges [((code ∈ [1, 10, 11] ∧ slot ≠ 12) ∨ (code = 2 ∧ slot = 12), .wrongSlot, 0)]
        (refuseIf (match recordKindOfCode code with | some k => !slotAllows k slot.val | none => true) .wrongSlot) := by
    refine judges_refuseIf _ ?_
    cases hc : recordKindOfCode code with
    | none => rw [hc] at hk; cases hk
    | some k =>
      rw [recordKindOfCode_eq_some] at hc
      subst hc
      revert slot
      cases k <;> decide
  have hfull : Judges [(c.cu.day.recordCount = c.capacity ∨ ∃ k < seqDistance c.cu.day.first c.ju.nextSeq,
      (c.ju.nextSeq - 1) % c.capacity = (seqPlus c.cu.day.first k - 1) % c.capacity, .journalFull, 0)]
      (refuseIf (c.cu.day.recordCount == c.capacity || slotTaken c.cu.day.first c.ju.nextSeq c.capacity) .journalFull) :=
    judges_refuseIf _ (by rw [Bool.or_eq_true, beq_iff_eq, slotTaken_iff])
  have h := hready.append fun _ => hstate.append fun _ => hkind.append fun hk => (hslot hk).append fun _ => hfull
  simp only [Chip.firstChecks, firstRefusal_cons, firstRefusal, Option.or_none]
  exact h

/-! ### Checks 10 to 18 -/

/-- Check 10 (R60). -/
theorem judges_targetCheck {k : RecordKind} {slot : Fin 13} {target : Nat} (ht : target < 65536) :
    Judges [((k.code = 7 ∧ (12 < target ∨ target = slot.val)) ∨ (k.code = 10 ∧ 12 < target) ∨ (k.code = 11 ∧ 11 < target),
      .badTarget, target)] (targetCheck k slot target) := by
  have hbad : targetCheck k slot target =
      if (k.code = 7 ∧ (12 < target ∨ target = slot.val)) ∨ (k.code = 10 ∧ 12 < target) ∨ (k.code = 11 ∧ 11 < target)
      then some (.badTarget, target) else none := by
    unfold targetCheck
    rw [Nat.mod_eq_of_lt ht]
    cases k <;> simp [RecordKind.code]
  rw [hbad]
  split
  · next h => exact .inl ⟨h, rfl⟩
  · next h => exact .inr ⟨h, rfl⟩

/-- Checks 12 and 13 (R62). -/
theorem judges_dateChecks {d : DayRecord} {k : RecordKind} {v : Nat} :
    Judges [(k.code = 1 ∧ ¬ (1 ≤ v / 10000 ∧ v / 10000 ≤ 9999 ∧ 1 ≤ v / 100 % 100 ∧ v / 100 % 100 ≤ 12 ∧ 1 ≤ v % 100 ∧ v % 100 ≤ 31),
        .badDate, 0),
      (k.code = 1 ∧ d.previousDate ≠ 0 ∧ v ≤ d.previousDate, .dateNotAfter, 0)] (dateChecks d k v) := by
  have hdate : Judges [(¬ (1 ≤ v / 10000 ∧ v / 10000 ≤ 9999 ∧ 1 ≤ v / 100 % 100 ∧ v / 100 % 100 ≤ 12 ∧ 1 ≤ v % 100 ∧ v % 100 ≤ 31),
      .badDate, 0)] (refuseIf (badDate v) .badDate) := by
    refine judges_refuseIf _ ?_
    simp only [badDate, Bool.or_eq_true, beq_iff_eq, decide_eq_true_iff]
    omega
  have hafter : Judges [(d.previousDate ≠ 0 ∧ v ≤ d.previousDate, .dateNotAfter, 0)]
      (refuseIf (d.previousDate != 0 && v ≤ d.previousDate) .dateNotAfter) := judges_refuseIf _ (by simp)
  have h := Judges.when (p := k.code = 1) fun _ => hdate.append fun _ => hafter
  have hif : (k == .dayOpen) = true ↔ k.code = 1 := by cases k <;> decide
  simpa only [dateChecks, hif, firstRefusal_cons, firstRefusal, Option.or_none, List.cons_append, List.nil_append, List.map_cons,
    List.map_nil] using h

/-- Check 11 (Table 4-5): each kind's drawers in the states it needs. -/
theorem judges_wrongState (cu : CuState) {k : RecordKind} (hk : k ≠ .void) (slot target : Nat) :
    let notIn (i : Nat) (ok : List DrawerState) : Prop := ∀ x : Fin 13, x.val = i → cu.drawers[x.val].state ∉ ok
    Judges [(k.code = 2 ∧ notIn slot [.unused], .drawerState, slot),
      (k.code ∈ [3, 4, 5, 6, 7] ∧ notIn slot [.drawerOpen], .drawerState, slot),
      (k.code = 7 ∧ notIn target [.drawerOpen], .drawerState, target),
      (k.code = 9 ∧ notIn slot [.drawerOpen, .difference], .drawerState, slot),
      (k.code = 10 ∧ notIn target [.difference], .drawerState, target),
      (k.code = 11 ∧ notIn target [.balanced], .drawerState, target)]
      (refuseAt (wrongState cu k none slot target) .drawerState) := by
  intro notIn
  have one (p : Prop) [Decidable p] (ok : List DrawerState) (i : Nat) :
      Judges [(p ∧ notIn i ok, .drawerState, i)] (if p then refuseAt (firstWrong cu ok [i]) .drawerState else none) :=
    Judges.when fun _ => judges_firstWrong cu ok [i]
  have h := (one (k.code = 2) [.unused] slot).append fun _ => (one (k.code ∈ [3, 4, 5, 6, 7]) [.drawerOpen] slot).append fun _ =>
    (one (k.code = 7) [.drawerOpen] target).append fun _ => (one (k.code = 9) [.drawerOpen, .difference] slot).append fun _ =>
      (one (k.code = 10) [.difference] target).append fun _ => one (k.code = 11) [.balanced] target
  have htwo (ok : List DrawerState) (i j : Nat) : refuseAt (firstWrong cu ok [i, j]) .drawerState =
      (refuseAt (firstWrong cu ok [i]) .drawerState).or (refuseAt (firstWrong cu ok [j]) .drawerState) := by
    by_cases hi : stateIn (cu.stateOf i) ok = true <;> simp [firstWrong, refuseAt, hi]
  have hkind : refuseAt (wrongState cu k none slot target) .drawerState =
      (if k.code = 2 then refuseAt (firstWrong cu [.unused] [slot]) .drawerState else none).or
        ((if k.code ∈ [3, 4, 5, 6, 7] then refuseAt (firstWrong cu [.drawerOpen] [slot]) .drawerState else none).or
        ((if k.code = 7 then refuseAt (firstWrong cu [.drawerOpen] [target]) .drawerState else none).or
        ((if k.code = 9 then refuseAt (firstWrong cu [.drawerOpen, .difference] [slot]) .drawerState else none).or
        ((if k.code = 10 then refuseAt (firstWrong cu [.difference] [target]) .drawerState else none).or
        (if k.code = 11 then refuseAt (firstWrong cu [.balanced] [target]) .drawerState else none))))) := by
    have hnone : refuseAt none .drawerState = none := rfl
    cases k <;> simp [RecordKind.code, wrongState, htwo, hnone] at hk ⊢
  rw [hkind]
  exact h

/-- Check 17 (R41): a count that would fall below 0, in the drawer that counts are removed from. -/
theorem judges_shortCheck {cu : CuState} {k : RecordKind} {r : JRecord} {p : Prop} [Decidable p] {i : Nat}
    (h : removedFrom k r.original r.position r.target = if p then some i else none) {bad : Fin 10 → Prop}
    (hbad : p → ∀ d, countAt (cu.countsOf i) d < countAt r.counts d ↔ bad d) :
    Judges ((List.finRange 10).map fun d => (p ∧ bad d, .shortDenom, d.val)) (refuseAt (shortCheck cu k r) .shortDenom) := by
  have hwhen := Judges.when (p := p) fun hp => judges_refuseAt_lowest (test := fun d => countAt (cu.countsOf i) d < countAt r.counts d)
    .shortDenom fun d => decide_eq_true_iff.trans (hbad hp d)
  rw [List.map_map] at hwhen
  have hres : refuseAt (shortCheck cu k r) .shortDenom =
      if p then refuseAt (lowestDenom fun d => countAt (cu.countsOf i) d < countAt r.counts d) .shortDenom else none := by
    rw [shortCheck, h]
    split <;> rfl
  rw [hres]
  exact hwhen

/-- Check 18 (R41): a count that would rise above 65,535, in the drawer that counts are added to. -/
theorem judges_limitCheck {cu : CuState} {k : RecordKind} {r : JRecord} {p : Prop} [Decidable p] {i : Nat}
    (h : addedTo k r.original r.position r.target = if p then some i else none) {bad : Fin 10 → Prop}
    (hbad : p → ∀ d, 65535 < countAt (cu.countsOf i) d + countAt r.counts d ↔ bad d) :
    Judges ((List.finRange 10).map fun d => (p ∧ bad d, .countLimit, d.val)) (refuseAt (limitCheck cu k r) .countLimit) := by
  have hwhen := Judges.when (p := p) fun hp => judges_refuseAt_lowest
    (test := fun d => 65535 < countAt (cu.countsOf i) d + countAt r.counts d) .countLimit fun d => decide_eq_true_iff.trans (hbad hp d)
  rw [List.map_map] at hwhen
  have hres : refuseAt (limitCheck cu k r) .countLimit =
      if p then refuseAt (lowestDenom fun d => 65535 < countAt (cu.countsOf i) d + countAt r.counts d) .countLimit else none := by
    rw [limitCheck, h]
    split <;> rfl
  rw [hres]
  exact hwhen

/-- The target of a record as read is a field of sixteen bits (Table 12-6). -/
theorem target_recordOfWords (ws : List Word) : (recordOfWords ws).target < 65536 := Nat.mod_lt _ (by decide)

/-! ### The checks of the slot's record -/

/-- Checks 6 to 18 of a record read from its slot, a VOID's being whether it refers to one of the day's numbers, in the order of
Table 4-4, with their reasons and details. -/
def Chip.laterChecks (c : Chip) (slot : Fin 13) (r : JRecord) : List (Prop × Reason × Nat) :=
  let number (x : Nat) := x ≠ 0 ∧ seqDistance c.cu.day.first x < seqDistance c.cu.day.first c.ju.nextSeq
  let notIn (i : Nat) (ok : List DrawerState) : Prop := ∀ x : Fin 13, x.val = i → (c.drawer x).state ∉ ok
  let each (f : Fin 10 → Prop) (why : Reason) : List (Prop × Reason × Nat) := (List.finRange 10).map fun d => (f d, why, d.val)
  let some' := ∃ d : Fin 10, countAt r.counts d ≠ 0
  let sum := ((List.finRange 10).map fun d => countAt r.counts d * countAt c.faces d).sum
  let v := r.reference
  [(r.code ≠ 8 ∧ 999999999999 < r.amount, .amountRange, 0)]
  ++ each (fun d => r.code ≠ 8 ∧ countAt c.faces d = 0 ∧ countAt r.counts d ≠ 0) .unusedDenom
  ++ [((r.code ∈ [5, 6] ∧ some') ∨ (r.code ∈ [2, 10, 11, 12] ∧ (some' ∨ r.amount ≠ 0)), .countsNotAllowed, 0),
    (r.code ∈ [1, 3, 4, 7, 9] ∧ sum ≠ r.amount, .denomMismatch, 0),
    ((r.code = 7 ∧ (12 < r.target ∨ r.target = slot.val)) ∨ (r.code = 10 ∧ 12 < r.target) ∨ (r.code = 11 ∧ 11 < r.target),
      .badTarget, r.target),
    (r.code = 2 ∧ notIn slot.val [.unused], .drawerState, slot.val),
    (r.code ∈ [3, 4, 5, 6, 7] ∧ notIn slot.val [.drawerOpen], .drawerState, slot.val),
    (r.code = 7 ∧ notIn r.target [.drawerOpen], .drawerState, r.target),
    (r.code = 9 ∧ notIn slot.val [.drawerOpen, .difference], .drawerState, slot.val),
    (r.code = 10 ∧ notIn r.target [.difference], .drawerState, r.target),
    (r.code = 11 ∧ notIn r.target [.balanced], .drawerState, r.target),
    (r.code = 1 ∧ ¬ (1 ≤ v / 10000 ∧ v / 10000 ≤ 9999 ∧ 1 ≤ v / 100 % 100 ∧ v / 100 % 100 ≤ 12 ∧ 1 ≤ v % 100 ∧ v % 100 ≤ 31),
      .badDate, 0),
    (r.code = 1 ∧ c.cu.day.previousDate ≠ 0 ∧ v ≤ c.cu.day.previousDate, .dateNotAfter, 0),
    (r.code = 8 ∧ ¬ number v, .voidRef, 0)]
  ++ each (fun d => r.code ∈ [4, 7] ∧ countAt (c.drawer slot).counts d < countAt r.counts d) .shortDenom
  ++ each (fun d => r.code ∈ [3, 7] ∧ ∃ x : Fin 13, x.val = (if r.code = 7 then r.target else slot.val) ∧
      65535 < countAt (c.drawer x).counts d + countAt r.counts d) .countLimit

/-- Checks 6 to 18 of a record as read that is not a VOID. -/
theorem Chip.judges_recordChecks {c : Chip} {slot : Fin 13} {k : RecordKind} (ws : List Word) (hcode : (recordOfWords ws).code = k.code)
    (hk : k ≠ .void) : Judges (c.laterChecks slot (recordOfWords ws)) (c.recordChecks k slot (recordOfWords ws)) := by
  generalize hr : recordOfWords ws = r at hcode
  have htarget : r.target < 65536 := hr ▸ target_recordOfWords ws
  have hcounts (d : Fin 10) : countAt r.counts d ≤ 65535 := hr ▸ countAt_recordOfWords ws d
  have hnot8 : k.code ≠ 8 := by cases k <;> simp [RecordKind.code] at hk ⊢
  have hamount := judges_amountChecks (faces := c.faces) (k := k) (r := r) (above := k.code ≠ 8 ∧ 999999999999 < r.amount)
    (unused := fun d => k.code ≠ 8 ∧ countAt c.faces d = 0 ∧ countAt r.counts d ≠ 0)
    (uncounted := (k.code ∈ [5, 6] ∧ ∃ d, countAt r.counts d ≠ 0) ∨
      (k.code ∈ [2, 10, 11, 12] ∧ ((∃ d, countAt r.counts d ≠ 0) ∨ r.amount ≠ 0)))
    (unmatched := k.code ∈ [1, 3, 4, 7, 9] ∧ ((List.finRange 10).map fun d => countAt r.counts d * countAt c.faces d).sum ≠ r.amount)
    (and_iff_right hnot8) (fun d => and_iff_right hnot8) (by cases k <;> simp [RecordKind.code]) (by cases k <;> simp [RecordKind.code])
  have htargets := judges_targetCheck (k := k) (slot := slot) htarget
  have hstates := judges_wrongState c.cu hk slot.val r.target
  have hdates := judges_dateChecks (d := c.cu.day) (k := k) (v := r.reference)
  have hvoid : Judges [(k.code = 8 ∧ ¬ (r.reference ≠ 0 ∧
      seqDistance c.cu.day.first r.reference < seqDistance c.cu.day.first c.ju.nextSeq), .voidRef, 0)] none :=
    judges_of_good (by simp [hnot8])
  have hshort := judges_shortCheck (cu := c.cu) (k := k) (r := { r with position := slot.val }) (p := k.code ∈ [4, 7]) (i := slot.val)
    (bad := fun d => countAt c.cu.drawers[slot.val].counts d < countAt r.counts d)
    (by cases k <;> simp [removedFrom, RecordKind.code] at hk ⊢) fun _ d => by rw [CuState.countsOf_fin]
  have hlimit := judges_limitCheck (cu := c.cu) (k := k) (r := { r with position := slot.val }) (p := k.code ∈ [3, 7])
    (i := if k.code = 7 then r.target else slot.val) (by cases k <;> simp [addedTo, RecordKind.code] at hk ⊢)
    fun _ d => c.cu.above_iff _ (hcounts d) d
  have h := hamount.append fun _ => htargets.append fun _ => hstates.append fun _ => hdates.append fun _ => hvoid.append fun _ =>
    hshort.append fun _ => hlimit
  simp only [Chip.laterChecks, hcode, Chip.recordChecks, firstRefusal_cons, firstRefusal, Option.or_none]
  simp only [List.append_assoc, List.cons_append, List.nil_append] at h ⊢
  exact h

/-- Of a VOID as read the only one of them is whether it refers to one of the day's numbers (R71). -/
theorem Chip.judges_voidRef {c : Chip} {slot : Fin 13} {r : JRecord} (hcode : r.code = 8) :
    Judges (c.laterChecks slot r) (refuseIf (!c.inDay r.reference) .voidRef) := by
  refine judges_refuseIf_of_same ?_ ?_
  · simp only [Chip.laterChecks, hcode, List.forall_mem_append, List.forall_mem_cons, List.forall_mem_map]
    simp
  · rw [Bool.not_eq_true', ← Bool.not_eq_true, Chip.inDay, seqInDay_iff]
    simp [Chip.laterChecks, hcode, or_and_right, exists_or]

end Sys2Proof.Machine
end

section
/-! PROOF. The checks of a VOID on its original, and the answers to a posting's reads (O28). -/

namespace Sys2Proof.Machine

/-! ### A VOID's original -/

/-- The codes of the kinds that may be voided (R71). -/
theorem RecordKind.voidable_iff {k : RecordKind} : k.voidable = true ↔ k.code ∈ [3, 4, 5, 6, 7] := by cases k <;> decide

/-- Check 14, on the original as read (R71). -/
theorem Chip.voidRefBad_iff {c : Chip} {slot : Fin 13} {ref : Nat} {orig : List Word} : c.voidRefBad slot ref orig = true ↔
    (recordOfWords orig).seq ≠ ref ∨ recordCrc orig ≠ stampCrc (wordAt orig 11) ∨ stampStatus (wordAt orig 11) ≠ .posted ∨
      ref ∈ c.ju.unstamped ∨ (recordOfWords orig).code ∉ [3, 4, 5, 6, 7] ∨ (recordOfWords orig).position ≠ slot.val := by
  have hvoidable : (match recordKindOfCode (recordOfWords orig).code with | some k => k.voidable | none => false) = false ↔
      (recordOfWords orig).code ∉ [3, 4, 5, 6, 7] := by
    cases hk : recordKindOfCode (recordOfWords orig).code with
    | none =>
      rw [recordKindOfCode_eq_none] at hk
      exact iff_of_true rfl (by simp; omega)
    | some k =>
      rw [recordKindOfCode_eq_some] at hk
      rw [hk, ← RecordKind.voidable_iff, Bool.not_eq_true]
  simp only [Chip.voidRefBad, Bool.or_eq_true, bne_iff_ne, List.contains_iff_mem, Bool.not_eq_true', or_assoc]
  exact or_congr_right (or_congr_right (or_congr_right (or_congr_right (or_congr_left hvoidable))))

/-- Check 15 (R72). -/
theorem Chip.printPending_iff_exists {c : Chip} {seq : Nat} : c.printPending seq = true ↔
    ∃ n : Fin 4, (∃ e ∈ (c.printer n).queue, e.seq = seq) ∨ ∃ x, (c.printer n).service = some x ∧ x.entry.seq = seq := by
  have hall (n : Fin 4) : n ∈ printers := by revert n; decide
  rw [Chip.printPending, List.any_eq_true]
  refine exists_congr fun n => (and_iff_right (hall n)).trans ?_
  rw [Bool.or_eq_true, List.any_eq_true]
  refine or_congr (exists_congr fun e => and_congr_right fun _ => beq_iff_eq) ?_
  show _ ↔ ∃ x, c.pru.printers[n.val].service = some x ∧ x.entry.seq = seq
  cases c.pru.printers[n.val].service <;> simp

/-- The answer of the checks made on a VOID with its original read. -/
def Chip.origVerdict (c : Chip) (slot : Fin 13) (r : JRecord) (orig : List Word) : Refuse :=
  (refuseIf (c.voidRefBad slot r.reference orig) .voidRef).or (c.voidChecks slot (copyOriginal r orig))

/-- A VOID with a refusal against it is refused. -/
theorem Chip.validateVoid_of_refused {c : Chip} {po : Posting} {why : Reason} {detail : Nat}
    (h : c.origVerdict po.slot (recordOfWords po.words) po.orig = some (why, detail)) :
    c.validateVoid po = c.refusePosting po.slot why detail := by
  unfold Chip.origVerdict refuseIf at h
  unfold Chip.validateVoid
  dsimp only
  split at h
  · next hbad =>
    cases h
    exact if_pos hbad
  · next hgood =>
    rw [Option.none_or] at h
    rw [if_neg hgood, h]

/-- A VOID with none is accepted. -/
theorem Chip.validateVoid_of_passed {c : Chip} {po : Posting} (h : c.origVerdict po.slot (recordOfWords po.words) po.orig = none) :
    c.validateVoid po = c.acceptPosting po .void (copyOriginal (recordOfWords po.words) po.orig) := by
  unfold Chip.origVerdict at h
  obtain ⟨hgood, hchecks⟩ := Option.or_eq_none_iff.mp h
  unfold Chip.validateVoid
  dsimp only
  rw [hchecks, if_neg fun hbad => by rw [refuseIf, if_pos hbad] at hgood; cases hgood]

/-- Checks 16 to 18 of a VOID on the values copied from an original that may be voided (R72, R41). -/
theorem judges_voidDrawers {cu : CuState} {slot : Fin 13} {k : RecordKind} {code : Nat} {r : JRecord} (hcode : code = k.code)
    (hk : k.voidable = true) (ho : r.original = some k) (hp : r.position = slot.val) :
    let notIn (i : Nat) (ok : List DrawerState) : Prop := ∀ x : Fin 13, x.val = i → cu.drawers[x.val].state ∉ ok
    let each (f : Fin 10 → Prop) (why : Reason) : List (Prop × Reason × Nat) := (List.finRange 10).map fun d => (f d, why, d.val)
    Judges ([(notIn slot.val [.drawerOpen], .drawerState, slot.val),
        (code = 7 ∧ notIn r.target [.drawerOpen], .drawerState, r.target)]
      ++ (each (fun d => code ∈ [3, 7] ∧ ∃ x : Fin 13, x.val = (if code = 7 then r.target else slot.val) ∧
          countAt cu.drawers[x.val].counts d < countAt r.counts d) .shortDenom
      ++ each (fun d => code ∈ [4, 7] ∧ 65535 < countAt cu.drawers[slot.val].counts d + countAt r.counts d) .countLimit))
      ((refuseAt (wrongState cu .void r.original slot.val r.target) .drawerState).or
        ((refuseAt (shortCheck cu .void r) .shortDenom).or (refuseAt (limitCheck cu .void r) .countLimit))) := by
  subst hcode
  intro notIn each
  have hfirst := judges_firstWrong cu [.drawerOpen] [slot.val]
  have hsecond := Judges.when (p := k.code = 7) fun _ => judges_firstWrong cu [.drawerOpen] [r.target]
  have hstates := hfirst.append fun _ => hsecond
  have hstate : refuseAt (wrongState cu .void r.original slot.val r.target) .drawerState =
      (refuseAt (firstWrong cu [.drawerOpen] [slot.val]) .drawerState).or
        (if k.code = 7 then refuseAt (firstWrong cu [.drawerOpen] [r.target]) .drawerState else none) := by
    rw [ho]
    by_cases hin : stateIn (cu.stateOf slot.val) [.drawerOpen] = true <;>
      cases k <;> simp [RecordKind.code, wrongState, firstWrong, refuseAt, hin, RecordKind.voidable] at hk ⊢
  have hshort (hgood : refuseAt (wrongState cu .void r.original slot.val r.target) .drawerState = none) :=
    judges_shortCheck (cu := cu) (k := .void) (r := r) (p := k.code ∈ [3, 7]) (i := if k.code = 7 then r.target else slot.val)
      (bad := fun d => ∃ x : Fin 13, x.val = (if k.code = 7 then r.target else slot.val) ∧
        countAt cu.drawers[x.val].counts d < countAt r.counts d)
      (by rw [ho, hp]; cases k <;> simp [removedFrom, RecordKind.code, RecordKind.voidable] at hk ⊢) fun _ d => by
        obtain ⟨x, hx⟩ : ∃ x : Fin 13, x.val = if k.code = 7 then r.target else slot.val := by
          split
          · next h7 =>
            by_contra hnone
            have hsecond' := (hsecond.eq_none_iff.mp (Option.or_eq_none_iff.mp (hstate.symm.trans hgood)).2)
            exact hsecond' _ (List.mem_singleton_self _) ⟨h7, fun x hx => absurd ⟨x, hx⟩ hnone⟩
          · exact ⟨slot, rfl⟩
        rw [← hx, CuState.countsOf_fin]
        constructor
        · exact fun hlt => ⟨x, rfl, hlt⟩
        · rintro ⟨y, hy, hlt⟩
          obtain rfl : y = x := Fin.ext hy
          exact hlt
  have hlimit := judges_limitCheck (cu := cu) (k := .void) (r := r) (p := k.code ∈ [4, 7]) (i := slot.val)
    (bad := fun d => 65535 < countAt cu.drawers[slot.val].counts d + countAt r.counts d)
    (by rw [ho, hp]; cases k <;> simp [addedTo, RecordKind.code, RecordKind.voidable] at hk ⊢) fun _ d => by rw [CuState.countsOf_fin]
  rw [hstate] at hshort ⊢
  have h := hstates.append fun hgood => (hshort hgood).append fun _ => hlimit
  exact h

/-- Checks 14 to 18 of a VOID with its original read, in order (R71, R72, R41). -/
theorem Chip.judges_origVerdict (c : Chip) (slot : Fin 13) (r : JRecord) (orig : List Word) :
    let o := recordOfWords orig
    let v := r.reference
    let notIn (i : Nat) (ok : List DrawerState) : Prop := ∀ x : Fin 13, x.val = i → (c.drawer x).state ∉ ok
    let each (f : Fin 10 → Prop) (why : Reason) : List (Prop × Reason × Nat) := (List.finRange 10).map fun d => (f d, why, d.val)
    Judges ([(o.seq ≠ v ∨ recordCrc orig ≠ stampCrc (wordAt orig 11) ∨ stampStatus (wordAt orig 11) ≠ .posted ∨
          v ∈ c.ju.unstamped ∨ o.code ∉ [3, 4, 5, 6, 7] ∨ o.position ≠ slot.val, .voidRef, 0),
        (∃ n : Fin 4, (∃ e ∈ (c.printer n).queue, e.seq = v) ∨ ∃ x, (c.printer n).service = some x ∧ x.entry.seq = v,
          .printPending, 0),
        (notIn slot.val [.drawerOpen], .drawerState, slot.val),
        (o.code = 7 ∧ notIn o.target [.drawerOpen], .drawerState, o.target)]
      ++ each (fun d => o.code ∈ [3, 7] ∧ ∃ x : Fin 13, x.val = (if o.code = 7 then o.target else slot.val) ∧
          countAt (c.drawer x).counts d < countAt o.counts d) .shortDenom
      ++ each (fun d => o.code ∈ [4, 7] ∧ 65535 < countAt (c.drawer slot).counts d + countAt o.counts d) .countLimit)
      (c.origVerdict slot r orig) := by
  intro o v notIn each
  have href : Judges [(o.seq ≠ v ∨ recordCrc orig ≠ stampCrc (wordAt orig 11) ∨ stampStatus (wordAt orig 11) ≠ .posted ∨
      v ∈ c.ju.unstamped ∨ o.code ∉ [3, 4, 5, 6, 7] ∨ o.position ≠ slot.val, .voidRef, 0)]
      (refuseIf (c.voidRefBad slot v orig) .voidRef) := judges_refuseIf _ Chip.voidRefBad_iff
  have hpending := judges_refuseIf Reason.printPending (c.printPending_iff_exists (seq := v))
  have hrest (hgood : refuseIf (c.voidRefBad slot v orig) .voidRef = none) : Judges
      ([(notIn slot.val [.drawerOpen], .drawerState, slot.val),
        (o.code = 7 ∧ notIn o.target [.drawerOpen], .drawerState, o.target)]
      ++ (each (fun d => o.code ∈ [3, 7] ∧ ∃ x : Fin 13, x.val = (if o.code = 7 then o.target else slot.val) ∧
          countAt (c.drawer x).counts d < countAt o.counts d) .shortDenom
      ++ each (fun d => o.code ∈ [4, 7] ∧ 65535 < countAt (c.drawer slot).counts d + countAt o.counts d) .countLimit))
      ((refuseAt (wrongState c.cu .void (recordKindOfCode o.code) slot.val o.target) .drawerState).or
        ((refuseAt (shortCheck c.cu .void { copyOriginal r orig with position := slot.val }) .shortDenom).or
          (refuseAt (limitCheck c.cu .void { copyOriginal r orig with position := slot.val }) .countLimit))) := by
    have hcode : o.code ∈ [3, 4, 5, 6, 7] := by
      by_contra hcode
      rw [href.head (.inr (.inr (.inr (.inr (.inl hcode)))))] at hgood
      cases hgood
    obtain ⟨k, hk⟩ : ∃ k, recordKindOfCode o.code = some k := by
      rw [← Option.ne_none_iff_exists', ne_eq, recordKindOfCode_eq_none]
      simp only [List.mem_cons, List.not_mem_nil, or_false] at hcode
      omega
    have hkind := recordKindOfCode_eq_some.mp hk
    exact judges_voidDrawers (cu := c.cu) (r := { copyOriginal r orig with position := slot.val }) hkind
      (RecordKind.voidable_iff.mpr (hkind ▸ hcode)) hk rfl
  have h := href.append fun hgood => hpending.append fun _ => hrest hgood
  simp only [Chip.origVerdict, Chip.voidChecks, firstRefusal_cons, firstRefusal, Option.or_none]
  simp only [List.cons_append, List.nil_append] at h ⊢
  exact h

/-- Checks 1 to 18 of a record as read, a VOID's without those on its original (Table 4-4). -/
theorem Chip.judges_slotVerdict {c : Chip} {slot : Fin 13} (ws : List Word) (hday : c.cu.day.state.frozen = false) :
    Judges (c.earlyChecks slot (recordOfWords ws).code ++ c.laterChecks slot (recordOfWords ws)) (c.slotVerdict slot (recordOfWords ws)) := by
  refine (Chip.judges_firstChecks hday).append fun hgood => ?_
  obtain ⟨k, hk⟩ := Chip.kind_of_firstChecks hgood
  have hcode := recordKindOfCode_eq_some.mp hk
  rw [hk]
  by_cases hvoid : k = .void
  · subst hvoid
    exact Chip.judges_voidRef hcode
  · have h := Chip.judges_recordChecks (c := c) (slot := slot) ws hcode hvoid
    cases k with
    | void => exact absurd rfl hvoid
    | _ => exact h

/-! ### The answers -/

/-- What follows checks in order: a refusal with the reason and detail of the first that fails, or none. -/
theorem Judges.ends {checks : List (Prop × Reason × Nat)} {res : Refuse} (h : Judges checks res) {refused : Reason → Nat → Prop} {passed : Prop}
    (hrefused : ∀ why detail, res = some (why, detail) → refused why detail) (hpassed : res = none → passed) :
    (∀ (n : Nat) (bad : Prop) (why : Reason) (detail : Nat), checks[n]? = some (bad, why, detail) → bad →
      (∀ m < n, ∀ e, checks[m]? = some e → ¬ e.1) → refused why detail) ∧ ((∀ e ∈ checks, ¬ e.1) → passed) :=
  ⟨fun _ _ why detail hn hbad hbefore => hrefused why detail (h.eq_some hn hbad hbefore), fun hgood => hpassed (h.eq_none_iff.mpr hgood)⟩

/-- A read of a posting's answered OKAY leaves the store, and JU goes on (R59). -/
theorem State.completes_read {s : State} {po : Posting} {addr len : Nat} {st : PostStep} {d : Chip} (hp : s.prompt = false)
    (hpo : s.chip.ju.posting = some po) (hport : s.arb.port = .own rJU (.read addr 4 len) (.post st) false)
    (hd : s.chip.postNext po st (readWords s.mem addr 4 len) = d) : Completes (.storeAnswer true) s fun t => t.mem = s.mem ∧ t.chip = d := by
  refine State.completes_answer hp hport true ⟨rfl, ?_⟩
  show s.chip.postAnswered st true addr (readWords s.mem addr 4 len) = d
  unfold Chip.postAnswered
  rw [hpo]
  exact hd

/-- The posting with more of what has been read. -/
def Chip.postingPut (c : Chip) (po : Posting) : Chip := c.onJu fun j => { j with posting := some po }

/-- The posting changed. -/
theorem Chip.onPosting_of_some {c : Chip} {po : Posting} (h : c.ju.posting = some po) (f : Posting → Posting) :
    c.onPosting f = c.postingPut (f po) := by
  unfold Chip.onPosting Chip.postingPut Chip.onJu
  dsimp only
  rw [h]
  rfl

/-- The checks do not depend on the posting. -/
theorem Chip.postingPut_slotVerdict (c : Chip) (po : Posting) (slot : Fin 13) (r : JRecord) :
    (c.postingPut po).slotVerdict slot r = c.slotVerdict slot r := rfl

/-- Settles O28: each group of checks answers with the first that fails, and a group stands after the groups before it. -/
theorem postingsJudged : Obligations.PostingsJudged := by
  refine ⟨⟨rfl, fun n k hn hmax hk => ⟨seqPlus_succ n k, seqDistance_seqPlus_of_lt hn hmax hk⟩,
    fun n j k cap hn _ hj hk => ringSlot_ne hn hj hk⟩, fun s po addr hp hpo hday => ⟨fun hport => ?_, fun hport => ?_, fun hport => ?_,
    fun hport => ?_⟩⟩
  · refine ⟨fun n bad why detail hn => (nomatch hn), fun _ => State.completes_read hp hpo hport ?_⟩
    show (s.chip.onPosting _).post _ _ = _
    rw [Chip.onPosting_of_some hpo]
    rfl
  · generalize hws : po.words ++ readWords s.mem addr 4 3 = ws
    have hjudged := s.chip.postingPut_slotVerdict { po with words := ws } po.slot (recordOfWords ws)
    have hnext : s.chip.postNext po .readB (readWords s.mem addr 4 3) =
        (s.chip.postingPut { po with words := ws }).validate { po with words := ws } := hws ▸ rfl
    have hrefused {why : Reason} {detail : Nat} (h : s.chip.slotVerdict po.slot (recordOfWords ws) = some (why, detail)) :
        s.chip.postNext po .readB (readWords s.mem addr 4 3) =
          (s.chip.postingPut { po with words := ws }).refusePosting po.slot why detail :=
      hnext.trans (Chip.validate_of_refused (hjudged.trans h))
    refine (Chip.judges_slotVerdict (slot := po.slot) ws hday).ends
      (fun why detail h => State.completes_read hp hpo hport (hrefused h))
      fun h => State.completes_read hp hpo hport (hnext.trans ?_)
    obtain ⟨k, hk⟩ := Chip.kind_of_firstChecks (Option.or_eq_none_iff.mp h).1
    rw [hk]
    by_cases hvoid : k = .void
    · subst hvoid
      exact Chip.validate_of_void hk (hjudged.trans h)
    · have haccepted := Chip.validate_of_kind (c := s.chip.postingPut { po with words := ws }) (po := { po with words := ws }) hk hvoid
        (hjudged.trans h)
      cases k with
      | void => exact absurd rfl hvoid
      | _ => exact haccepted
  · refine ⟨fun n bad why detail hn => (nomatch hn), fun _ => State.completes_read hp hpo hport ?_⟩
    show (s.chip.onPosting _).post _ _ = _
    rw [Chip.onPosting_of_some hpo]
    rfl
  · exact (Chip.judges_origVerdict s.chip po.slot (recordOfWords po.words) (po.orig ++ readWords s.mem addr 4 4)).ends
      (fun why detail h => State.completes_read hp hpo hport (Chip.validateVoid_of_refused h))
      (fun h => State.completes_read hp hpo hport (Chip.validateVoid_of_passed h))

end Sys2Proof.Machine
end

section
/-! PROOF. The drawer records and the day record after a record, and the EXCESS flags judged (O36, O39). -/

namespace Sys2Proof.Machine

/-! ### Drawer records changed -/

/-- The drawer records of which one was changed. -/
theorem CuState.onDrawer_get (cu : CuState) (i : Nat) (f : Drawer → Drawer) (x : Fin 13) :
    (cu.onDrawer i f).drawers[x.val] = if x.val = i then f cu.drawers[x.val] else cu.drawers[x.val] := by
  unfold CuState.onDrawer finOf
  by_cases hi : i < 13
  · simp only [hi, dite_true]
    rw [vupd_get]
    by_cases hx : i = x.val
    · subst hx
      rw [if_pos rfl]
    · rw [if_neg hx, if_neg (Ne.symm hx)]
  · simp only [hi, dite_false]
    rw [if_neg (by omega)]

/-- A change of the day record leaves the drawer records. -/
theorem CuState.onDay_drawers (cu : CuState) (f : DayRecord → DayRecord) : (cu.onDay f).drawers = cu.drawers := rfl

/-- A record's count and number in its slot's drawer (R43), besides its kind's effect. -/
theorem CuState.applyRecord_drawer (cu : CuState) (faces : Vector Nat 10) (k : RecordKind) (r : JRecord) (x : Fin 13) :
    (cu.applyRecord faces k r).drawers[x.val] = if x.val = r.position then
        { (cu.applyKind faces k r).drawers[x.val] with
          recordCount := (cu.applyKind faces k r).drawers[x.val].recordCount + 1, lastSeq := r.seq }
      else (cu.applyKind faces k r).drawers[x.val] :=
  CuState.onDrawer_get _ _ _ x

/-- Whether any sum is saturated, by the drawers and the day's sums. -/
theorem CuState.anySaturated_iff (cu : CuState) : cu.anySaturated = true ↔ (∃ x : Fin 13, cu.drawers[x.val].anySaturated = true) ∨
    cu.day.cashIn.saturated = true ∨ cu.day.cashOut.saturated = true ∨ cu.day.noncashIn.saturated = true ∨
    cu.day.noncashOut.saturated = true ∨ diffTotalBound cu.day.differenceTotal = true := by
  have hany : cu.drawers.toList.any (·.anySaturated) = true ↔ ∃ x : Fin 13, cu.drawers[x.val].anySaturated = true := by
    rw [List.any_eq_true]
    constructor
    · rintro ⟨d, hd, hsat⟩
      obtain ⟨n, hn, rfl⟩ := Vector.mem_iff_getElem.mp (Vector.mem_toList_iff.mp hd)
      exact ⟨⟨n, hn⟩, hsat⟩
    · rintro ⟨x, hsat⟩
      exact ⟨_, Vector.mem_toList_iff.mpr (Vector.getElem_mem x.isLt), hsat⟩
  simp only [CuState.anySaturated, Bool.or_eq_true, hany, or_assoc]

/-- Whether any sum is saturated does not depend on what else the records hold. -/
theorem CuState.anySaturated_congr {cu cu' : CuState} (hd : ∀ x : Fin 13, cu'.drawers[x.val].anySaturated = cu.drawers[x.val].anySaturated)
    (h1 : cu'.day.cashIn = cu.day.cashIn) (h2 : cu'.day.cashOut = cu.day.cashOut) (h3 : cu'.day.noncashIn = cu.day.noncashIn)
    (h4 : cu'.day.noncashOut = cu.day.noncashOut) (h5 : cu'.day.differenceTotal = cu.day.differenceTotal) :
    cu'.anySaturated = cu.anySaturated := by
  rw [Bool.eq_iff_iff, CuState.anySaturated_iff, CuState.anySaturated_iff]
  simp only [hd, h1, h2, h3, h4, h5]

/-- The day record after a record: its count, the hash total and the next number (R43, R46, R69), besides its kind's effect. -/
theorem CuState.applyRecord_day (cu : CuState) (faces : Vector Nat 10) (k : RecordKind) (r : JRecord) :
    (cu.applyRecord faces k r).day = { (cu.applyKind faces k r).day with
      recordCount := (cu.applyKind faces k r).day.recordCount + 1
      hash := ((cu.applyKind faces k r).day.hash + r.amount) % 1000000000000
      next := seqAfter r.seq
      sumsSaturated := (cu.applyKind faces k r).day.sumsSaturated || (cu.applyRecord faces k r).anySaturated } := by
  unfold CuState.applyRecord
  dsimp only [CuState.onDay]
  simp only [CuState.onDrawer_day]
  rfl

/-- What the kind leaves of the day record. -/
structure DayRecord.SameDay (d d' : DayRecord) : Prop where
  state : d'.state = d.state
  date : d'.date = d.date
  previousDate : d'.previousDate = d.previousDate
  first : d'.first = d.first
  closingCounts : d'.closingCounts = d.closingCounts
  recordCount : d'.recordCount = d.recordCount
  hash : d'.hash = d.hash
  sumsSaturated : d'.sumsSaturated = d.sumsSaturated

/-- A kind's own effect on the day record is on its sums. -/
theorem CuState.applyKind_sameDay (cu : CuState) (faces : Vector Nat 10) (k : RecordKind) (r : JRecord) :
    cu.day.SameDay (cu.applyKind faces k r).day := by
  cases k with
  | void =>
    show cu.day.SameDay (cu.applyVoid r).day
    unfold CuState.applyVoid
    split <;> constructor <;> simp [CuState.onDay, CuState.onDrawer_day]
  | _ => constructor <;> simp [CuState.applyKind, CuState.onDay, CuState.onDrawer_day]

/-! ### The flags judged -/

/-- A drawer record `x` with its EXCESS flag judged (R42): RESERVE has none. -/
def Chip.flagged (c : Chip) (x : Fin 13) (d : Drawer) : Drawer :=
  { d with excess := match finOf 12 x.val with
      | some p => c.ceilingOf p != 0 && c.ceilingOf p < cashPosition c.faces d.counts
      | none => d.excess }

/-- A flag judged is what it is judged to be. -/
theorem Chip.flagged_flagged (c : Chip) (x : Fin 13) (d : Drawer) : c.flagged x (c.flagged x d) = c.flagged x d := by
  unfold Chip.flagged
  cases finOf 12 x.val <;> rfl

/-- What is judged depends on the settings alone. -/
theorem Chip.flagged_congr {c c' : Chip} (h : c'.su.image = c.su.image) : c'.flagged = c.flagged := by
  have hface : c'.faces = c.faces := by
    unfold Chip.faces
    exact congrArg (vofList 10 0) (List.map_congr_left fun d _ => Chip.setting_congr h _)
  have hceiling : c'.ceilingOf = c.ceilingOf := by
    funext p
    unfold Chip.ceilingOf
    rw [Chip.setting_congr h, Chip.setting_congr h]
  unfold Chip.flagged
  rw [hface, hceiling]

/-- The drawer of a position with its flag judged. -/
theorem Chip.flagged_position (c : Chip) (p : Fin 12) : c.flagged (drawerIndex p) (c.drawerOf p) = { c.drawerOf p with excess := c.excessOf p } := by
  have hp : finOf 12 (drawerIndex p).val = some p := by simp [finOf, drawerIndex]
  unfold Chip.flagged
  rw [hp]
  rfl

/-- The EXCESS flag of a position put as judged. -/
theorem Chip.onDrawer_flagged (c : Chip) (p : Fin 12) (x : Fin 13) :
    (c.onCu (·.onDrawer p.val fun d => { d with excess := c.excessOf p })).drawer x =
      if x = drawerIndex p then c.flagged x (c.drawer x) else c.drawer x := by
  refine (CuState.onDrawer_get _ _ _ x).trans ?_
  by_cases hx : x = drawerIndex p
  · subst hx
    rw [if_pos (show (drawerIndex p).val = p.val from rfl), if_pos rfl]
    exact (c.flagged_position p).symm
  · rw [if_neg hx, if_neg (fun h : x.val = p.val => hx (Fin.ext h))]
    rfl

/-- A flag judged, with a report or without, changes nothing else in the records (R42). -/
theorem Chip.judgeExcess_drawer (c : Chip) (p : Fin 12) (detail : Nat) (x : Fin 13) : (c.judgeExcess p detail).drawer x =
    if x = drawerIndex p then c.flagged x (c.drawer x) else c.drawer x := by
  have hput := c.onDrawer_flagged p x
  unfold Chip.judgeExcess
  dsimp only
  split
  · next h =>
    split
    · next hx =>
      subst hx
      refine Eq.trans ?_ (c.flagged_position p).symm
      rw [beq_iff_eq.mp h]
      rfl
    · rfl
  · rw [← hput]
    unfold Chip.drawer
    split <;> simp

end Sys2Proof.Machine
end

section
/-! PROOF. The reports and the bells of flags judged, and what CU's readers are told (O36). -/

namespace Sys2Proof.Machine

/-! ### Reports in order -/

/-- Reports `rs` made in order, with room for all of them, at the time the chip has (R33); the settings stay. -/
structure Chip.Made (c d : Chip) (rs : List (ReportKind × Nat × Nat)) : Prop where
  ms : d.su.ms = c.su.ms
  image : d.su.image = c.su.image
  reports : c.Reports d rs

/-- SU as it was has made no report. -/
theorem Chip.Made.of_su {c d : Chip} (h : d.su = c.su) : c.Made d [] where
  ms := by rw [h]
  image := by rw [h]
  reports _ := by rw [h]; exact (List.append_nil _).symm

/-- Reports made after reports. -/
theorem Chip.Made.append {c d e : Chip} {rs rs' : List (ReportKind × Nat × Nat)} (h : c.Made d rs) (h' : d.Made e rs') :
    c.Made e (rs ++ rs') where
  ms := h'.ms.trans h.ms
  image := h'.image.trans h.image
  reports hroom := by
    rw [List.length_append] at hroom
    have hd := h.reports (by omega)
    have hlength : d.su.reports.length = c.su.reports.length + rs.length := by rw [hd, List.length_append, List.length_map]
    have he := h'.reports (by omega)
    rw [he, hd, h.ms, List.map_append, List.append_assoc]

/-- A chip whose SU is as before has made the same reports. -/
theorem Chip.Made.trans_su {c d e : Chip} {rs : List (ReportKind × Nat × Nat)} (h : c.Made d rs) (h' : e.su = d.su) : c.Made e rs := by
  have hall := h.append (.of_su h')
  rwa [List.append_nil] at hall

/-- A report. -/
theorem Chip.report_made (c : Chip) (k : ReportKind) (i d : Nat) : c.Made (c.report k i d) [(k, i, d)] where
  ms := by
    unfold Chip.report Chip.setOverflow
    split
    · rfl
    · split <;> rfl
  image := congrArg Gist.image (c.report_gist k i d)
  reports hroom := by
    rw [List.length_singleton] at hroom
    rw [c.report_of_room k i d (by omega)]
    rfl

/-! ### Flags judged -/

/-- A bell pending on one screen (R114). -/
theorem Chip.ring_bell (c : Chip) (p q : Fin 12) : ((c.ring p).screen q).bell = ((c.screen q).bell || q == p) := by
  unfold Chip.ring
  by_cases h : q = p
  · subst h
    rw [Chip.screen_onScreen_same]
    simp
  · rw [Chip.screen_onScreen_ne _ _ _ _ h, beq_eq_false_iff_ne.mpr h, Bool.or_false]

/-- Drawer record `i`'s flag judged; RESERVE has none (R42). -/
def Chip.judgeIndex (c : Chip) (detail i : Nat) : Chip :=
  match positionOf i with | some p => c.judgeExcess p detail | none => c

/-- The index of a position is that position's. -/
theorem positionOf_drawerIndex (p : Fin 12) : positionOf (drawerIndex p).val = some p := by simp [positionOf, finOf, drawerIndex]

/-- An index is a position's or RESERVE's. -/
theorem eq_drawerIndex_or (x : Fin 13) : (∃ p, x = drawerIndex p) ∨ x = 12 := by
  by_cases h : x.val < 12
  · exact .inl ⟨⟨x.val, h⟩, rfl⟩
  · exact .inr (Fin.ext (by have := x.isLt; show x.val = 12; omega))

/-- The report of a changed flag (R42). -/
def Chip.flagReport (c d : Chip) (detail : Nat) (x : Fin 13) : List (ReportKind × Nat × Nat) :=
  if (d.drawer x).excess = (c.drawer x).excess then []
  else [(if (d.drawer x).excess = true then .excessSet else .excessCleared, x.val, detail)]

/-- A flag as it was is not reported. -/
theorem Chip.flagReport_of_same {c d : Chip} {detail : Nat} {x : Fin 13} (h : (d.drawer x).excess = (c.drawer x).excess) :
    c.flagReport d detail x = [] := if_pos h

/-- The flags of drawers `xs` judged from `c` to `d`, with their reports in order and their bells (R42, R114). -/
structure Chip.FlagsJudged (detail : Nat) (c d : Chip) (xs : List (Fin 13)) : Prop where
  drawer : ∀ y, d.drawer y = if y ∈ xs then c.flagged y (c.drawer y) else c.drawer y
  day : d.cu.day = c.cu.day
  ju : d.ju = c.ju
  slc : d.slc = c.slc
  made : c.Made d (xs.flatMap (c.flagReport d detail))
  bell : ∀ p, (d.screen p).bell = ((c.screen p).bell || ((d.drawer (drawerIndex p)).excess && !(c.drawer (drawerIndex p)).excess))

/-- A flag that stands as judged is left. -/
theorem Chip.judgeExcess_of_same {c : Chip} {p : Fin 12} (detail : Nat) (h : c.excessOf p = (c.drawerOf p).excess) : c.judgeExcess p detail = c :=
  if_pos (beq_iff_eq.mpr h)

/-- A flag to be set is set, reported and rung for. -/
theorem Chip.judgeExcess_of_set {c : Chip} {p : Fin 12} (detail : Nat) (h : c.excessOf p = true) (h' : (c.drawerOf p).excess = false) :
    c.judgeExcess p detail = ((c.judgeQuietly p).report .excessSet p.val detail).ring p := by
  unfold Chip.judgeExcess
  dsimp only
  rw [if_neg (by rw [h, h']; decide), if_pos h]
  rfl

/-- A flag to be cleared is cleared and reported. -/
theorem Chip.judgeExcess_of_cleared {c : Chip} {p : Fin 12} (detail : Nat) (h : c.excessOf p = false) (h' : (c.drawerOf p).excess = true) :
    c.judgeExcess p detail = (c.judgeQuietly p).report .excessCleared p.val detail := by
  unfold Chip.judgeExcess
  dsimp only
  rw [if_neg (by rw [h, h']; decide), if_neg (by rw [h]; decide)]
  rfl

/-- The report of one flag judged. -/
theorem Chip.judgeExcess_made (c : Chip) (p : Fin 12) (detail : Nat) :
    c.Made (c.judgeExcess p detail) (c.flagReport (c.judgeExcess p detail) detail (drawerIndex p)) := by
  have hexcess : ((c.judgeExcess p detail).drawer (drawerIndex p)).excess = c.excessOf p := c.judgeExcess_excess p detail
  have hold : (c.drawer (drawerIndex p)).excess = (c.drawerOf p).excess := rfl
  have hquiet : c.Made (c.judgeQuietly p) [] := .of_su rfl
  unfold Chip.flagReport
  rw [hexcess, hold]
  cases hnew : c.excessOf p <;> cases hwas : (c.drawerOf p).excess
  · rw [c.judgeExcess_of_same detail (hnew.trans hwas.symm)]
    exact .of_su rfl
  · rw [c.judgeExcess_of_cleared detail hnew hwas]
    exact hquiet.append (Chip.report_made _ _ _ _)
  · rw [c.judgeExcess_of_set detail hnew hwas]
    exact (hquiet.append (Chip.report_made _ _ _ _)).trans_su (Chip.ring_su _ _)
  · rw [c.judgeExcess_of_same detail (hnew.trans hwas.symm)]
    exact .of_su rfl

/-- The bell of one flag judged. -/
theorem Chip.judgeExcess_bell (c : Chip) (p q : Fin 12) (detail : Nat) :
    ((c.judgeExcess p detail).screen q).bell = ((c.screen q).bell || (q == p && c.excessOf p && !(c.drawerOf p).excess)) := by
  have hreport (k : ReportKind) : ((c.judgeQuietly p).report k p.val detail).screen q = c.screen q :=
    congrArg (fun u : ScuState => u.screens[q.val]) (Chip.report_scu _ _ _ _)
  cases hnew : c.excessOf p <;> cases hwas : (c.drawerOf p).excess
  · rw [c.judgeExcess_of_same detail (hnew.trans hwas.symm)]
    simp
  · rw [c.judgeExcess_of_cleared detail hnew hwas, hreport]
    simp
  · rw [c.judgeExcess_of_set detail hnew hwas, Chip.ring_bell, hreport]
    simp
  · rw [c.judgeExcess_of_same detail (hnew.trans hwas.symm)]
    simp

/-- One position's flag judged. -/
theorem Chip.judgeExcess_judged (c : Chip) (p : Fin 12) (detail : Nat) : c.FlagsJudged detail (c.judgeExcess p detail) [drawerIndex p] where
  drawer y := by
    rw [c.judgeExcess_drawer p detail y]
    by_cases hy : y = drawerIndex p
    · rw [if_pos hy, if_pos (by simp [hy]), hy]
    · rw [if_neg hy, if_neg (by simp [hy])]
  day := by
    unfold Chip.judgeExcess
    dsimp only
    split
    · rfl
    · split <;> simp [CuState.onDrawer_day]
  ju := c.judgeExcess_ju p detail
  slc := c.judgeExcess_slc p detail
  made := by
    rw [List.flatMap_singleton]
    exact c.judgeExcess_made p detail
  bell q := by
    rw [c.judgeExcess_bell, c.judgeExcess_drawer p detail (drawerIndex q)]
    by_cases hq : q = p
    · subst hq
      have hd : c.drawer (drawerIndex q) = c.drawerOf q := rfl
      rw [if_pos rfl, hd, c.flagged_position, beq_self_eq_true, Bool.true_and]
    · have hne : drawerIndex q ≠ drawerIndex p := fun h => hq (Fin.ext (congrArg (fun x : Fin 13 => x.val) h))
      rw [if_neg hne, beq_eq_false_iff_ne.mpr hq]
      simp

/-- One drawer's flag judged. -/
theorem Chip.judgeIndex_judged (c : Chip) (x : Fin 13) (detail : Nat) : c.FlagsJudged detail (c.judgeIndex detail x.val) [x] := by
  obtain ⟨p, rfl⟩ | rfl := eq_drawerIndex_or x
  · unfold Chip.judgeIndex
    rw [positionOf_drawerIndex]
    exact c.judgeExcess_judged p detail
  · refine ⟨fun y => ?_, rfl, rfl, rfl, ?_, fun p => ?_⟩
    · by_cases hy : y = 12
      · subst hy
        exact (if_pos List.mem_cons_self).symm
      · exact (if_neg (by simp [hy])).symm
    · show c.Made c ([12].flatMap (c.flagReport c detail))
      rw [List.flatMap_singleton, Chip.flagReport_of_same rfl]
      exact .of_su rfl
    · show (c.screen p).bell = ((c.screen p).bell || ((c.drawer (drawerIndex p)).excess && !(c.drawer (drawerIndex p)).excess))
      rw [Bool.and_not_self, Bool.or_false]

/-- No flag judged. -/
theorem Chip.FlagsJudged.nil (c : Chip) (detail : Nat) : c.FlagsJudged detail c [] where
  drawer _ := rfl
  day := rfl
  ju := rfl
  slc := rfl
  made := .of_su rfl
  bell p := by rw [Bool.and_not_self, Bool.or_false]

/-- Two drawers' flags judged, one after the other. -/
theorem Chip.FlagsJudged.pair {detail : Nat} {c d e : Chip} {x y : Fin 13} (h : c.FlagsJudged detail d [x])
    (h' : d.FlagsJudged detail e [y]) (hxy : x ≠ y) :
    c.FlagsJudged detail e [x, y] := by
  have hflagged : d.flagged = c.flagged := Chip.flagged_congr h.made.image
  have hd (z : Fin 13) : d.drawer z = if z = x then c.flagged z (c.drawer z) else c.drawer z := by simpa using h.drawer z
  have he (z : Fin 13) : e.drawer z = if z = y then c.flagged z (d.drawer z) else d.drawer z := by simpa [hflagged] using h'.drawer z
  have hex : e.drawer x = d.drawer x := (he x).trans (if_neg hxy)
  have hdy : d.drawer y = c.drawer y := (hd y).trans (if_neg hxy.symm)
  refine ⟨fun z => ?_, h'.day.trans h.day, h'.ju.trans h.ju, h'.slc.trans h.slc, ?_, fun p => ?_⟩
  · rw [he, hd]
    by_cases hzx : z = x
    · subst hzx
      rw [if_neg hxy, if_pos rfl, if_pos List.mem_cons_self]
    · by_cases hzy : z = y
      · rw [if_pos hzy, if_neg hzx, if_pos (by simp [hzy])]
      · rw [if_neg hzy, if_neg hzx, if_neg (by simp [hzx, hzy])]
  · have hmade := h.made.append h'.made
    have hx : c.flagReport d detail x = c.flagReport e detail x := by simp only [Chip.flagReport, hex]
    have hy : d.flagReport e detail y = c.flagReport e detail y := by simp only [Chip.flagReport, hdy]
    simpa [hx, hy] using hmade
  · rw [h'.bell, h.bell, Bool.or_assoc]
    congr 1
    by_cases hp : drawerIndex p = y
    · rw [hp, hdy, Bool.and_not_self, Bool.false_or]
    · rw [(he (drawerIndex p)).trans (if_neg hp), Bool.and_not_self, Bool.or_false]

/-- A flag judged stands as judged. -/
theorem Chip.judgeIndex_judgeIndex (c : Chip) (detail i : Nat) : (c.judgeIndex detail i).judgeIndex detail i = c.judgeIndex detail i := by
  unfold Chip.judgeIndex
  cases positionOf i with
  | none => rfl
  | some p =>
    refine Chip.judgeExcess_of_same detail ?_
    rw [c.judgeExcess_excess]
    have hd := congrArg Drawer.excess ((c.judgeExcess p detail).flagged_position p)
    rw [Chip.flagged_congr (c.judgeExcess_judged p detail).made.image] at hd
    have hdrawer : (c.judgeExcess p detail).drawerOf p = c.flagged (drawerIndex p) (c.drawerOf p) :=
      (c.judgeExcess_drawer p detail (drawerIndex p)).trans (if_pos rfl)
    rw [hdrawer, Chip.flagged_flagged, c.flagged_position] at hd
    exact hd.symm

end Sys2Proof.Machine
end

section
/-! PROOF. What a record's kind reports, which flags it has judged, and what its readers are told (O36). -/

namespace Sys2Proof.Machine

/-! ### The flags a record has judged -/

/-- The flags of the drawers whose counts a record changes, judged in order (R42). -/
def Chip.judgeChanged (c : Chip) (k : RecordKind) (r : JRecord) : Chip := (countsChanged k r).foldl (fun c i => c.judgeIndex r.seq i) c

/-- A record changes the counts of its slot's drawer, of its target, of both, or of none. -/
theorem countsChanged_cases (k : RecordKind) (r : JRecord) : countsChanged k r = [] ∨ countsChanged k r = [r.position] ∨
    countsChanged k r = [r.target] ∨ countsChanged k r = [r.position, r.target] := by
  cases k with
  | cashIn | cashOut => exact .inr (.inl rfl)
  | transfer => exact .inr (.inr (.inr rfl))
  | acceptDifference => exact .inr (.inr (.inl rfl))
  | void =>
    simp only [countsChanged]
    split
    · exact .inr (.inl rfl)
    · exact .inr (.inl rfl)
    · exact .inr (.inr (.inr rfl))
    · exact .inl rfl
  | _ => exact .inl rfl

/-- A record's flags judged: those of the drawers whose counts it changes, each once, the slot's drawer first (R42). -/
theorem Chip.judgeChanged_judged (c : Chip) (k : RecordKind) {r : JRecord} {i j : Fin 13} (hi : r.position = i.val) (hj : r.target = j.val) :
    ∃ xs, c.FlagsJudged r.seq (c.judgeChanged k r) xs ∧ (∀ x : Fin 13, x ∈ xs ↔ x.val ∈ countsChanged k r) ∧
      (xs = [] ∨ xs = [i] ∨ xs = [j] ∨ (i ≠ j ∧ xs = [i, j])) := by
  unfold Chip.judgeChanged
  obtain h | h | h | h := countsChanged_cases k r <;> rw [h]
  · exact ⟨[], .nil c r.seq, by simp, .inl rfl⟩
  · refine ⟨[i], ?_, by simp [hi, Fin.ext_iff], .inr (.inl rfl)⟩
    rw [hi]
    exact c.judgeIndex_judged i r.seq
  · refine ⟨[j], ?_, by simp [hj, Fin.ext_iff], .inr (.inr (.inl rfl))⟩
    rw [hj]
    exact c.judgeIndex_judged j r.seq
  · rw [hi, hj]
    by_cases hij : i = j
    · subst hij
      refine ⟨[i], ?_, by simp [Fin.ext_iff], .inr (.inl rfl)⟩
      have htwice : [i.val, i.val].foldl (fun c n => c.judgeIndex r.seq n) c = c.judgeIndex r.seq i.val := c.judgeIndex_judgeIndex r.seq i.val
      rw [htwice]
      exact c.judgeIndex_judged i r.seq
    · exact ⟨[i, j], .pair (c.judgeIndex_judged i r.seq) (Chip.judgeIndex_judged _ j r.seq) hij,
        by simp [Fin.ext_iff], .inr (.inr (.inr ⟨hij, rfl⟩))⟩

/-- The reports of a record's flags: the slot's drawer first, then its target (R42). -/
theorem Chip.FlagsJudged.reports_eq {c d : Chip} {detail : Nat} {xs : List (Fin 13)} {i j : Fin 13} (h : c.FlagsJudged detail d xs)
    (hxs : xs = [] ∨ xs = [i] ∨ xs = [j] ∨ (i ≠ j ∧ xs = [i, j])) :
    xs.flatMap (c.flagReport d detail) = c.flagReport d detail i ++ if j = i then [] else c.flagReport d detail j := by
  have hnone (x : Fin 13) (hx : x ∉ xs) : c.flagReport d detail x = [] :=
    Chip.flagReport_of_same (by rw [h.drawer, if_neg hx])
  obtain rfl | rfl | rfl | ⟨hij, rfl⟩ := hxs
  · simp [hnone]
  · by_cases hji : j = i
    · simp [hji]
    · rw [hnone j (by simpa using hji)]
      simp
  · by_cases hji : j = i
    · simp [hji]
    · rw [hnone i (by simpa using Ne.symm hji), if_neg hji]
      simp
  · rw [if_neg (Ne.symm hij)]
    simp

/-! ### The reports of a kind -/

/-- The reports of the kind itself (R83, R89). -/
def CuState.kindReported (cu : CuState) (k : RecordKind) (r : JRecord) : List (ReportKind × Nat × Nat) :=
  match k with
  | .declare => if cu.stateOf r.position = some .difference then [(.difference, r.position, r.seq)] else []
  | .dayOpen => if cu.day.openingDiff = true then [(.openingDiff, 12, r.seq)] else []
  | _ => []

/-- A bell rung at a position, if at one, is no report. -/
theorem Chip.ringIndex_su (c : Chip) (i : Nat) : (match positionOf i with | some p => c.ring p | none => c).su = c.su := by
  split <;> simp

/-- The reports a kind makes (R83, R89). -/
theorem Chip.kindReports_made (c : Chip) (k : RecordKind) (r : JRecord) : c.Made (c.kindReports k r) (c.cu.kindReported k r) := by
  unfold CuState.kindReported
  cases k with
  | declare =>
    simp only [Chip.kindReports, beq_iff_eq]
    split
    · exact (c.report_made _ _ _).trans_su (Chip.ringIndex_su _ _)
    · exact .of_su rfl
  | dayOpen =>
    simp only [Chip.kindReports]
    split
    · exact c.report_made _ _ _
    · exact .of_su rfl
  | _ => exact .of_su rfl

/-- A difference rings the bell of the position that declared it (R114). -/
theorem Chip.kindReports_bell (c : Chip) (k : RecordKind) {r : JRecord} {i : Fin 13} (hi : r.position = i.val) (p : Fin 12) :
    ((c.kindReports k r).screen p).bell = ((c.screen p).bell ||
      (decide (k = .declare ∧ (c.drawer i).state = .difference) && drawerIndex p == i)) := by
  have hreport (d : Chip) (n index detail) : (d.report n index detail).screen p = d.screen p :=
    congrArg (fun u : ScuState => u.screens[p.val]) (Chip.report_scu _ _ _ _)
  cases k with
  | declare =>
    have hstate : c.cu.stateOf r.position = some .difference ↔ (c.drawer i).state = .difference := by
      rw [hi, CuState.stateOf_fin]
      exact Option.some_inj
    simp only [Chip.kindReports, beq_iff_eq, hstate, true_and]
    split
    · next hdiff =>
      rw [hi, decide_eq_true hdiff, Bool.true_and]
      obtain ⟨q, rfl⟩ | rfl := eq_drawerIndex_or i
      · rw [positionOf_drawerIndex]
        show ((Chip.ring _ q).screen p).bell = _
        rw [Chip.ring_bell, hreport]
        refine congrArg _ ?_
        rw [Bool.eq_iff_iff]
        simp [drawerIndex, Fin.ext_iff]
      · have hne : (drawerIndex p == (12 : Fin 13)) = false := beq_eq_false_iff_ne.mpr fun h => by
          have hval : p.val = 12 := congrArg (fun x : Fin 13 => x.val) h
          have := p.isLt
          omega
        rw [hne, Bool.or_false]
        exact congrArg Screen.bell (hreport _ _ _ _)
    · next hdiff =>
      rw [decide_eq_false hdiff, Bool.false_and, Bool.or_false]
  | dayOpen =>
    simp only [Chip.kindReports]
    split
    · simp [hreport]
    · simp
  | _ => simp [Chip.kindReports]

/-! ### The readers told -/

/-- The readers told of changes: the status rows of `shown` are to be rendered, and the releases of those of `drawers` that are not
OPEN are withdrawn; no bell rings, and SU, JU and CU stay (R90, R113, R132). -/
structure Chip.ReadersTold (c d : Chip) (shown drawers : Fin 12 → Prop) : Prop where
  su : d.su = c.su
  ju : d.ju = c.ju
  cu : d.cu = c.cu
  bell : ∀ q, (d.screen q).bell = (c.screen q).bell
  work : ∀ q, shown q ∨ .status q ∈ c.scu.work → .status q ∈ d.scu.work
  withdrawn : ∀ q, drawers q → (c.drawer (drawerIndex q)).state ≠ .drawerOpen → (d.drop q).pulse = none
  pulse : ∀ q, (c.drop q).pulse = none → (d.drop q).pulse = none

/-- Readers told, and then others. -/
theorem Chip.ReadersTold.trans {c d e : Chip} {shown drawers shown' drawers' : Fin 12 → Prop} (h : c.ReadersTold d shown drawers)
    (h' : d.ReadersTold e shown' drawers') : c.ReadersTold e (fun q => shown q ∨ shown' q) (fun q => drawers q ∨ drawers' q) where
  su := h'.su.trans h.su
  ju := h'.ju.trans h.ju
  cu := h'.cu.trans h.cu
  bell q := (h'.bell q).trans (h.bell q)
  work q hq := by
    obtain (hq | hq) | hq := hq
    · exact h'.work q (.inr (h.work q (.inl hq)))
    · exact h'.work q (.inl hq)
    · exact h'.work q (.inr (h.work q (.inr hq)))
  withdrawn q hq hopen := by
    obtain hq | hq := hq
    · exact h'.pulse q (h.withdrawn q hq hopen)
    · refine h'.withdrawn q hq ?_
      have hd : d.drawer (drawerIndex q) = c.drawer (drawerIndex q) := by
        unfold Chip.drawer
        rw [h.cu]
      rwa [hd]
  pulse q hq := h'.pulse q (h.pulse q hq)

/-- Nobody told. -/
theorem Chip.ReadersTold.refl (c : Chip) : c.ReadersTold c (fun _ => False) (fun _ => False) where
  su := rfl
  ju := rfl
  cu := rfl
  bell _ := rfl
  work _ h := h.resolve_left id
  withdrawn _ h := h.elim
  pulse _ h := h

/-- Fewer told. -/
theorem Chip.ReadersTold.mono {c d : Chip} {shown drawers shown' drawers' : Fin 12 → Prop} (h : c.ReadersTold d shown drawers)
    (hshown : ∀ q, shown' q → shown q) (hdrawers : ∀ q, drawers' q → drawers q) : c.ReadersTold d shown' drawers' :=
  ⟨h.su, h.ju, h.cu, h.bell, fun q hq => h.work q (hq.imp_left (hshown q)), fun q hq => h.withdrawn q (hdrawers q hq), h.pulse⟩

/-- The flash phase is judged without a bell. -/
theorem Chip.judgeFlash_bell (c : Chip) (p q : Fin 12) : ((c.judgeFlash p).screen q).bell = (c.screen q).bell := by
  unfold Chip.judgeFlash
  dsimp only
  split
  · rfl
  · by_cases h : q = p
    · subst h
      rw [Chip.screen_onScreen_same]
    · rw [Chip.screen_onScreen_ne _ _ _ _ h]

/-- A status row's event rings no bell. -/
theorem Chip.statusEvent_bell (c : Chip) (p q : Fin 12) : ((c.statusEvent p).screen q).bell = (c.screen q).bell := by
  unfold Chip.statusEvent
  dsimp only
  split
  · exact c.judgeFlash_bell p q
  · refine Eq.trans ?_ (c.judgeFlash_bell p q)
    exact congrArg (fun v : Vector Screen 12 => v[q.val].bell) (Chip.addWork_kept _ _).screens

/-- A status row's event (R113). -/
theorem Chip.statusEvent_told (c : Chip) (p : Fin 12) : c.ReadersTold (c.statusEvent p) (· = p) (fun _ => False) where
  su := c.statusEvent_su p
  ju := c.statusEvent_ju p
  cu := c.statusEvent_cu p
  bell := c.statusEvent_bell p
  work q := c.statusEvent_status p q
  withdrawn _ h := h.elim
  pulse q h := by
    unfold Chip.drop
    rw [c.statusEvent_slc p]
    exact h

/-- A release withdrawn (R132). -/
theorem Chip.withdraw_told (c : Chip) (p : Fin 12) : c.ReadersTold (c.withdraw p) (fun _ => False) (· = p) where
  su := c.withdraw_su p
  ju := c.withdraw_ju p
  cu := c.withdraw_cu p
  bell _ := rfl
  work _ h := h.resolve_left id
  withdrawn q h _ := by
    subst h
    unfold Chip.withdraw
    rw [Chip.drop_onDrop_same]
  pulse q h := by
    unfold Chip.withdraw
    by_cases hq : q = p
    · subst hq
      rw [Chip.drop_onDrop_same]
    · rw [Chip.drop_onDrop_ne _ _ _ _ hq]
      exact h

/-- A drawer that is OPEN has its release let stand, another's is withdrawn (R132). -/
theorem Chip.releaseJudged_told (c : Chip) (p : Fin 12) :
    c.ReadersTold (if (c.drawerOf p).state == .drawerOpen then c else c.withdraw p) (fun _ => False) (· = p) := by
  split
  · next hopen =>
    have hrefl := Chip.ReadersTold.refl c
    exact ⟨hrefl.su, hrefl.ju, hrefl.cu, hrefl.bell, hrefl.work, fun q hq hclosed => absurd (beq_iff_eq.mp (hq ▸ hopen)) hclosed, hrefl.pulse⟩
  · exact c.withdraw_told p

/-- The readers of one drawer told (R90, R113, R132). -/
theorem Chip.drawerNotice_told (c : Chip) (x : Fin 13) :
    c.ReadersTold (c.drawerNotice x.val) (fun q => drawerIndex q = x) (fun q => drawerIndex q = x) := by
  obtain ⟨p, rfl⟩ | rfl := eq_drawerIndex_or x
  · have hsame (q : Fin 12) : drawerIndex q = drawerIndex p → q = p := fun h => Fin.ext (congrArg (fun x : Fin 13 => x.val) h)
    unfold Chip.drawerNotice
    rw [positionOf_drawerIndex]
    exact ((c.releaseJudged_told p).trans (Chip.statusEvent_told _ p)).mono (fun q h => .inr (hsame q h)) (fun q h => .inl (hsame q h))
  · have hnone (q : Fin 12) : drawerIndex q ≠ 12 := fun h => by
      have hval : q.val = 12 := congrArg (fun x : Fin 13 => x.val) h
      have := q.isLt
      omega
    exact (Chip.ReadersTold.refl c).mono (fun q h => (hnone q h).elim) (fun q h => (hnone q h).elim)

/-- The readers of the drawers of a list told. -/
theorem Chip.drawerNotices_told (l : List Nat) (c : Chip) (hl : ∀ n ∈ l, n < 13) :
    c.ReadersTold (l.foldl (fun c i => c.drawerNotice i) c) (fun q => q.val ∈ l) (fun q => q.val ∈ l) := by
  induction l generalizing c with
  | nil => exact (Chip.ReadersTold.refl c).mono (fun _ h => nomatch h) (fun _ h => nomatch h)
  | cons n rest ih =>
    have hhere := c.drawerNotice_told ⟨n, hl n List.mem_cons_self⟩
    have hrest := ih (c.drawerNotice n) fun m hm => hl m (List.mem_cons_of_mem _ hm)
    have hsplit (q : Fin 12) (hq : q.val ∈ n :: rest) : drawerIndex q = ⟨n, hl n List.mem_cons_self⟩ ∨ q.val ∈ rest :=
      (List.mem_cons.mp hq).imp_left Fin.ext
    exact (hhere.trans hrest).mono hsplit hsplit

/-- The status rows of a list have their events. -/
theorem Chip.statusEvents_told (l : List (Fin 12)) (c : Chip) :
    c.ReadersTold (l.foldl (fun c p => c.statusEvent p) c) (· ∈ l) (fun _ => False) := by
  induction l generalizing c with
  | nil => exact (Chip.ReadersTold.refl c).mono (fun _ h => nomatch h) (fun _ h => h)
  | cons p rest ih =>
    exact ((c.statusEvent_told p).trans (ih _)).mono (fun _ h => List.mem_cons.mp h) (fun _ h => h.elim)

/-- The readers of an OPEN day told: every status row is to be rendered (R113). -/
theorem Chip.dayNotice_told {c : Chip} (h : c.cu.day.state = .dayOpen) : c.ReadersTold c.dayNotice (fun _ => True) (fun _ => False) := by
  have hmem : ∀ q, q ∈ positions := by decide
  unfold Chip.dayNotice
  rw [if_pos (beq_iff_eq.mpr h)]
  exact (Chip.statusEvents_told positions c).mono (fun q _ => hmem q) (fun _ h => h)

end Sys2Proof.Machine
end

section
/-! PROOF. What APPLY_RECORD leaves (O36): the record's effect with its flags judged, its reports, bells and readers. -/

namespace Sys2Proof.Machine

/-! ### The effect of a record before any flag is judged -/

/-- A drawer's record changed but for its EXCESS flag. -/
theorem CuState.onDrawer_excess (cu : CuState) (i : Nat) {f : Drawer → Drawer} (x : Fin 13) (hf : ∀ d, (f d).excess = d.excess) :
    (cu.onDrawer i f).drawers[x.val].excess = cu.drawers[x.val].excess := by
  rw [cu.onDrawer_get]
  split
  · exact hf _
  · rfl

/-- The effect of a VOID leaves the EXCESS flags as they are. -/
theorem CuState.applyVoid_excess (cu : CuState) (r : JRecord) (x : Fin 13) :
    (cu.applyVoid r).drawers[x.val].excess = cu.drawers[x.val].excess := by
  unfold CuState.applyVoid
  split <;> simp only [CuState.onDay_drawers]
  · exact cu.onDrawer_excess _ x fun _ => rfl
  · exact cu.onDrawer_excess _ x fun _ => rfl
  · exact cu.onDrawer_excess _ x fun _ => rfl
  · exact cu.onDrawer_excess _ x fun _ => rfl
  · rw [CuState.onDrawer_excess _ _ x, cu.onDrawer_excess _ x]
    · exact fun _ => rfl
    · exact fun _ => rfl

/-- A kind's effect leaves the EXCESS flags as they are. -/
theorem CuState.applyKind_excess (cu : CuState) (faces : Vector Nat 10) (k : RecordKind) (r : JRecord) (x : Fin 13) :
    (cu.applyKind faces k r).drawers[x.val].excess = cu.drawers[x.val].excess := by
  cases k with
  | note => rfl
  | void => exact cu.applyVoid_excess r x
  | transfer =>
    rw [CuState.applyKind, CuState.onDrawer_excess _ _ x, cu.onDrawer_excess _ x]
    · exact fun _ => rfl
    · exact fun _ => rfl
  | declare =>
    refine cu.onDrawer_excess _ x fun d => ?_
    unfold Drawer.declareCounts
    split <;> rfl
  | _ =>
    rw [CuState.applyKind]
    exact CuState.onDrawer_excess _ _ x fun _ => rfl

/-- A record leaves the EXCESS flags as they are, with its count too. -/
theorem CuState.applyRecord_excess (cu : CuState) (faces : Vector Nat 10) (k : RecordKind) (r : JRecord) (x : Fin 13) :
    (cu.applyRecord faces k r).drawers[x.val].excess = cu.drawers[x.val].excess := by
  rw [cu.applyRecord_drawer]
  split <;> exact cu.applyKind_excess faces k r x

/-- A kind's effect is on its slot's drawer, its target, and for DAY_OPEN on RESERVE (R43, R80 to R85). -/
theorem CuState.applyKind_drawer_other (cu : CuState) (faces : Vector Nat 10) {k : RecordKind} {r : JRecord} {x : Fin 13}
    (hposition : x.val ≠ r.position) (htarget : x.val ∉ touchedTarget k r) (hreserve : k ≠ .dayOpen ∨ x ≠ 12) :
    (cu.applyKind faces k r).drawers[x.val] = cu.drawers[x.val] := by
  have hput (u : CuState) (i : Nat) (f : Drawer → Drawer) (hx : x.val ≠ i) : (u.onDrawer i f).drawers[x.val] = u.drawers[x.val] := by
    rw [u.onDrawer_get, if_neg hx]
  cases k with
  | note => rfl
  | dayOpen => exact hput _ _ _ fun h => (hreserve.resolve_left (fun h => h rfl)) (Fin.ext h)
  | transfer => exact (hput _ _ _ (by simpa [touchedTarget] using htarget)).trans (hput _ _ _ hposition)
  | acceptDifference | reopen => exact hput _ _ _ (by simpa [touchedTarget] using htarget)
  | void =>
    show (cu.applyVoid r).drawers[x.val] = _
    unfold CuState.applyVoid
    split
    · exact hput _ _ _ hposition
    · exact hput _ _ _ hposition
    · exact hput _ _ _ hposition
    · exact hput _ _ _ hposition
    · next htransfer => exact (hput _ _ _ hposition).trans (hput _ _ _ (by simpa [touchedTarget, htransfer] using htarget))
    · rfl
  | _ => exact hput _ _ _ hposition

/-- Only drawers a record touches have their flags judged. -/
theorem countsChanged_touched {k : RecordKind} {r : JRecord} {n : Nat} (h : n ∈ countsChanged k r) :
    n = r.position ∨ n ∈ touchedTarget k r := by
  cases k with
  | cashIn | cashOut => exact .inl (List.mem_singleton.mp h)
  | transfer => exact List.mem_cons.mp h
  | acceptDifference => exact .inr h
  | void =>
    simp only [countsChanged] at h
    split at h
    · exact .inl (List.mem_singleton.mp h)
    · exact .inl (List.mem_singleton.mp h)
    · next htransfer =>
      rw [touchedTarget, if_pos (beq_iff_eq.mpr htransfer)]
      exact List.mem_cons.mp h
    · cases h
  | _ => cases h

/-! ### The record applied -/

/-- The drawers and the day a record is to leave, before any flag is judged. -/
def Chip.recorded (c : Chip) (k : RecordKind) (r : JRecord) : CuState := c.cu.applyRecord c.faces k r

/-- What a record leaves of CU before any flag is judged: a DAY_OPEN opens the day (R88). -/
def Chip.recordedCu (c : Chip) (k : RecordKind) (r : JRecord) : CuState :=
  if k = .dayOpen then (c.recorded k r).onDay (·.opened r) else c.recorded k r

/-- A DAY_OPEN opens the day in the same drawers. -/
theorem Chip.recordedCu_drawers (c : Chip) (k : RecordKind) (r : JRecord) : (c.recordedCu k r).drawers = (c.recorded k r).drawers := by
  unfold Chip.recordedCu
  split <;> rfl

/-- The record's change in place. -/
def Chip.withRecord (c : Chip) (k : RecordKind) (r : JRecord) : Chip := c.onCu fun _ => c.recordedCu k r

/-- The readers of what a record changes told. -/
def Chip.tellRecord (c : Chip) (k : RecordKind) (r : JRecord) : Chip :=
  let c := ((r.position :: touchedTarget k r).eraseDups).foldl (fun c i => c.drawerNotice i) c
  if k = .dayOpen then c.dayNotice else c

/-- The first stage of step 7, part by part (R79). -/
theorem Chip.applyChange_eq (c : Chip) (k : RecordKind) (r : JRecord) :
    c.applyChange k r = (((c.withRecord k r).kindReports k r).judgeChanged k r).tellRecord k r := by
  have hrecord : (if k = .dayOpen then (c.onCu (·.applyRecord c.faces k r)).onCu (·.onDay (·.opened r))
      else c.onCu (·.applyRecord c.faces k r)) = c.withRecord k r := by
    unfold Chip.withRecord Chip.recordedCu
    split <;> rfl
  rw [← hrecord]
  unfold Chip.applyChange Chip.tellRecord
  simp only [beq_iff_eq]
  rfl

/-- The readers told of a record: those of its slot's drawer and its target, and of all rows for a DAY_OPEN (R90, R113, R132). -/
theorem Chip.tellRecord_told {c : Chip} {k : RecordKind} {r : JRecord} {i j : Fin 13} (hi : r.position = i.val) (hj : r.target = j.val)
    (hday : k = .dayOpen → c.cu.day.state = .dayOpen) : c.ReadersTold (c.tellRecord k r)
      (fun q => (q.val = r.position ∨ q.val ∈ touchedTarget k r) ∨ k = .dayOpen)
      (fun q => q.val = r.position ∨ q.val ∈ touchedTarget k r) := by
  have hmem (n : Nat) : n ∈ (r.position :: touchedTarget k r).eraseDups ↔ n = r.position ∨ n ∈ touchedTarget k r := by
    rw [List.mem_eraseDups, List.mem_cons]
  have hbound (n : Nat) (hn : n ∈ (r.position :: touchedTarget k r).eraseDups) : n < 13 := by
    obtain rfl | hn := (hmem n).mp hn
    · rw [hi]
      exact i.isLt
    · rw [((mem_touchedTarget k r n).mp hn).1, hj]
      exact j.isLt
  have hdrawers := Chip.drawerNotices_told _ c hbound
  unfold Chip.tellRecord
  dsimp only
  split
  · next hk =>
    have hopen : ((r.position :: touchedTarget k r).eraseDups.foldl (fun c i => c.drawerNotice i) c).cu.day.state = .dayOpen := by
      rw [hdrawers.cu]
      exact hday hk
    exact (hdrawers.trans (Chip.dayNotice_told hopen)).mono (fun _ _ => .inr trivial) (fun q h => .inl ((hmem q.val).mpr h))
  · next hk => exact hdrawers.mono (fun q h => (hmem q.val).mpr (h.resolve_right hk)) (fun q h => (hmem q.val).mpr h)

/-- A record applied, from `c` to `d`: the drawers with the flags judged of those whose counts change, the day, the reports, the
bells and what the readers are told (R42, R43, R79, R83, R89, R90, R114). -/
structure Chip.RecordApplied (c d : Chip) (k : RecordKind) (r : JRecord) (i j : Fin 13) : Prop where
  drawer : ∀ x : Fin 13, d.drawer x = if x.val ∈ countsChanged k r then c.flagged x (c.recorded k r).drawers[x.val]
    else (c.recorded k r).drawers[x.val]
  day : d.cu.day = (c.recordedCu k r).day
  made : c.Made d ((c.recordedCu k r).kindReported k r ++ (c.flagReport d r.seq i ++ if j = i then [] else c.flagReport d r.seq j))
  bell : ∀ p, (d.screen p).bell = ((c.screen p).bell || (decide (k = .declare ∧ (d.drawer i).state = .difference) && drawerIndex p == i) ||
    ((d.drawer (drawerIndex p)).excess && !(c.drawer (drawerIndex p)).excess))
  work : ∀ q : Fin 12, (q.val = r.position ∨ q.val ∈ touchedTarget k r) ∨ k = .dayOpen → .status q ∈ d.scu.work
  withdrawn : ∀ q : Fin 12, q.val = r.position ∨ q.val ∈ touchedTarget k r → (d.drawer (drawerIndex q)).state ≠ .drawerOpen →
    (d.drop q).pulse = none

/-- The first stage of a record (R79). -/
theorem Chip.applyChange_applied (c : Chip) (k : RecordKind) {r : JRecord} {i j : Fin 13} (hi : r.position = i.val) (hj : r.target = j.val) :
    c.RecordApplied (c.applyChange k r) k r i j ∧ (c.applyChange k r).ju = c.ju := by
  let c₁ := c.withRecord k r
  let c₂ := c₁.kindReports k r
  let c₃ := c₂.judgeChanged k r
  let d := c₃.tellRecord k r
  have hkind : c₁.Made c₂ ((c.recordedCu k r).kindReported k r) := c₁.kindReports_made k r
  have hcu₂ : c₂.cu = c₁.cu := c₁.kindReports_cu k r
  have hdrawer₂ (x : Fin 13) : c₂.drawer x = (c.recorded k r).drawers[x.val] :=
    (congrArg (fun u : CuState => u.drawers[x.val]) hcu₂).trans (congrArg (·[x.val]) (c.recordedCu_drawers k r))
  have hdrawer₁ (x : Fin 13) : c₁.drawer x = (c.recorded k r).drawers[x.val] := congrArg (·[x.val]) (c.recordedCu_drawers k r)
  have hexcess₂ (x : Fin 13) : (c₂.drawer x).excess = (c.drawer x).excess :=
    (congrArg Drawer.excess (hdrawer₂ x)).trans (c.cu.applyRecord_excess c.faces k r x)
  obtain ⟨xs, hjudged, hmem, hxs⟩ := c₂.judgeChanged_judged k hi hj
  have hday₃ : c₃.cu.day = (c.recordedCu k r).day := hjudged.day.trans (congrArg CuState.day hcu₂)
  have htold : c₃.ReadersTold d _ _ := Chip.tellRecord_told hi hj fun hk => by
    rw [hday₃, Chip.recordedCu, if_pos hk]
    rfl
  have hdrawer₃ (x : Fin 13) : d.drawer x = c₃.drawer x := congrArg (fun u : CuState => u.drawers[x.val]) htold.cu
  have hsu : c.Made c₁ [] := .of_su rfl
  have hmade₁ : c.Made c₂ ((c.recordedCu k r).kindReported k r) := hsu.append hkind
  have hflagged : c₂.flagged = c.flagged := Chip.flagged_congr hmade₁.image
  have hreport (x : Fin 13) : c₂.flagReport c₃ r.seq x = c.flagReport d r.seq x := by
    unfold Chip.flagReport
    rw [hexcess₂, hdrawer₃]
  have hstate : (c₁.drawer i).state = (d.drawer i).state := by
    rw [hdrawer₃, hjudged.drawer, hdrawer₂, hdrawer₁]
    split <;> rfl
  rw [Chip.applyChange_eq]
  refine ⟨⟨fun x => ?_, ?_, ?_, fun p => ?_, fun q hq => htold.work q (.inl hq), fun q hq hclosed => ?_⟩, ?_⟩
  · rw [← hflagged, ← hdrawer₂]
    exact (hdrawer₃ x).trans ((hjudged.drawer x).trans (if_congr (hmem x) rfl rfl))
  · exact (congrArg CuState.day htold.cu).trans hday₃
  · have hmade := (hmade₁.append hjudged.made).trans_su htold.su
    rw [hjudged.reports_eq hxs, hreport, hreport] at hmade
    exact hmade
  · refine (htold.bell p).trans ((hjudged.bell p).trans ?_)
    have hbell₁ : (c₁.screen p).bell = (c.screen p).bell := rfl
    rw [c₁.kindReports_bell k hi p, hexcess₂, hbell₁, hstate, ← hdrawer₃]
  · exact htold.withdrawn q hq (by rwa [← hdrawer₃])
  · exact htold.ju.trans (hjudged.ju.trans (c₁.kindReports_ju k r))

/-- The second stage of a record only asks for CU's writes (R79). -/
theorem Chip.applyWrites_own (c : Chip) (k : RecordKind) (r : JRecord) : ∃ own, c.applyWrites k r = { c with own := own } := by
  obtain ⟨own, hown⟩ := c.writeMirrors_own (c.mirrorsToWrite (r.position :: touchedTarget k r)) .nothing
  unfold Chip.applyWrites
  dsimp only
  rw [hown]
  split <;> exact ⟨_, rfl⟩

/-- APPLY_RECORD with a record handed over applies it; the posting then waits for CU's writes (R79). -/
theorem applyRecord_next (s : State) (po : Posting) (k : RecordKind) (i j : Fin 13) (hs : s.prompt = false)
    (hpo : s.chip.ju.posting = some po) (hphase : po.phase = .handed) (hk : recordKindOfCode po.record.code = some k)
    (hi : po.record.position = i.val) (hj : po.record.target = j.val) :
    Completes .applyRecord s fun t =>
      s.chip.RecordApplied t.chip k po.record i j ∧ t.chip.ju.posting = some { po with phase := .applying } := by
  have hexec : exec .applyRecord s = .next { s with chip := s.chip.applyPosted } :=
    congrArg Host.Outcome.next (State.act_of_not_prompt s Chip.applyPosted hs)
  let c : Chip := { s.chip with ju := { s.chip.ju with posting := some { po with phase := .applying } } }
  obtain ⟨happlied, hju⟩ := c.applyChange_applied k hi hj
  obtain ⟨own, hown⟩ := (c.applyChange k po.record).applyWrites_own k po.record
  rw [Chip.applyPosted_eq hpo hphase hk] at hexec
  refine ⟨_, hexec, ?_⟩
  show s.chip.RecordApplied ((c.applyChange k po.record).applyWrites k po.record) k po.record i j ∧ _
  rw [hown]
  exact ⟨⟨happlied.drawer, happlied.day, ⟨happlied.made.ms, happlied.made.image, happlied.made.reports⟩, happlied.bell, happlied.work,
    happlied.withdrawn⟩, congrArg JuState.posting hju⟩

end Sys2Proof.Machine
end

section
/-! PROOF. Settles O36: every kind's effect on its drawers and on the day. -/

namespace Sys2Proof.Machine

/-! ### A drawer a record changes -/

/-- The drawer record that is changed. -/
theorem CuState.onDrawer_at (cu : CuState) {i : Nat} {x : Fin 13} (h : i = x.val) (f : Drawer → Drawer) :
    (cu.onDrawer i f).drawers[x.val] = f cu.drawers[x.val] :=
  (cu.onDrawer_get i f x).trans (if_pos h.symm)

/-- A drawer record that is not. -/
theorem CuState.onDrawer_off (cu : CuState) {i : Nat} {x : Fin 13} (h : i ≠ x.val) (f : Drawer → Drawer) :
    (cu.onDrawer i f).drawers[x.val] = cu.drawers[x.val] :=
  (cu.onDrawer_get i f x).trans (if_neg (Ne.symm h))

/-- A drawer with a record counted (R43). -/
def Drawer.posted (d : Drawer) (seq : Nat) : Drawer := { d with recordCount := d.recordCount + 1, lastSeq := seq }

section Applied

variable {c d : Chip} {k : RecordKind} {r : JRecord} {i j x : Fin 13}

/-- The slot's drawer of a record that changes its counts, by the kind's own effect `e` (R42, R43). -/
theorem Chip.RecordApplied.slot_judged (h : c.RecordApplied d k r i j) (hi : r.position = i.val) (hchanged : i.val ∈ countsChanged k r)
    {e : Drawer} (he : (c.cu.applyKind c.faces k r).drawers[i.val] = e) : d.drawer i = c.flagged i (e.posted r.seq) := by
  rw [h.drawer, if_pos hchanged, Chip.recorded, CuState.applyRecord_drawer, if_pos hi.symm, he]
  rfl

/-- The slot's drawer of a record that leaves its counts (R43). -/
theorem Chip.RecordApplied.slot (h : c.RecordApplied d k r i j) (hi : r.position = i.val) (hchanged : i.val ∉ countsChanged k r)
    {e : Drawer} (he : (c.cu.applyKind c.faces k r).drawers[i.val] = e) : d.drawer i = e.posted r.seq := by
  rw [h.drawer, if_neg hchanged, Chip.recorded, CuState.applyRecord_drawer, if_pos hi.symm, he]
  rfl

/-- Another drawer whose counts a record changes (R42). -/
theorem Chip.RecordApplied.other_judged (h : c.RecordApplied d k r i j) (hx : r.position ≠ x.val) (hchanged : x.val ∈ countsChanged k r)
    {e : Drawer} (he : (c.cu.applyKind c.faces k r).drawers[x.val] = e) : d.drawer x = c.flagged x e := by
  rw [h.drawer, if_pos hchanged, Chip.recorded, CuState.applyRecord_drawer, if_neg hx.symm, he]

/-- Another drawer whose counts a record leaves. -/
theorem Chip.RecordApplied.other (h : c.RecordApplied d k r i j) (hx : r.position ≠ x.val) (hchanged : x.val ∉ countsChanged k r)
    {e : Drawer} (he : (c.cu.applyKind c.faces k r).drawers[x.val] = e) : d.drawer x = e := by
  rw [h.drawer, if_neg hchanged, Chip.recorded, CuState.applyRecord_drawer, if_neg hx.symm, he]

/-- A drawer the record does not touch. -/
theorem Chip.RecordApplied.untouched (h : c.RecordApplied d k r i j) (hi : r.position = i.val) (hx : x ≠ i) (htarget : x.val ∉ touchedTarget k r)
    (hreserve : k ≠ .dayOpen ∨ x ≠ 12) : d.drawer x = c.drawer x := by
  have hne : r.position ≠ x.val := fun hn => hx (Fin.ext (hn.symm.trans hi))
  exact h.other hne (fun hin => (countsChanged_touched hin).elim hne.symm htarget)
    (CuState.applyKind_drawer_other _ _ hne.symm htarget hreserve)

/-- The day a record leaves that is no DAY_OPEN (R43, R46). -/
theorem Chip.RecordApplied.day_of_ne (h : c.RecordApplied d k r i j) (hk : k ≠ .dayOpen) : d.cu.day = (c.recorded k r).day := by
  rw [h.day, Chip.recordedCu, if_neg hk]

/-- A record counted in the day: its number, the hash total, and the next number (R43, R46, R69). -/
theorem Chip.RecordApplied.counted (h : c.RecordApplied d k r i j) : d.cu.day.recordCount = c.cu.day.recordCount + 1 ∧
    d.cu.day.hash = (c.cu.day.hash + r.amount) % 1000000000000 ∧ d.cu.day.next = seqAfter r.seq ∧
    d.cu.day.sumsSaturated = (c.cu.day.sumsSaturated || (c.recorded k r).anySaturated) := by
  have hsame := CuState.applyKind_sameDay c.cu c.faces k r
  have hday : d.cu.day.recordCount = (c.recorded k r).day.recordCount ∧ d.cu.day.hash = (c.recorded k r).day.hash ∧
      d.cu.day.next = (c.recorded k r).day.next ∧ d.cu.day.sumsSaturated = (c.recorded k r).day.sumsSaturated := by
    rw [h.day]
    unfold Chip.recordedCu
    split <;> exact ⟨rfl, rfl, rfl, rfl⟩
  obtain ⟨hcount, hhash, hnext, hsat⟩ := hday
  rw [hcount, hhash, hnext, hsat]
  unfold Chip.recorded
  rw [CuState.applyRecord_day]
  exact ⟨congrArg (· + 1) hsame.recordCount, congrArg (fun n => (n + r.amount) % 1000000000000) hsame.hash, rfl,
    congrArg (· || _) hsame.sumsSaturated⟩

/-- Flags judged and a day opened saturate no sum (R44). -/
theorem Chip.RecordApplied.anySaturated (h : c.RecordApplied d k r i j) : d.cu.anySaturated = (c.recorded k r).anySaturated := by
  refine CuState.anySaturated_congr (fun x => ?_) ?_ ?_ ?_ ?_ ?_
  · have hdrawer := congrArg Drawer.anySaturated (h.drawer x)
    refine hdrawer.trans ?_
    split <;> rfl
  all_goals
    rw [h.day]
    unfold Chip.recordedCu
    split <;> rfl

/-- A branch sum or the difference total is the kind's own (R44, R47). -/
theorem Chip.RecordApplied.sums (h : c.RecordApplied d k r i j) (hk : k ≠ .dayOpen) : let day := (c.cu.applyKind c.faces k r).day
    d.cu.day.cashIn = day.cashIn ∧ d.cu.day.cashOut = day.cashOut ∧ d.cu.day.noncashIn = day.noncashIn ∧
      d.cu.day.noncashOut = day.noncashOut ∧ d.cu.day.differenceTotal = day.differenceTotal := by
  rw [h.day_of_ne hk, Chip.recorded, CuState.applyRecord_day]
  exact ⟨rfl, rfl, rfl, rfl, rfl⟩

/-- A record that is no DAY_OPEN leaves the day's state, first number and date. -/
theorem Chip.RecordApplied.sameDay (h : c.RecordApplied d k r i j) (hk : k ≠ .dayOpen) :
    d.cu.day.state = c.cu.day.state ∧ d.cu.day.first = c.cu.day.first ∧ d.cu.day.date = c.cu.day.date := by
  have hsame := CuState.applyKind_sameDay c.cu c.faces k r
  rw [h.day_of_ne hk, Chip.recorded, CuState.applyRecord_day]
  exact ⟨hsame.state, hsame.first, hsame.date⟩

/-- A DAY_OPEN opens the day (R88, R89). -/
theorem Chip.RecordApplied.opened (h : c.RecordApplied d .dayOpen r i j) : let day := d.cu.day
    day.state = .dayOpen ∧ day.date = r.reference ∧ day.first = r.seq ∧ day.openCounts = r.counts ∧ day.batch = 0 ∧ day.failure = .none ∧
      day.previousDate = c.cu.day.previousDate ∧
      (day.openingDiff = true ↔ c.cu.day.previousDate ≠ 0 ∧ ∃ n : Fin 10, countAt r.counts n ≠ countAt c.cu.day.closingCounts n) := by
  have hsame := CuState.applyKind_sameDay c.cu c.faces .dayOpen r
  have hday : d.cu.day = (c.recorded .dayOpen r).day.opened r := h.day
  have hdiff (day : DayRecord) : (day.opened r).openingDiff = true ↔
      day.previousDate ≠ 0 ∧ ∃ n : Fin 10, countAt r.counts n ≠ countAt day.closingCounts n := by
    show (day.previousDate != 0 && !sameCounts r.counts day.closingCounts) = true ↔ _
    rw [Bool.and_eq_true, bne_iff_ne, Bool.not_eq_true', ← Bool.not_eq_true, sameCounts_iff, not_forall]
  have hprevious : (c.recorded .dayOpen r).day.previousDate = c.cu.day.previousDate := by
    rw [Chip.recorded, CuState.applyRecord_day]
    exact hsame.previousDate
  have hclosing : (c.recorded .dayOpen r).day.closingCounts = c.cu.day.closingCounts := by
    rw [Chip.recorded, CuState.applyRecord_day]
    exact hsame.closingCounts
  have hopening := hdiff (c.recorded .dayOpen r).day
  rw [hprevious, hclosing] at hopening
  rw [hday]
  exact ⟨rfl, rfl, rfl, rfl, rfl, rfl, hprevious, hopening⟩

/-! ### Cash and the other amounts -/

/-- A sum and counts of the slot's drawer moved by a record in place. -/
theorem Chip.RecordApplied.moved (h : c.RecordApplied d k r i j) (hi : r.position = i.val) (hchanged : i.val ∈ countsChanged k r)
    {f : Drawer → Drawer} {g : DayRecord → DayRecord} (hf : c.cu.applyKind c.faces k r = (c.cu.onDrawer r.position f).onDay g) :
    d.drawer i = c.flagged i ((f (c.drawer i)).posted r.seq) :=
  h.slot_judged hi hchanged (by rw [hf]; exact c.cu.onDrawer_at hi f)

/-- A sum of the slot's drawer moved by a record without cash. -/
theorem Chip.RecordApplied.movedNoncash (h : c.RecordApplied d k r i j) (hi : r.position = i.val) (hchanged : i.val ∉ countsChanged k r)
    {f : Drawer → Drawer} {g : DayRecord → DayRecord} (hf : c.cu.applyKind c.faces k r = (c.cu.onDrawer r.position f).onDay g) :
    d.drawer i = (f (c.drawer i)).posted r.seq :=
  h.slot hi hchanged (by rw [hf]; exact c.cu.onDrawer_at hi f)

/-- The branch sums moved by a record. -/
theorem Chip.RecordApplied.branch (h : c.RecordApplied d k r i j) (hk : k ≠ .dayOpen) {f : Drawer → Drawer} {g : DayRecord → DayRecord}
    (hf : c.cu.applyKind c.faces k r = (c.cu.onDrawer r.position f).onDay g) :
    d.cu.day.cashIn = (g c.cu.day).cashIn ∧ d.cu.day.cashOut = (g c.cu.day).cashOut ∧
      d.cu.day.noncashIn = (g c.cu.day).noncashIn ∧ d.cu.day.noncashOut = (g c.cu.day).noncashOut := by
  obtain ⟨h1, h2, h3, h4, -⟩ := h.sums hk
  have hday : (c.cu.applyKind c.faces k r).day = g c.cu.day := by
    rw [hf]
    exact congrArg g (CuState.onDrawer_day _ _ _)
  rw [hday] at h1 h2 h3 h4
  exact ⟨h1, h2, h3, h4⟩

end Applied

end Sys2Proof.Machine
end

section
/-! PROOF. Settles O36: the twelve kinds, and APPLY_RECORD as a whole. -/

namespace Sys2Proof.Machine

/-! ### The amounts: each kind's effect on the slot's drawer and the branch sums (R80, R82) -/

theorem CuState.applyKind_cashIn (cu : CuState) (faces : Vector Nat 10) (r : JRecord) : cu.applyKind faces .cashIn r =
    (cu.onDrawer r.position fun d => { d.gain r.counts with cashIn := d.cashIn.add r.amount }).onDay
      fun d => { d with cashIn := d.cashIn.add r.amount } := rfl

theorem CuState.applyKind_cashOut (cu : CuState) (faces : Vector Nat 10) (r : JRecord) : cu.applyKind faces .cashOut r =
    (cu.onDrawer r.position fun d => { d.lose r.counts with cashOut := d.cashOut.add r.amount }).onDay
      fun d => { d with cashOut := d.cashOut.add r.amount } := rfl

theorem CuState.applyKind_noncashIn (cu : CuState) (faces : Vector Nat 10) (r : JRecord) : cu.applyKind faces .noncashIn r =
    (cu.onDrawer r.position fun d => { d with noncashIn := d.noncashIn.add r.amount }).onDay
      fun d => { d with noncashIn := d.noncashIn.add r.amount } := rfl

theorem CuState.applyKind_noncashOut (cu : CuState) (faces : Vector Nat 10) (r : JRecord) : cu.applyKind faces .noncashOut r =
    (cu.onDrawer r.position fun d => { d with noncashOut := d.noncashOut.add r.amount }).onDay
      fun d => { d with noncashOut := d.noncashOut.add r.amount } := rfl

/-! ### The effect of a VOID, by the kind of its original (Table 5-3) -/

section Void

variable {cu : CuState} {r : JRecord}

theorem CuState.applyVoid_cashIn (h : r.original = some .cashIn) : cu.applyVoid r =
    (cu.onDrawer r.position fun d => { d.lose r.counts with cashIn := d.cashIn.lower r.amount }).onDay
      fun d => { d with cashIn := d.cashIn.lower r.amount } := by
  unfold CuState.applyVoid
  rw [h]

theorem CuState.applyVoid_cashOut (h : r.original = some .cashOut) : cu.applyVoid r =
    (cu.onDrawer r.position fun d => { d.gain r.counts with cashOut := d.cashOut.lower r.amount }).onDay
      fun d => { d with cashOut := d.cashOut.lower r.amount } := by
  unfold CuState.applyVoid
  rw [h]

theorem CuState.applyVoid_noncashIn (h : r.original = some .noncashIn) : cu.applyVoid r =
    (cu.onDrawer r.position fun d => { d with noncashIn := d.noncashIn.lower r.amount }).onDay
      fun d => { d with noncashIn := d.noncashIn.lower r.amount } := by
  unfold CuState.applyVoid
  rw [h]

theorem CuState.applyVoid_noncashOut (h : r.original = some .noncashOut) : cu.applyVoid r =
    (cu.onDrawer r.position fun d => { d with noncashOut := d.noncashOut.lower r.amount }).onDay
      fun d => { d with noncashOut := d.noncashOut.lower r.amount } := by
  unfold CuState.applyVoid
  rw [h]

theorem CuState.applyVoid_transfer (h : r.original = some .transfer) : cu.applyVoid r =
    (cu.onDrawer r.target fun d => ({ d.lose r.counts with transferIn := d.transferIn.lower r.amount }).touched r.seq).onDrawer
      r.position fun d => { d.gain r.counts with transferOut := d.transferOut.lower r.amount } := by
  unfold CuState.applyVoid
  rw [h]

end Void

/-! ### The kinds that name a second drawer, and DECLARE -/

section Kinds

variable {c d : Chip} {r : JRecord} {i j : Fin 13}

/-- A TRANSFER out of one drawer into another (R81). -/
theorem Chip.RecordApplied.transfer (h : c.RecordApplied d .transfer r i j) (hi : r.position = i.val) (hj : r.target = j.val) (hij : i ≠ j) :
    let a := c.drawer i
    let b := c.drawer j
    d.drawer i = c.flagged i (({ a with counts := subCounts a.counts r.counts, transferOut := a.transferOut.add r.amount } : Drawer).posted r.seq) ∧
      d.drawer j = c.flagged j
        { b with counts := addCounts b.counts r.counts, transferIn := b.transferIn.add r.amount, lastSeq := r.seq } := by
  have hpj : r.position ≠ j.val := fun hn => hij (Fin.ext (hi.symm.trans hn))
  have hti : r.target ≠ i.val := fun hn => hij (Fin.ext (hn.symm.trans hj))
  refine ⟨h.slot_judged hi (by simp [countsChanged, hi]) ?_, h.other_judged hpj (by simp [countsChanged, hj]) ?_⟩
  · exact (CuState.onDrawer_off _ hti _).trans (c.cu.onDrawer_at hi _)
  · refine (CuState.onDrawer_at _ hj _).trans ?_
    rw [c.cu.onDrawer_off hpj]
    rfl

/-- A TRANSFER taken back (Table 5-3). -/
theorem Chip.RecordApplied.voidTransfer (h : c.RecordApplied d .void r i j) (hi : r.position = i.val) (hj : r.target = j.val) (hij : i ≠ j)
    (ho : r.original = some .transfer) :
    let a := c.drawer i
    let b := c.drawer j
    d.drawer i = c.flagged i
        (({ a with counts := addCounts a.counts r.counts, transferOut := a.transferOut.lower r.amount } : Drawer).posted r.seq) ∧
      d.drawer j = c.flagged j
        { b with counts := subCounts b.counts r.counts, transferIn := b.transferIn.lower r.amount, lastSeq := r.seq } := by
  have hpj : r.position ≠ j.val := fun hn => hij (Fin.ext (hi.symm.trans hn))
  have hti : r.target ≠ i.val := fun hn => hij (Fin.ext (hn.symm.trans hj))
  have heffect : c.cu.applyKind c.faces .void r = _ := CuState.applyVoid_transfer ho
  refine ⟨h.slot_judged hi (by simp [countsChanged, ho, hi]) ?_, h.other_judged hpj (by simp [countsChanged, ho, hj]) ?_⟩
  · rw [heffect, CuState.onDrawer_at _ hi, c.cu.onDrawer_off hti]
    rfl
  · rw [heffect, CuState.onDrawer_off _ hpj, c.cu.onDrawer_at hj]
    rfl

/-- A drawer declared: BALANCED by its own counts, else in DIFFERENCE (R83). -/
theorem Chip.RecordApplied.declare (h : c.RecordApplied d .declare r i j) (hi : r.position = i.val) :
    let a := c.drawer i
    d.drawer i = Drawer.posted (if ∀ n : Fin 10, countAt r.counts n = countAt a.counts n then { a with state := .balanced, declared := none }
      else { a with
        state := .difference
        declared := some ⟨r.counts, (cashPosition c.faces r.counts : Int) - cashPosition c.faces a.counts⟩ }) r.seq :=
  h.slot hi (by simp [countsChanged]) ((c.cu.onDrawer_at hi _).trans (if_congr sameCounts_iff rfl rfl))

/-- The effect of an ACCEPT_DIFFERENCE on the drawer that holds the difference (R84). -/
theorem Drawer.accept_touched {b : Drawer} {x : Declared} (hb : b.declared = some x) (seq : Nat) :
    b.accept.touched seq = { b with counts := x.counts, declared := none, state := .balanced, lastSeq := seq } := by
  unfold Drawer.accept Drawer.touched
  rw [hb]
  rfl

/-- An accepted difference enters the difference total and makes the drawer BALANCED with the declared counts (R47, R84). -/
theorem Chip.RecordApplied.acceptDifference (h : c.RecordApplied d .acceptDifference r i j) (hi : r.position = i.val) (hj : r.target = j.val)
    {x : Declared} (hx : (c.drawer j).declared = some x) :
    let a := c.drawer i
    let b := c.drawer j
    d.cu.day.differenceTotal = diffTotalAdd c.cu.day.differenceTotal x.difference ∧
      (i ≠ j → d.drawer i = a.posted r.seq ∧
        d.drawer j = c.flagged j { b with counts := x.counts, declared := none, state := .balanced, lastSeq := r.seq }) ∧
      (i = j → d.drawer i = c.flagged i (({ a with counts := x.counts, declared := none, state := .balanced } : Drawer).posted r.seq)) := by
  have hdifference : c.cu.differenceOf r.target = x.difference := by
    have hget : c.cu.drawers.toList[r.target]? = some (c.drawer j) := by
      rw [hj, List.getElem?_eq_getElem (by simp)]
      exact congrArg some (Vector.getElem_toList _)
    unfold CuState.differenceOf
    rw [hget, Option.bind_some, hx]
  have hat (y : Fin 13) (hy : r.target = y.val) :
      (c.cu.applyKind c.faces .acceptDifference r).drawers[y.val] = (c.drawer y).accept.touched r.seq := CuState.onDrawer_at _ hy _
  refine ⟨?_, fun hij => ⟨?_, ?_⟩, ?_⟩
  · obtain ⟨-, -, -, -, htotal⟩ := h.sums (by decide)
    rw [htotal, ← hdifference]
    exact congrArg DayRecord.differenceTotal (CuState.onDrawer_day _ _ _)
  · have hti : r.target ≠ i.val := fun hn => hij (Fin.ext (hn.symm.trans hj))
    exact h.slot hi (by simpa [countsChanged] using hti.symm) (CuState.onDrawer_off _ hti _)
  · have hpj : r.position ≠ j.val := fun hn => hij (Fin.ext (hi.symm.trans hn))
    exact h.other_judged hpj (by simp [countsChanged, hj]) ((hat j hj).trans (Drawer.accept_touched hx _))
  · rintro rfl
    refine (h.slot_judged hi (by simp [countsChanged, hj]) (hat i hj)).trans ?_
    rw [Drawer.accept_touched hx]
    rfl

/-- A drawer opened again (R85). -/
theorem Chip.RecordApplied.reopen (h : c.RecordApplied d .reopen r i j) (hi : r.position = i.val) (hj : r.target = j.val) (hij : i ≠ j) :
    d.drawer i = (c.drawer i).posted r.seq ∧ d.drawer j = { c.drawer j with state := .drawerOpen, lastSeq := r.seq } := by
  have hpj : r.position ≠ j.val := fun hn => hij (Fin.ext (hi.symm.trans hn))
  have hti : r.target ≠ i.val := fun hn => hij (Fin.ext (hn.symm.trans hj))
  exact ⟨h.slot hi (by simp [countsChanged]) (CuState.onDrawer_off _ hti _),
    h.other hpj (by simp [countsChanged]) (CuState.onDrawer_at _ hj _)⟩

/-! ### The reports -/

/-- A record of a kind that changes no counts changes no flag. -/
theorem Chip.RecordApplied.no_flag {k : RecordKind} (h : c.RecordApplied d k r i j) (hk : countsChanged k r = []) (x : Fin 13) (n : Nat) :
    c.flagReport d n x = [] := by
  refine Chip.flagReport_of_same ?_
  rw [h.drawer, if_neg (by rw [hk]; exact List.not_mem_nil)]
  exact c.cu.applyRecord_excess c.faces k r x

/-- The reports of a record: a difference, an opening difference, or the flags changed (R42, R83, R89). -/
theorem Chip.RecordApplied.reports {k : RecordKind} (h : c.RecordApplied d k r i j) (hi : r.position = i.val) :
    c.Reports d (if k = .declare ∧ (d.drawer i).state = .difference then [(.difference, i.val, r.seq)]
      else if k = .dayOpen ∧ d.cu.day.openingDiff = true then [(.openingDiff, 12, r.seq)]
      else c.flagReport d r.seq i ++ if j = i then [] else c.flagReport d r.seq j) := by
  have hmade := h.made.reports
  by_cases hdeclare : k = .declare
  · subst hdeclare
    have hstate : (c.recordedCu .declare r).stateOf i.val = some .difference ↔ (d.drawer i).state = .difference := by
      have hdrawer : d.drawer i = (c.recorded .declare r).drawers[i.val] := (h.drawer i).trans (if_neg List.not_mem_nil)
      rw [CuState.stateOf_fin, hdrawer]
      exact Option.some_inj
    simp only [CuState.kindReported, hi, hstate, h.no_flag rfl, ite_self, List.append_nil] at hmade
    simpa [h.no_flag rfl] using hmade
  · rw [if_neg (fun hk => hdeclare hk.1)]
    by_cases hopen : k = .dayOpen
    · subst hopen
      simp only [CuState.kindReported, ← h.day, h.no_flag rfl, ite_self, List.append_nil] at hmade
      simpa [h.no_flag rfl] using hmade
    · rw [if_neg (fun hk => hopen hk.1)]
      have hnone : (c.recordedCu k r).kindReported k r = [] := by
        cases k with
        | declare => exact absurd rfl hdeclare
        | dayOpen => exact absurd rfl hopen
        | _ => rfl
      rw [hnone, List.nil_append] at hmade
      exact hmade

end Kinds

/-! ### APPLY_RECORD -/

/-- Settles O36: the record is applied to the drawers and the day, kind by kind; the reports, bells and readers follow. -/
theorem recordsApplied : Obligations.RecordsApplied := by
  intro s po k i j hs hpo hphase hcode hi hj r c a b targets posted
  obtain ⟨t, ht, h, hposting⟩ := applyRecord_next s po k i j hs hpo hphase hcode hi hj
  refine ⟨t, ht, ?_⟩
  beta_reduce
  intro day judged
  have hjudged (x : Fin 13) (d : Drawer) : c.flagged x d = judged x d := by
    have hceiling : t.chip.ceilingOf = c.ceilingOf := by
      funext p
      unfold Chip.ceilingOf
      rw [Chip.setting_congr h.made.image, Chip.setting_congr h.made.image]
    show c.flagged x d = { d with excess := match finOf 12 x.val with
      | some p => t.chip.ceilingOf p != 0 && t.chip.ceilingOf p < cashPosition c.faces d.counts
      | none => d.excess }
    rw [hceiling]
    rfl
  have htouched (n : Nat) : n ∈ touchedTarget k r ↔ n = j.val ∧ targets := by
    rw [mem_touchedTarget, show r.target = j.val from hj]
  obtain ⟨hcount, hhash, hnext, hsat⟩ := h.counted
  refine ⟨hposting, hcount, hhash, hnext, by rw [h.anySaturated]; exact hsat, fun x hxi hxj hreserve => ?_, ?note, ?reserve, ?dayOpen,
    ?openDrawer, ?cashIn, ?cashOut, ?noncashIn, ?noncashOut, ?transfer, ?declare, ?acceptDifference, ?reopen, ?voidCashIn, ?voidCashOut,
    ?voidNoncashIn, ?voidNoncashOut, ?voidTransfer, h.sameDay, h.reports hi,
    fun p => ⟨?bell, fun htold => ?status, fun htold hclosed => ?pulse⟩⟩
  · refine h.untouched hi hxi (fun hin => ?_) hreserve
    obtain ⟨hx, htargets⟩ := (htouched _).mp hin
    exact hxj.elim (fun hne => hne (Fin.ext hx)) fun hno => hno htargets
  case note =>
    rintro rfl
    exact h.slot hi (by simp [countsChanged]) rfl
  case reserve =>
    rintro rfl rfl
    exact h.slot hi (by simp [countsChanged]) (c.cu.onDrawer_at (i := 12) (x := 12) rfl _)
  case dayOpen =>
    rintro rfl
    exact h.opened
  case openDrawer =>
    rintro rfl
    exact h.slot hi (by simp [countsChanged]) (CuState.onDrawer_at _ hi _)
  case cashIn =>
    rintro rfl
    have heffect := c.cu.applyKind_cashIn c.faces r
    obtain ⟨hsum, -, -, -⟩ := h.branch (by decide) heffect
    exact ⟨(h.moved hi (by simp [countsChanged, hi]) heffect).trans (hjudged _ _), hsum⟩
  case cashOut =>
    rintro rfl
    have heffect := c.cu.applyKind_cashOut c.faces r
    obtain ⟨-, hsum, -, -⟩ := h.branch (by decide) heffect
    exact ⟨(h.moved hi (by simp [countsChanged, hi]) heffect).trans (hjudged _ _), hsum⟩
  case noncashIn =>
    rintro rfl
    have heffect := c.cu.applyKind_noncashIn c.faces r
    obtain ⟨-, -, hsum, -⟩ := h.branch (by decide) heffect
    exact ⟨h.movedNoncash hi (by simp [countsChanged]) heffect, hsum⟩
  case noncashOut =>
    rintro rfl
    have heffect := c.cu.applyKind_noncashOut c.faces r
    obtain ⟨-, -, -, hsum⟩ := h.branch (by decide) heffect
    exact ⟨h.movedNoncash hi (by simp [countsChanged]) heffect, hsum⟩
  case transfer =>
    rintro rfl hij
    obtain ⟨hout, hin⟩ := h.transfer hi hj hij
    exact ⟨hout.trans (hjudged _ _), hin.trans (hjudged _ _)⟩
  case declare =>
    rintro rfl
    refine (h.declare hi).trans ?_
    split <;> rfl
  case acceptDifference =>
    rintro x rfl hx
    obtain ⟨htotal, hother, hown⟩ := h.acceptDifference hi hj hx
    refine ⟨htotal, fun hij => ?_, fun hij => (hown hij).trans (hjudged _ _)⟩
    obtain ⟨hslot, htarget⟩ := hother hij
    exact ⟨hslot, htarget.trans (hjudged _ _)⟩
  case reopen =>
    rintro rfl hij
    exact h.reopen hi hj hij
  case voidCashIn =>
    rintro rfl ho
    have heffect : c.cu.applyKind c.faces .void r = _ := CuState.applyVoid_cashIn ho
    obtain ⟨hsum, -, -, -⟩ := h.branch (by decide) heffect
    exact ⟨(h.moved hi (by simp [countsChanged, show po.record.original = _ from ho, hi]) heffect).trans (hjudged _ _), hsum⟩
  case voidCashOut =>
    rintro rfl ho
    have heffect : c.cu.applyKind c.faces .void r = _ := CuState.applyVoid_cashOut ho
    obtain ⟨-, hsum, -, -⟩ := h.branch (by decide) heffect
    exact ⟨(h.moved hi (by simp [countsChanged, show po.record.original = _ from ho, hi]) heffect).trans (hjudged _ _), hsum⟩
  case voidNoncashIn =>
    rintro rfl ho
    have heffect : c.cu.applyKind c.faces .void r = _ := CuState.applyVoid_noncashIn ho
    obtain ⟨-, -, hsum, -⟩ := h.branch (by decide) heffect
    exact ⟨h.movedNoncash hi (by simp [countsChanged, show po.record.original = _ from ho]) heffect, hsum⟩
  case voidNoncashOut =>
    rintro rfl ho
    have heffect : c.cu.applyKind c.faces .void r = _ := CuState.applyVoid_noncashOut ho
    obtain ⟨-, -, -, hsum⟩ := h.branch (by decide) heffect
    exact ⟨h.movedNoncash hi (by simp [countsChanged, show po.record.original = _ from ho]) heffect, hsum⟩
  case voidTransfer =>
    rintro rfl ho hij
    obtain ⟨hout, hin⟩ := h.voidTransfer hi hj hij ho
    exact ⟨hout.trans (hjudged _ _), hin.trans (hjudged _ _)⟩
  case bell => exact h.bell p
  case status =>
    refine h.work p ?_
    obtain hx | ⟨htargets, hx⟩ | hk := htold
    · exact .inl (.inl ((congrArg Fin.val hx).trans hi.symm))
    · exact .inl (.inr ((htouched _).mpr ⟨congrArg Fin.val hx, htargets⟩))
    · exact .inr hk
  case pulse =>
    refine h.withdrawn p ?_ hclosed
    obtain hx | ⟨htargets, hx⟩ := htold
    · exact .inl ((congrArg Fin.val hx).trans hi.symm)
    · exact .inr ((htouched _).mpr ⟨congrArg Fin.val hx, htargets⟩)

end Sys2Proof.Machine
end

section
/-! PROOF. Settles O39: the rebuild walk. -/

namespace Sys2Proof.Machine

/-! ### Flags judged without a report -/

/-- Drawer record `n`'s flag judged without a report; RESERVE has none (R42). -/
def Chip.judgeQuietlyAt (c : Chip) (n : Nat) : Chip :=
  match positionOf n with | some p => c.judgeQuietly p | none => c

/-- The flags of a list are judged one by one. -/
theorem Chip.judgeWalked_cons (c : Chip) (n : Nat) (rest : List Nat) :
    c.judgeWalked (n :: rest) = (c.judgeQuietlyAt n).judgeWalked rest := rfl

/-- What one flag judged leaves of the drawers. -/
theorem Chip.judgeQuietlyAt_drawer (c : Chip) (n : Nat) (x : Fin 13) :
    (c.judgeQuietlyAt n).drawer x = if x.val = n then c.flagged x (c.drawer x) else c.drawer x := by
  unfold Chip.judgeQuietlyAt
  cases hp : positionOf n with
  | some p =>
    have hn : p.val = n := by
      unfold positionOf finOf at hp
      split at hp
      · exact congrArg Fin.val (Option.some_inj.mp hp).symm
      · cases hp
    refine (c.onDrawer_flagged p x).trans (if_congr ?_ rfl rfl)
    rw [← hn, Fin.ext_iff]
    rfl
  | none =>
    have hn : ¬ n < 12 := fun h => by simp [positionOf, finOf, h] at hp
    show c.drawer x = _
    split
    · next hx =>
      have hreserve : finOf 12 x.val = none := by simp [finOf, hx, hn]
      unfold Chip.flagged
      rw [hreserve]
    · rfl

/-- One flag judged leaves SU and the day. -/
theorem Chip.judgeQuietlyAt_kept (c : Chip) (n : Nat) : (c.judgeQuietlyAt n).su = c.su ∧ (c.judgeQuietlyAt n).cu.day = c.cu.day := by
  unfold Chip.judgeQuietlyAt
  split
  · exact ⟨rfl, CuState.onDrawer_day _ _ _⟩
  · exact ⟨rfl, rfl⟩

/-- The flags of the drawers of a list judged without reports: nothing else of the drawers or the day changes. -/
theorem Chip.judgeWalked_records (l : List Nat) (c : Chip) : (c.judgeWalked l).cu.day = c.cu.day ∧
    ∀ x, (c.judgeWalked l).drawer x = if x.val ∈ l then c.flagged x (c.drawer x) else c.drawer x := by
  induction l generalizing c with
  | nil => exact ⟨rfl, fun _ => rfl⟩
  | cons n rest ih =>
    obtain ⟨hsu, hday⟩ := c.judgeQuietlyAt_kept n
    obtain ⟨hrest, hdrawers⟩ := ih (c.judgeQuietlyAt n)
    have hflagged : (c.judgeQuietlyAt n).flagged = c.flagged := Chip.flagged_congr (congrArg SuState.image hsu)
    rw [Chip.judgeWalked_cons]
    refine ⟨hrest.trans hday, fun x => ?_⟩
    rw [hdrawers, hflagged, c.judgeQuietlyAt_drawer]
    by_cases hn : x.val = n
    · rw [if_pos hn, Chip.flagged_flagged, ite_self, if_pos (hn ▸ List.mem_cons_self)]
    · rw [if_neg hn]
      exact if_congr (by simp [hn]) rfl rfl

/-! ### A record walked, and a walk stopped -/

/-- A walk stopped DAMAGED, which is reported (R94). -/
def Chip.WalkStopped (c d : Chip) (w : Walk) : Prop :=
  c.Reports d [(.dayDamaged, 0, w.expected)] ∧ d.cu.day.damaged = true ∧ d.cu.day.next = w.expected ∧ d.cu.drawers = c.cu.drawers ∧
    d.cu.walk = some { w with phase := .ended, stopped := true, anchorChanged := true }

theorem Chip.walkDamaged_stopped (c : Chip) (w : Walk) : c.WalkStopped (c.walkDamaged w) w := by
  refine ⟨fun hroom => ?_, ?_⟩
  · rw [List.length_singleton] at hroom
    have hless : c.su.reports.length < 16 := by omega
    exact congrArg (fun d : Chip => d.su.reports) (Chip.report_of_room (c.onCu _) .dayDamaged 0 w.expected hless)
  · rw [c.walkDamaged_cu]
    exact ⟨rfl, rfl, rfl, rfl⟩

/-- A record walked: applied, the flags of its drawers judged without a report, and the walk moved on to `next` (R92, R42). -/
structure Chip.Walked (c d : Chip) (w : Walk) (k : RecordKind) (r : JRecord) (next : WalkPhase) : Prop where
  day : d.cu.day = (c.cu.applyRecord c.faces k r).day
  su : d.su = c.su
  walk : d.cu.walk = some { w with expected := seqAfter w.expected, count := w.count + 1, phase := next }
  drawer : ∀ x, d.drawer x = if x.val ∈ countsChanged k r then c.flagged x (c.cu.applyRecord c.faces k r).drawers[x.val]
    else (c.cu.applyRecord c.faces k r).drawers[x.val]

/-- A record applied on the walk. -/
theorem Chip.walkApply_walked (c : Chip) (w : Walk) (k : RecordKind) (r : JRecord) : c.Walked (c.walkApply w k r) w k r .ready := by
  have hflagged : (c.onCu (·.applyRecord c.faces k r)).flagged = c.flagged := Chip.flagged_congr rfl
  obtain ⟨hday, hjudged⟩ := (c.onCu (·.applyRecord c.faces k r)).judgeWalked_records (countsChanged k r)
  rw [hflagged] at hjudged
  exact ⟨hday, Chip.judgeWalked_su _ _, rfl, hjudged⟩

/-- A drawer a walked record leaves, but for its flag; and the flag. -/
theorem Chip.Walked.flag {c d : Chip} {w : Walk} {k : RecordKind} {r : JRecord} {next : WalkPhase} (h : c.Walked d w k r next) (x : Fin 13) :
    { d.drawer x with excess := false } = { (c.cu.applyRecord c.faces k r).drawers[x.val] with excess := false } ∧
      (d.drawer x).excess = match finOf 12 x.val with
        | some p => if x.val ∈ countsChanged k r then d.excessUnder (c.ceilingOf p) p else (c.drawer x).excess
        | none => (c.drawer x).excess := by
  have hdrawer := h.drawer x
  have hexcess := c.cu.applyRecord_excess c.faces k r x
  refine ⟨by rw [hdrawer]; split <;> rfl, ?_⟩
  by_cases hchanged : x.val ∈ countsChanged k r
  · rw [if_pos hchanged] at hdrawer
    obtain ⟨p, rfl⟩ | rfl := eq_drawerIndex_or x
    · have hp : finOf 12 (drawerIndex p).val = some p := positionOf_drawerIndex p
      have hfaces : d.faces = c.faces := by
        unfold Chip.faces
        simp only [Chip.setting_congr (congrArg SuState.image h.su)]
      have hcounts : (d.drawerOf p).counts = (c.cu.applyRecord c.faces k r).drawers[(drawerIndex p).val].counts := by
        have hboth := congrArg Drawer.counts hdrawer
        exact hboth
      rw [hdrawer, hp]
      dsimp only
      rw [if_pos hchanged, Chip.excessUnder, hcounts, hfaces, Chip.flagged, hp]
    · rw [hdrawer]
      exact hexcess
  · rw [if_neg hchanged] at hdrawer
    rw [hdrawer, hexcess]
    split
    · exact (if_neg hchanged).symm
    · rfl

/-- A record's access follows a record walked. -/
theorem Chip.Walked.of_own {c d : Chip} {w : Walk} {k : RecordKind} {r : JRecord} {next next' : WalkPhase} (h : c.Walked d w k r next)
    (u : Fin 9) (op : OwnOp) (tag : Tag) :
    c.Walked ((d.onCu fun cu => { cu with
      walk := some { w with expected := seqAfter w.expected, count := w.count + 1, phase := next' } }).push u op tag) w k r next' :=
  ⟨h.day, h.su, rfl, h.drawer⟩

/-! ### Records judged (Table 5-8) -/

/-- The journal ends before this record: a FREE stamp, or another number (case 3). -/
def Walk.EndsAt (w : Walk) (ws : List Word) : Prop := stampStatus (wordAt ws 11) = .free ∨ (recordOfWords ws).seq ≠ w.expected

/-- The record stops the walk DAMAGED (cases 4 to 6; log 16). -/
def Chip.WalkBad (c : Chip) (w : Walk) (ws : List Word) : Prop :=
  let r := recordOfWords ws
  let first := w.expected = c.cu.day.first
  let inDay := r.reference ≠ 0 ∧ seqDistance c.cu.day.first r.reference < seqDistance c.cu.day.first w.expected
  recordCrc ws ≠ stampCrc (wordAt ws 11) ∨ (first ∧ ¬ (r.code = 1 ∧ r.reference = c.cu.day.date)) ∨
    ∀ k, recordKindOfCode r.code = some k → slotAllows k r.position = false ∨ (k = .dayOpen ∧ ¬ first) ∨
      (k = .void ∧ ¬ inDay) ∨ (k ≠ .void ∧ reapplyFails c.cu k r = true)

section Judge

variable {c : Chip} {w : Walk} {ws : List Word}

/-- Case 3. -/
theorem Chip.walkJudge_of_ends (h : w.EndsAt ws) : c.walkJudge w ws = c.walkEnds w := by
  unfold Chip.walkJudge
  exact if_pos (by simpa [Walk.EndsAt] using h)

/-- Cases 4 to 6. -/
theorem Chip.walkJudge_of_bad (h : ¬ w.EndsAt ws) (hbad : c.WalkBad w ws) : c.walkJudge w ws = c.walkDamaged w := by
  unfold Chip.walkJudge
  dsimp only
  rw [if_neg (by simpa [Walk.EndsAt] using h)]
  split
  · rfl
  next hcrc =>
  split
  · rfl
  next hfirst =>
  simp only [bne_iff_ne, ne_eq, not_not] at hcrc
  simp only [Bool.and_eq_true, beq_iff_eq, Bool.not_eq_true', Bool.and_eq_false_iff, beq_eq_false_iff_ne] at hfirst
  have hkinds := (hbad.resolve_left (not_not_intro hcrc)).resolve_left fun ⟨hat, hno⟩ => hfirst ⟨hat, by tauto⟩
  split
  · rfl
  next k hk =>
  split
  · rfl
  next hslot =>
  simp only [Bool.or_eq_true, Bool.not_eq_true', Bool.and_eq_true, beq_iff_eq, bne_iff_ne, not_or, Bool.not_eq_false] at hslot
  obtain ⟨hallowed, hfirstOpen⟩ := hslot
  obtain hno | hopen | ⟨rfl, hout⟩ | ⟨hvoid, hfails⟩ := hkinds k hk
  · exact absurd (hallowed.symm.trans hno) (by decide)
  · exact absurd hopen hfirstOpen
  · rw [if_pos (by decide), if_neg (mt seqInDay_iff.mp hout)]
  · rw [if_neg (mt beq_iff_eq.mp hvoid), if_pos hfails]

/-- The record passes the checks that are not its kind's own. -/
theorem Chip.walkJudge_of_good (h : ¬ w.EndsAt ws) (hgood : ¬ c.WalkBad w ws) {k : RecordKind}
    (hk : recordKindOfCode (recordOfWords ws).code = some k) : c.walkJudge w ws =
      if k = .void then c.push rCU (.read (c.ringAddr (recordOfWords ws).reference 0) 4 8) (.walkOrigA ws)
      else c.walkApply w k (recordOfWords ws) := by
  unfold Chip.WalkBad at hgood
  simp only [not_or, not_forall, ne_eq, not_not, not_and, Bool.not_eq_false, Bool.not_eq_true] at hgood
  obtain ⟨hcrc, hfirst, k', hk', hslot, hopen, hvoid, happly⟩ := hgood
  obtain rfl : k' = k := Option.some_inj.mp (hk'.symm.trans hk)
  unfold Chip.walkJudge
  dsimp only
  rw [if_neg (by simpa [Walk.EndsAt] using h), if_neg (by simpa using hcrc), if_neg (by simpa using hfirst), hk]
  dsimp only
  rw [if_neg (by simpa [hslot] using hopen)]
  by_cases hv : k' = .void
  · obtain ⟨hreference, hbefore⟩ := hvoid hv
    rw [if_pos (beq_iff_eq.mpr hv), if_pos (seqInDay_iff.mpr ⟨hreference, hbefore⟩), if_pos hv]
  · rw [if_neg (mt beq_iff_eq.mp hv), if_neg (by rw [happly hv]; decide), if_neg hv]

end Judge

/-- A VOID's original lets it be re-applied: the number it names, intact, of its slot, voidable, and the reversal possible (R93; log 31). -/
def Chip.WalkVoids (c : Chip) (ws orig : List Word) (k : RecordKind) : Prop :=
  let o := recordOfWords orig
  let r := recordOfWords ws
  o.seq = r.reference ∧ recordCrc orig = stampCrc (wordAt orig 11) ∧ o.position = r.position ∧
    k ∈ [.cashIn, .cashOut, .noncashIn, .noncashOut, .transfer] ∧ reapplyFails c.cu .void { r with original := some k } = false

section Void

variable {c : Chip} {w : Walk} {ws orig : List Word}

/-- The voidable kinds (R71). -/
theorem RecordKind.voidable_eq_true {k : RecordKind} : k.voidable = true ↔ k ∈ [.cashIn, .cashOut, .noncashIn, .noncashOut, .transfer] := by
  cases k <;> decide

/-- An original that does not fit stops the walk (R93, R94). -/
theorem Chip.walkVoid_of_bad (h : ∀ k, recordKindOfCode (recordOfWords orig).code = some k → ¬ c.WalkVoids ws orig k) :
    c.walkVoid w ws orig = c.walkDamaged w := by
  unfold Chip.walkVoid
  dsimp only
  split
  · rfl
  next k hk =>
  split
  · rfl
  next hfits =>
  split
  · rfl
  next happly =>
  simp only [Bool.or_eq_true, bne_iff_ne, ne_eq, Bool.not_eq_true', not_or, not_not, Bool.not_eq_false] at hfits
  obtain ⟨⟨⟨hseq, hcrc⟩, hvoidable⟩, hposition⟩ := hfits
  exact absurd ⟨hseq, hcrc, hposition, RecordKind.voidable_eq_true.mp hvoidable, Bool.eq_false_iff.mpr happly⟩ (h k hk)

/-- An original that fits: the VOID is applied, and a POSTED original's stamp is rewritten (R93; log 82). -/
theorem Chip.walkVoid_of_fits {k : RecordKind} (hk : recordKindOfCode (recordOfWords orig).code = some k) (h : c.WalkVoids ws orig k) :
    let r := recordOfWords ws
    let stamp := wordAt orig 11
    let d := c.walkApply w .void { r with original := some k }
    c.walkVoid w ws orig = if stampStatus stamp = .posted then
        (d.onCu fun cu => { cu with walk := some { w with expected := seqAfter w.expected, count := w.count + 1, phase := .reading } }).push rCU
          (.write (d.ringAddr r.reference 11) [stampWord (stampCrc stamp) (stampPrint stamp) .voided]) (.walkRepair r.reference)
      else d := by
  obtain ⟨hseq, hcrc, hposition, hvoidable, happly⟩ := h
  unfold Chip.walkVoid
  dsimp only
  rw [hk]
  dsimp only
  rw [if_neg (by simp [hseq, hcrc, hposition, RecordKind.voidable_eq_true.mpr hvoidable]), if_neg (by rw [happly]; decide)]
  exact if_congr beq_iff_eq rfl rfl

/-- The ring stands where it stood while the placements and the settings stay. -/
theorem Chip.ringAddr_congr {c d : Chip} (hap : d.ap = c.ap) (hsu : d.su = c.su) (seq n : Nat) : d.ringAddr seq n = c.ringAddr seq n := by
  unfold Chip.ringAddr Chip.journalAddr Chip.windowBase Chip.placement Chip.capacity
  rw [hap, Chip.setting_congr (congrArg SuState.image hsu)]

end Void

/-! ### The answers to the walk's accesses -/

section Answers

variable {s : State} {w : Walk}

/-- The walk in progress. -/
theorem CuState.walkIn_of {cu : CuState} {ph : WalkPhase} (hw : cu.walk = some w) (hphase : w.phase = ph) : cu.walkIn ph = some w := by
  unfold CuState.walkIn
  rw [hw]
  exact Option.filter_some_pos (beq_iff_eq.mpr hphase)

/-- A read of the walk that fails stops it (case 2; log 35). -/
theorem Chip.walkAnswered_failed {c : Chip} (h : c.cu.walkIn .reading = some w) {tag : Tag} {front ws : List Word}
    (htag : tag ∈ [.walkA, .walkB front, .walkOrigA ws, .walkOrigB ws front]) (addr : Nat) (data : List Word) :
    c.walkAnswered tag false addr data = c.walkDamaged w := by
  simp only [List.mem_cons, List.not_mem_nil, or_false] at htag
  unfold Chip.walkAnswered
  rw [h]
  obtain rfl | rfl | rfl | rfl := htag <;> rfl

/-- The front of the record read, its rest is read. -/
theorem Chip.walkAnswered_front {c : Chip} (h : c.cu.walkIn .reading = some w) (addr : Nat) (data : List Word) :
    c.walkAnswered .walkA true addr data = c.push rCU (.read (addr + 32) 4 4) (.walkB data) := by
  unfold Chip.walkAnswered
  rw [h]
  rfl

/-- The front of a VOID's original read, its rest is read. -/
theorem Chip.walkAnswered_origFront {c : Chip} (h : c.cu.walkIn .reading = some w) (ws : List Word) (addr : Nat) (data : List Word) :
    c.walkAnswered (.walkOrigA ws) true addr data = c.push rCU (.read (addr + 32) 4 4) (.walkOrigB ws data) := by
  unfold Chip.walkAnswered
  rw [h]
  rfl

/-- The record read, it is judged. -/
theorem Chip.walkAnswered_record {c : Chip} (h : c.cu.walkIn .reading = some w) (front : List Word) (addr : Nat) (data : List Word) :
    c.walkAnswered (.walkB front) true addr data = c.walkJudge w (front ++ data) := by
  unfold Chip.walkAnswered
  rw [h]
  rfl

/-- A VOID's original read, the VOID is judged. -/
theorem Chip.walkAnswered_orig {c : Chip} (h : c.cu.walkIn .reading = some w) (ws front : List Word) (addr : Nat) (data : List Word) :
    c.walkAnswered (.walkOrigB ws front) true addr data = c.walkVoid w ws (front ++ data) := by
  unfold Chip.walkAnswered
  rw [h]
  rfl

/-- JU's list of unstamped numbers takes one more, or the overflow mark is set and DAMAGED asked for (R73, R93). -/
theorem Chip.addUnstamped_eq (c : Chip) (ref : Nat) : c.addUnstamped ref =
    if c.ju.unstamped.length < 8 then { c with ju := { c.ju with unstamped := c.ju.unstamped ++ [ref] } }
    else { c with ju := { c.ju with overflowMark := true }, cu := { c.cu with damage := c.cu.damage ++ [ref] } } := rfl

/-- The repair of a stamp answered: the walk goes on; an ERROR is reported and the number is unstamped (R17, R93). -/
theorem Chip.walkRepair_answered {c : Chip} (hw : c.cu.walk = some w) (hphase : w.phase = .reading) (ref addr : Nat) (okay : Bool)
    (data : List Word) : let d := c.walkAnswered (.walkRepair ref) okay addr data
    d.cu.walk = some { w with phase := .ready } ∧ d.cu.drawers = c.cu.drawers ∧ c.Told d okay rCU addr ∧
      (d.ju.overflowMark = true ↔ c.ju.overflowMark = true ∨ (okay = false ∧ 8 ≤ c.ju.unstamped.length)) ∧
      d.cu.damage = c.cu.damage ++ (if okay = false ∧ 8 ≤ c.ju.unstamped.length then [ref] else []) ∧
      d.ju.unstamped = if okay = false ∧ c.ju.unstamped.length < 8 then c.ju.unstamped ++ [ref] else c.ju.unstamped := by
  intro d
  have hd : d = (if okay then c else (c.reportStore rCU addr).addUnstamped ref).onCu
      fun cu => { cu with walk := some { w with phase := .ready } } := by
    show c.walkAnswered _ _ _ _ = _
    unfold Chip.walkAnswered
    rw [CuState.walkIn_of hw hphase]
  have htold : c.Told (c.reportStore rCU addr) false rCU addr :=
    ⟨nofun, fun _ hroom => congrArg Chip.su (c.report_of_room .storeError rCU.val (pageOf addr) hroom)⟩
  have hju : (c.reportStore rCU addr).ju = c.ju := c.reportStore_ju rCU addr
  have hcu : (c.reportStore rCU addr).cu = c.cu := c.reportStore_cu rCU addr
  rw [hd]
  cases okay with
  | true => exact ⟨rfl, rfl, ⟨fun _ => rfl, nofun⟩, by simp, by simp, by simp⟩
  | false =>
    rw [if_neg Bool.false_ne_true, Chip.addUnstamped_eq, hju, hcu]
    by_cases hfull : c.ju.unstamped.length < 8
    · rw [if_pos hfull]
      refine ⟨rfl, rfl, htold, ?_, ?_, ?_⟩
      · simp [Nat.not_le.mpr hfull]
      · simp [Nat.not_le.mpr hfull]
      · simp [hfull]
    · rw [if_neg hfull]
      refine ⟨rfl, rfl, htold, ?_, ?_, ?_⟩
      · simp [Nat.le_of_not_lt hfull]
      · simp [Nat.le_of_not_lt hfull]
      · simp [hfull]

end Answers

/-- Settles O39, case by case of Table 5-8. -/
theorem rebuildWalks : Obligations.RebuildWalks := by
  refine ⟨fun s w hs hw hphase => ?_, fun s w addr front ws' hs hw hphase => ?_⟩
  · have hexec : exec .rebuildWalkStep s = .next { s with chip := s.chip.rebuildWalkStep } :=
      congrArg Host.Outcome.next (State.act_of_not_prompt s Chip.rebuildWalkStep hs)
    have hstep : s.chip.rebuildWalkStep = if w.count = s.chip.capacity then s.chip.walkEnds w
        else (s.chip.onCu (fun cu => { cu with walk := some { w with phase := .reading } })).push rCU
          (.read (s.chip.ringAddr w.expected 0) 4 8) .walkA := by
      unfold Chip.rebuildWalkStep
      rw [hw]
      dsimp only
      rw [if_pos (beq_iff_eq.mpr hphase)]
      exact if_congr beq_iff_eq rfl rfl
    refine ⟨_, hexec, fun hfull => ?_, fun hmore => ?_⟩
    · rw [hstep, if_pos hfull]
      exact ⟨rfl, ⟨rfl, rfl, rfl, rfl⟩, by constructor <;> simp [Chip.walkEnds]⟩
    · rw [hstep, if_neg hmore]
      exact ⟨rfl, rfl, ⟨rfl, rfl, rfl, rfl⟩, by constructor <;> simp [Chip.push]⟩
  · intro c last damaged applied
    have hreading : c.cu.walkIn .reading = some w := CuState.walkIn_of hw hphase
    have hstopped {t : State} (ht : t.chip = c.walkDamaged w) : damaged t := by
      show c.WalkStopped t.chip w
      rw [ht]
      exact c.walkDamaged_stopped w
    have hwalked {t : State} {k : RecordKind} {r : JRecord} {next : WalkPhase} (h : c.Walked t.chip w k r next) : applied t k r next :=
      ⟨h.day, h.su, h.walk, h.flag⟩
    refine ⟨fun op tag hport htag => ?_, fun hport => ?_, fun hport => ?_, fun op ref hport okay => ?_, fun hport => ?_, fun hport => ?_⟩
    · refine State.completes_answer hs hport false (hstopped ?_)
      have hfailed := Chip.walkAnswered_failed hreading htag op.addr (op.data s.mem)
      simp only [List.mem_cons, List.not_mem_nil, or_false] at htag
      obtain rfl | rfl | rfl | rfl := htag <;> exact hfailed
    · exact State.completes_answer hs hport true (Chip.walkAnswered_front hreading _ _)
    · exact State.completes_answer hs hport true (Chip.walkAnswered_origFront hreading _ _ _)
    · exact State.completes_answer hs hport okay (Chip.walkRepair_answered hw hphase ref op.addr okay (op.data s.mem))
    · intro ws r ends first inDay bad
      have hchip : (s.answered rCU (.read addr 4 4) (.walkB front) true).chip = c.walkJudge w ws :=
        Chip.walkAnswered_record hreading front addr last
      refine ⟨fun hends => ?_, fun hends hbad => ?_, fun k hends hgood hk hvoid => ?_, fun hends hgood hcode => ?_⟩ <;>
        refine State.completes_answer hs hport true ?_
      · rw [hchip, Chip.walkJudge_of_ends hends]
        exact ⟨rfl, rfl⟩
      · exact hstopped (hchip.trans (Chip.walkJudge_of_bad hends hbad))
      · refine hwalked ?_
        rw [hchip, Chip.walkJudge_of_good hends hgood hk, if_neg hvoid]
        exact c.walkApply_walked w k r
      · have hk : recordKindOfCode r.code = some .void := recordKindOfCode_eq_some.mpr hcode
        rw [hchip, Chip.walkJudge_of_good hends hgood hk, if_pos rfl]
        exact ⟨rfl, rfl⟩
    · intro orig o stamp r fits
      have hchip : (s.answered rCU (.read addr 4 4) (.walkOrigB ws' front) true).chip = c.walkVoid w ws' orig :=
        Chip.walkAnswered_orig hreading ws' front addr last
      refine ⟨fun hbad => ?_, fun k hk hfits => ?_⟩ <;> refine State.completes_answer hs hport true ?_
      · exact hstopped (hchip.trans (Chip.walkVoid_of_bad hbad))
      · let d := c.walkApply w .void { r with original := some k }
        have happlied : c.Walked d w .void { r with original := some k } .ready := c.walkApply_walked w _ _
        have hown : d.own = c.own := Chip.judgeWalked_own _ _
        have hring (seq n : Nat) : d.ringAddr seq n = c.ringAddr seq n := Chip.ringAddr_congr (Chip.judgeWalked_ap _ _) happlied.su seq n
        rw [Chip.walkVoid_of_fits hk hfits] at hchip
        refine ⟨fun hstamp => ?_, fun hstamp => ?_⟩
        · rw [if_neg hstamp] at hchip
          exact ⟨hwalked (by rw [hchip]; exact happlied), by rw [hchip]; exact hown⟩
        · rw [if_pos hstamp, hring] at hchip
          refine ⟨hwalked (by rw [hchip]; exact happlied.of_own _ _ _), ?_⟩
          rw [hchip, ← hown]
          rfl

end Sys2Proof.Machine
end
